-- ==== Sys2Proof/Word.lean ====
section
/-! DEFINITION. The word types of the ZV940 and their plainest arithmetic: the 36-bit register word of R75, the 32-bit
register-frame word of R19, bytes. -/

namespace Sys2Proof

/-- A general or system register: 36 bits, value bits [31:0] and guard bits [35:32] (R75). -/
abbrev Word := BitVec 36

/-- A memory-mapped register (R19). -/
abbrev W32 := BitVec 32

/-- One byte of memory (R7). -/
abbrev Byte := BitVec 8

/-- A doubleword (R8). -/
abbrev W64 := BitVec 64

/-- Bits `hi .. lo` of a value, right aligned, in as many bits as the caller asks for (R7). -/
def bits {n : Nat} (x : BitVec n) (hi lo : Nat) : Nat := (x.toNat / 2 ^ lo) % 2 ^ (hi + 1 - lo)

/-- Bit `i` of a value (R7). -/
def bit {n : Nat} (x : BitVec n) (i : Nat) : Bool := x.getLsbD i

/-- The value with bits `lo + w - 1 .. lo` replaced by the low `w` bits of `v`. -/
def putBits {n : Nat} (x : BitVec n) (lo w : Nat) (v : Nat) : BitVec n :=
  let m : BitVec n := BitVec.ofNat n ((2 ^ w - 1) * 2 ^ lo)
  (x &&& ~~~m) ||| (BitVec.ofNat n (v % 2 ^ w * 2 ^ lo))

/-- One bit set or cleared. -/
def putBit {n : Nat} (x : BitVec n) (i : Nat) (b : Bool) : BitVec n := putBits x i 1 (if b then 1 else 0)

/-- A Boolean as a number. -/
def b2n (b : Bool) : Nat := if b then 1 else 0

/-- A count that stops at `m`. -/
def satInc (m n : Nat) : Nat := if n < m then n + 1 else m

end Sys2Proof
end

