-- ==== Sys2Proof/Operand.lean ====
section
/-! DEFINITION. The operand types of the commands: threads, registers, predicates, address modes, requesters. -/

namespace Sys2Proof

/-- A global thread number (R36): cluster × 128 + core × 32 + thread. -/
abbrev Gtn := Fin 1024

/-- A core of the device: cluster × 4 + core (R12). -/
abbrev CoreId := Fin 32

/-- A general register number (R75). -/
abbrev Reg := Fin 32

/-- A predicate number (R75). -/
abbrev PReg := Fin 8

/-- A berth number (R18). -/
abbrev BerthId := Fin 64

/-- The predicate of a syllable (R66, R67): it executes when p[reg] XOR neg is 1. -/
structure Pred where
  neg : Bool := false
  reg : PReg := 0
deriving DecidableEq, Repr

/-- A reserved syllable (R88): its unit (0 A, 1 B, 2 M, 3 X) and its bits [24:0]. -/
structure ResSyl where
  unit : Fin 4
  bits : BitVec 25
deriving DecidableEq, Repr

/-- The effective address of an M-unit syllable (R116): IMM format RA plus immediate, or TRI format RA plus RB. -/
inductive Addr where
  | imm (ra : Reg) (i : Word)
  | idx (ra rb : Reg)
deriving DecidableEq, Repr

/-- The second operand of a compare (R68): register RB or the immediate of R69. -/
inductive Opnd where
  | reg (rb : Reg)
  | imm (i : Word)
deriving DecidableEq, Repr

/-- Requester classes (R18), in the order of their codes (R27). -/
inductive ReqClass where
  | thread | harbour | security | dma | gateway | switch | pcie | debug
deriving DecidableEq, Repr

/-- The class code of R27. -/
def ReqClass.code : ReqClass → Nat
  | .thread => 0 | .harbour => 1 | .security => 2 | .dma => 3
  | .gateway => 4 | .switch => 5 | .pcie => 6 | .debug => 7

/-- The attributes every request carries (R18). -/
structure Req where
  cls : ReqClass
  berth : BerthId := 0
  priv : Fin 3 := 0
  src : Nat := 0
  peek : Bool := false
deriving DecidableEq, Repr

/-- The kind of an access for permissions (R173). -/
inductive Acc where
  | read | write | both | exec
deriving DecidableEq, Repr

/-- Whose register access a time-out ends (R23): a thread's, or that of the requester of another class which has waited longest. -/
inductive Waiter where
  | thread (t : Gtn)
  | other
deriving DecidableEq, Repr

/-- What a PCI Express peer asks of the device (R363, R365): a request to BAR0 or BAR4 of a function, to the mailbox page of
BAR2, to an address of a root port; or what its configuration writes set. `wr` holds the bytes of a write; `bad` says that EP
was set or ECRC failed. -/
inductive PcieReq where
  | bar0 (f : Fin 16) (off n : Nat) (wr : Option (List Byte)) (bad : Bool)
  | bar2 (off n : Nat) (wr : Option (List Byte))
  | bar4 (f : Fin 16) (off : Nat) (wr : Option W32)
  | root (addr n : Nat) (wr : Option (List Byte)) (bad : Bool)
  | config (f : Fin 16) (bme msix mask flr : Bool)
deriving DecidableEq, Repr

end Sys2Proof
end

