-- ==== Sys2Proof/Syntax.lean ====
section
/-! DEFINITION. The commands of the block: one constructor per row of spec/opcode_table.json, with the rule that governs
the row and the row's own summary. -/

namespace Sys2Proof

/-- The commands. -/
inductive Instr where
  /-- R44. Once per core cycle the scheduler picks a wake issue or an eligible thread by class share and round robin, and issues that thread's bundle. -/
  | issueSelect (core : CoreId)
  /-- R159. At a thread's ready time, pending reset, lock-up, hold, freeze, synchronous cause and presented interrupt are resolved in order. -/
  | bundleBoundary (t : Gtn)
  /-- R154. A presented interrupt is accepted at a boundary, or in any cycle while the thread is in WAIT, once the acceptance conditions hold. -/
  | interruptAccept (t : Gtn)
  /-- R47. In WAIT, the first cycle in which PEND AND MASK becomes non-zero sets LAST, clears those PEND bits and puts the thread in the wake queue. -/
  | waitChannelWake (t : Gtn)
  /-- R47. When the resume bundle is loaded, the thread either continues because a channel is already pending or parks in WAIT; a failed fetch raises its fault instead. -/
  | resumeBundleLoaded (t : Gtn)
  /-- R41. A fetched instruction line arrives in L1I and the thread's line buffer, ending the wait for the next bundle. -/
  | lineFillArrive (t : Gtn)
  /-- R57. Data of a load that missed L1D returns, and the bundle's ready time is set 2 cycles later. -/
  | loadDataReturn (t : Gtn)
  /-- R20. A device register access completes with its response or an error response, and the thread becomes ready 2 cycles later. -/
  | deviceAccessResponse (t : Gtn) (data : W64) (err : Bool)
  /-- R23. A register access unanswered 1 ms after entering the fabric completes with an error response and is recorded in FAB_TIMEOUT_EVR. -/
  | registerAccessTimeout (t : Waiter)
  /-- R62. A paired core comparison mismatch locks all 32 threads of the pair within 4 cycles, discards unreleased requests and records the mismatch. -/
  | pairMismatch (cluster : Fin 8) (high : Bool) (sel : Fin 32) (kind : Fin 7)
  /-- R65. A hold reaches the thread's core; a thread in WAIT becomes HELD at once and one in RUN at its next boundary. -/
  | threadHoldArrival (t : Gtn)
  /-- R38. 64 cycles after a THREAD reset reaches a thread, its context holds its reset values. -/
  | threadContextResetDone (t : Gtn)
  /-- R95. Writes RA plus RB modulo 2^36. -/
  | add (t : Gtn) (q : Pred) (rd ra rb : Reg)
  /-- R95. Writes RA minus RB modulo 2^36. -/
  | sub (t : Gtn) (q : Pred) (rd ra rb : Reg)
  /-- R95. Writes the bitwise AND of RA and RB. -/
  | and (t : Gtn) (q : Pred) (rd ra rb : Reg)
  /-- R95. Writes the bitwise OR of RA and RB. -/
  | or (t : Gtn) (q : Pred) (rd ra rb : Reg)
  /-- R95. Writes the bitwise XOR of RA and RB. -/
  | xor (t : Gtn) (q : Pred) (rd ra rb : Reg)
  /-- R95. Writes RA AND NOT RB. -/
  | andn (t : Gtn) (q : Pred) (rd ra rb : Reg)
  /-- R95. Shifts RA left by RB[5:0], giving 0 for amounts of 36 to 63. -/
  | shl (t : Gtn) (q : Pred) (rd ra rb : Reg)
  /-- R95. Shifts RA right with zero fill by RB[5:0]. -/
  | shr (t : Gtn) (q : Pred) (rd ra rb : Reg)
  /-- R95. Shifts RA right with sign fill by RB[5:0]. -/
  | sra (t : Gtn) (q : Pred) (rd ra rb : Reg)
  /-- R95. Writes the lesser of RA and RB as 36-bit signed numbers. -/
  | min (t : Gtn) (q : Pred) (rd ra rb : Reg)
  /-- R95. Writes the greater of RA and RB as 36-bit signed numbers. -/
  | max (t : Gtn) (q : Pred) (rd ra rb : Reg)
  /-- R95. Writes the lesser of RA and RB as 36-bit unsigned numbers. -/
  | minu (t : Gtn) (q : Pred) (rd ra rb : Reg)
  /-- R95. Writes the greater of RA and RB as 36-bit unsigned numbers. -/
  | maxu (t : Gtn) (q : Pred) (rd ra rb : Reg)
  /-- R96. Rewrites bits [35:8] of RA with copies of bit 7. -/
  | sxB (t : Gtn) (q : Pred) (rd ra : Reg)
  /-- R96. Rewrites bits [35:16] of RA with copies of bit 15. -/
  | sxH (t : Gtn) (q : Pred) (rd ra : Reg)
  /-- R96. Rewrites the guard bits of RA with copies of bit 31. -/
  | sxW (t : Gtn) (q : Pred) (rd ra : Reg)
  /-- R96. Clears bits [35:8] of RA. -/
  | zxB (t : Gtn) (q : Pred) (rd ra : Reg)
  /-- R96. Clears bits [35:16] of RA. -/
  | zxH (t : Gtn) (q : Pred) (rd ra : Reg)
  /-- R96. Clears the guard bits of RA. -/
  | zxW (t : Gtn) (q : Pred) (rd ra : Reg)
  /-- R99. Adds two signed 64-bit pairs and writes the pair result form. -/
  | addP (t : Gtn) (q : Pred) (rd ra rb : Reg)
  /-- R99. Subtracts two signed 64-bit pairs and writes the pair result form. -/
  | subP (t : Gtn) (q : Pred) (rd ra rb : Reg)
  /-- R99. Adds two unsigned 64-bit pairs and writes the pair result form. -/
  | addPu (t : Gtn) (q : Pred) (rd ra rb : Reg)
  /-- R99. Subtracts two unsigned 64-bit pairs and writes the pair result form. -/
  | subPu (t : Gtn) (q : Pred) (rd ra rb : Reg)
  /-- R97. Clamps RA to −128 to 127, setting ST.SOV when it clamps. -/
  | satB (t : Gtn) (q : Pred) (rd ra : Reg)
  /-- R97. Clamps RA to 0 to 255, setting ST.SOV when it clamps. -/
  | satBu (t : Gtn) (q : Pred) (rd ra : Reg)
  /-- R97. Clamps RA to the signed halfword range, setting ST.SOV when it clamps. -/
  | satH (t : Gtn) (q : Pred) (rd ra : Reg)
  /-- R97. Clamps RA to the unsigned halfword range, setting ST.SOV when it clamps. -/
  | satHu (t : Gtn) (q : Pred) (rd ra : Reg)
  /-- R97. Clamps RA to the signed word range, setting ST.SOV when it clamps. -/
  | satW (t : Gtn) (q : Pred) (rd ra : Reg)
  /-- R97. Clamps RA to the unsigned word range, setting ST.SOV when it clamps. -/
  | satWu (t : Gtn) (q : Pred) (rd ra : Reg)
  /-- R100. Clamps a 68-bit pair to the signed 64-bit range, setting ST.SOV when it clamps. -/
  | satP (t : Gtn) (q : Pred) (rd ra : Reg)
  /-- R106. Counts the leading zeros of all 36 bits. -/
  | clz (t : Gtn) (q : Pred) (rd ra : Reg)
  /-- R106. Counts the leading zeros of bits [31:0]. -/
  | clzW (t : Gtn) (q : Pred) (rd ra : Reg)
  /-- R106. Counts the bits below bit 35 that equal bit 35, before the first that differs. -/
  | cls (t : Gtn) (q : Pred) (rd ra : Reg)
  /-- R107. Builds a 32-bit value from bytes of RA and RD chosen by the selectors in RB. -/
  | bperm (t : Gtn) (q : Pred) (rd ra rb : Reg)
  /-- R101. Writes the low 36 bits of RA times RB. -/
  | mul (t : Gtn) (q : Pred) (rd ra rb : Reg)
  /-- R101. Writes the exact signed 32×32 product as a pair. -/
  | mulWp (t : Gtn) (q : Pred) (rd ra rb : Reg)
  /-- R101. Writes the exact unsigned 32×32 product as a pair. -/
  | mulWpu (t : Gtn) (q : Pred) (rd ra rb : Reg)
  /-- R102. Adds a signed 16×16 product to RD. -/
  | macH (t : Gtn) (q : Pred) (rd ra rb : Reg)
  /-- R102. Adds an unsigned 16×16 product to RD. -/
  | macHu (t : Gtn) (q : Pred) (rd ra rb : Reg)
  /-- R102. Adds a signed 32×32 product to a 68-bit pair accumulator. -/
  | macP (t : Gtn) (q : Pred) (rd ra rb : Reg)
  /-- R103. Writes the signed quotient, truncated toward zero, as a 20-word pattern. -/
  | div (t : Gtn) (q : Pred) (rd ra rb : Reg)
  /-- R103. Writes the unsigned quotient as a 20-word pattern. -/
  | divu (t : Gtn) (q : Pred) (rd ra rb : Reg)
  /-- R103. Writes the signed remainder as a 20-word pattern. -/
  | rem (t : Gtn) (q : Pred) (rd ra rb : Reg)
  /-- R103. Writes the unsigned remainder as a 20-word pattern. -/
  | remu (t : Gtn) (q : Pred) (rd ra rb : Reg)
  /-- R112. binary32 addition, rounded to nearest even. -/
  | faddS (t : Gtn) (q : Pred) (rd ra rb : Reg)
  /-- R112. binary32 subtraction. -/
  | fsubS (t : Gtn) (q : Pred) (rd ra rb : Reg)
  /-- R112. binary32 multiplication. -/
  | fmulS (t : Gtn) (q : Pred) (rd ra rb : Reg)
  /-- R112. binary32 RA×RB+RD with a single rounding. -/
  | fmaS (t : Gtn) (q : Pred) (rd ra rb : Reg)
  /-- R112. binary32 minimumNumber. -/
  | fminS (t : Gtn) (q : Pred) (rd ra rb : Reg)
  /-- R112. binary32 maximumNumber. -/
  | fmaxS (t : Gtn) (q : Pred) (rd ra rb : Reg)
  /-- R110. Clears the binary32 sign bit. -/
  | fabsS (t : Gtn) (q : Pred) (rd ra : Reg)
  /-- R110. Inverts the binary32 sign bit. -/
  | fnegS (t : Gtn) (q : Pred) (rd ra : Reg)
  /-- R112. binary16 addition. -/
  | faddH (t : Gtn) (q : Pred) (rd ra rb : Reg)
  /-- R112. binary16 subtraction. -/
  | fsubH (t : Gtn) (q : Pred) (rd ra rb : Reg)
  /-- R112. binary16 multiplication. -/
  | fmulH (t : Gtn) (q : Pred) (rd ra rb : Reg)
  /-- R112. binary16 fused multiply-add. -/
  | fmaH (t : Gtn) (q : Pred) (rd ra rb : Reg)
  /-- R112. binary16 minimumNumber. -/
  | fminH (t : Gtn) (q : Pred) (rd ra rb : Reg)
  /-- R112. binary16 maximumNumber. -/
  | fmaxH (t : Gtn) (q : Pred) (rd ra rb : Reg)
  /-- R110. Clears the binary16 sign bit. -/
  | fabsH (t : Gtn) (q : Pred) (rd ra : Reg)
  /-- R110. Inverts the binary16 sign bit. -/
  | fnegH (t : Gtn) (q : Pred) (rd ra : Reg)
  /-- R113. Converts binary16 to binary32 exactly. -/
  | fcvtSH (t : Gtn) (q : Pred) (rd ra : Reg)
  /-- R113. Converts binary32 to binary16 with rounding. -/
  | fcvtHS (t : Gtn) (q : Pred) (rd ra : Reg)
  /-- R113. Converts a 36-bit signed integer to binary32. -/
  | fcvtSW (t : Gtn) (q : Pred) (rd ra : Reg)
  /-- R113. Converts a 36-bit unsigned integer to binary32. -/
  | fcvtSWu (t : Gtn) (q : Pred) (rd ra : Reg)
  /-- R113. Converts binary32 to a signed word, truncating and clamping. -/
  | fcvtWS (t : Gtn) (q : Pred) (rd ra : Reg)
  /-- R113. Converts binary32 to a signed word, rounding to nearest even and clamping. -/
  | fcvtWSN (t : Gtn) (q : Pred) (rd ra : Reg)
  /-- R113. Converts binary32 to an unsigned word, truncating and clamping. -/
  | fcvtWuS (t : Gtn) (q : Pred) (rd ra : Reg)
  /-- R114. Writes the one-hot class mask of a binary32 value. -/
  | fclassS (t : Gtn) (q : Pred) (rd ra : Reg)
  /-- R114. Writes the one-hot class mask of a binary16 value. -/
  | fclassH (t : Gtn) (q : Pred) (rd ra : Reg)
  /-- R94. Adds the immediate to RA. -/
  | addi (t : Gtn) (q : Pred) (rd ra : Reg) (i : Word)
  /-- R94. ANDs RA with the immediate. -/
  | andi (t : Gtn) (q : Pred) (rd ra : Reg) (i : Word)
  /-- R94. ORs RA with the immediate. -/
  | ori (t : Gtn) (q : Pred) (rd ra : Reg) (i : Word)
  /-- R94. XORs RA with the immediate. -/
  | xori (t : Gtn) (q : Pred) (rd ra : Reg) (i : Word)
  /-- R94. Shifts RA left by immediate bits [5:0]. -/
  | shli (t : Gtn) (q : Pred) (rd ra : Reg) (i : Word)
  /-- R94. Shifts RA right with zero fill by immediate bits [5:0]. -/
  | shri (t : Gtn) (q : Pred) (rd ra : Reg) (i : Word)
  /-- R94. Shifts RA right with sign fill by immediate bits [5:0]. -/
  | srai (t : Gtn) (q : Pred) (rd ra : Reg) (i : Word)
  /-- R94. Writes the immediate minus RA. -/
  | rsubi (t : Gtn) (q : Pred) (rd ra : Reg) (i : Word)
  /-- R94. Signed minimum of RA and the immediate. -/
  | mini (t : Gtn) (q : Pred) (rd ra : Reg) (i : Word)
  /-- R94. Signed maximum of RA and the immediate. -/
  | maxi (t : Gtn) (q : Pred) (rd ra : Reg) (i : Word)
  /-- R94. Unsigned minimum of RA and the immediate. -/
  | minui (t : Gtn) (q : Pred) (rd ra : Reg) (i : Word)
  /-- R94. Unsigned maximum of RA and the immediate. -/
  | maxui (t : Gtn) (q : Pred) (rd ra : Reg) (i : Word)
  /-- R94. Low 36 bits of RA times the immediate. -/
  | muli (t : Gtn) (q : Pred) (rd ra : Reg) (i : Word)
  /-- R105. Extracts a bit field of RA, zero-extended. -/
  | bfx (t : Gtn) (q : Pred) (rd ra : Reg) (pos : Nat) (wm1 : Fin 32)
  /-- R105. Inserts RA's low bits into a bit field of RD. -/
  | bfi (t : Gtn) (q : Pred) (rd ra : Reg) (pos : Nat) (wm1 : Fin 32)
  /-- R108. Integer compare for equality into a predicate. -/
  | eq (t : Gtn) (q : Pred) (c : Bool) (pd : PReg) (ra : Reg) (b : Opnd)
  /-- R108. Integer compare for inequality into a predicate. -/
  | ne (t : Gtn) (q : Pred) (c : Bool) (pd : PReg) (ra : Reg) (b : Opnd)
  /-- R108. Signed less-than compare into a predicate. -/
  | lt (t : Gtn) (q : Pred) (c : Bool) (pd : PReg) (ra : Reg) (b : Opnd)
  /-- R108. Signed greater-or-equal compare into a predicate. -/
  | ge (t : Gtn) (q : Pred) (c : Bool) (pd : PReg) (ra : Reg) (b : Opnd)
  /-- R108. Signed less-or-equal compare into a predicate. -/
  | le (t : Gtn) (q : Pred) (c : Bool) (pd : PReg) (ra : Reg) (b : Opnd)
  /-- R108. Signed greater-than compare into a predicate. -/
  | gt (t : Gtn) (q : Pred) (c : Bool) (pd : PReg) (ra : Reg) (b : Opnd)
  /-- R108. Unsigned less-than compare into a predicate. -/
  | ltu (t : Gtn) (q : Pred) (c : Bool) (pd : PReg) (ra : Reg) (b : Opnd)
  /-- R108. Unsigned greater-or-equal compare into a predicate. -/
  | geu (t : Gtn) (q : Pred) (c : Bool) (pd : PReg) (ra : Reg) (b : Opnd)
  /-- R108. Unsigned less-or-equal compare into a predicate. -/
  | leu (t : Gtn) (q : Pred) (c : Bool) (pd : PReg) (ra : Reg) (b : Opnd)
  /-- R108. Unsigned greater-than compare into a predicate. -/
  | gtu (t : Gtn) (q : Pred) (c : Bool) (pd : PReg) (ra : Reg) (b : Opnd)
  /-- R108. Sets the predicate when RA AND the operand is non-zero. -/
  | tst (t : Gtn) (q : Pred) (c : Bool) (pd : PReg) (ra : Reg) (b : Opnd)
  /-- R108. Sets the predicate when RA AND the operand is zero. -/
  | ntst (t : Gtn) (q : Pred) (c : Bool) (pd : PReg) (ra : Reg) (b : Opnd)
  /-- R115. binary32 equality compare into a predicate. -/
  | feqS (t : Gtn) (q : Pred) (c : Bool) (pd : PReg) (ra : Reg) (b : Opnd)
  /-- R115. binary32 less-than compare. -/
  | fltS (t : Gtn) (q : Pred) (c : Bool) (pd : PReg) (ra : Reg) (b : Opnd)
  /-- R115. binary32 less-or-equal compare. -/
  | fleS (t : Gtn) (q : Pred) (c : Bool) (pd : PReg) (ra : Reg) (b : Opnd)
  /-- R115. binary32 unordered test. -/
  | funS (t : Gtn) (q : Pred) (c : Bool) (pd : PReg) (ra : Reg) (b : Opnd)
  /-- R115. binary16 equality compare. -/
  | feqH (t : Gtn) (q : Pred) (c : Bool) (pd : PReg) (ra : Reg) (b : Opnd)
  /-- R115. binary16 less-than compare. -/
  | fltH (t : Gtn) (q : Pred) (c : Bool) (pd : PReg) (ra : Reg) (b : Opnd)
  /-- R115. binary16 less-or-equal compare. -/
  | fleH (t : Gtn) (q : Pred) (c : Bool) (pd : PReg) (ra : Reg) (b : Opnd)
  /-- R115. binary16 unordered test. -/
  | funH (t : Gtn) (q : Pred) (c : Bool) (pd : PReg) (ra : Reg) (b : Opnd)
  /-- R89. An executing reserved syllable zeroes its destination set, or raises Illegal when ST.STRICT is 1. -/
  | reservedEncoding (t : Gtn) (q : Pred) (body : ResSyl)
  /-- R117. Loads a byte, sign-extended. -/
  | ldB (t : Gtn) (q : Pred) (rd : Reg) (a : Addr)
  /-- R117. Loads a halfword, sign-extended. -/
  | ldH (t : Gtn) (q : Pred) (rd : Reg) (a : Addr)
  /-- R117. Loads a word, sign-extended. -/
  | ldW (t : Gtn) (q : Pred) (rd : Reg) (a : Addr)
  /-- R80. Loads an extended word. -/
  | ldX (t : Gtn) (q : Pred) (rd : Reg) (a : Addr)
  /-- R117. Loads a byte, zero-extended. -/
  | ldBu (t : Gtn) (q : Pred) (rd : Reg) (a : Addr)
  /-- R117. Loads a halfword, zero-extended. -/
  | ldHu (t : Gtn) (q : Pred) (rd : Reg) (a : Addr)
  /-- R117. Loads a word, zero-extended. -/
  | ldWu (t : Gtn) (q : Pred) (rd : Reg) (a : Addr)
  /-- R117. Loads a doubleword into a pair. -/
  | ldD (t : Gtn) (q : Pred) (rd : Reg) (a : Addr)
  /-- R120. Stores the low byte of RD into the store buffer. -/
  | stB (t : Gtn) (q : Pred) (rd : Reg) (a : Addr)
  /-- R120. Stores the low halfword of RD. -/
  | stH (t : Gtn) (q : Pred) (rd : Reg) (a : Addr)
  /-- R120. Stores the low word of RD. -/
  | stW (t : Gtn) (q : Pred) (rd : Reg) (a : Addr)
  /-- R80. Stores RD as an extended word. -/
  | stX (t : Gtn) (q : Pred) (rd : Reg) (a : Addr)
  /-- R117. Stores a pair as a doubleword. -/
  | stD (t : Gtn) (q : Pred) (rd : Reg) (a : Addr)
  /-- R120. Saturating signed byte store. -/
  | ssB (t : Gtn) (q : Pred) (rd ra rb : Reg)
  /-- R120. Saturating unsigned byte store. -/
  | ssBu (t : Gtn) (q : Pred) (rd ra rb : Reg)
  /-- R120. Saturating signed halfword store. -/
  | ssH (t : Gtn) (q : Pred) (rd ra rb : Reg)
  /-- R120. Saturating unsigned halfword store. -/
  | ssHu (t : Gtn) (q : Pred) (rd ra rb : Reg)
  /-- R120. Saturating signed word store. -/
  | ssW (t : Gtn) (q : Pred) (rd ra rb : Reg)
  /-- R120. Saturating unsigned word store. -/
  | ssWu (t : Gtn) (q : Pred) (rd ra rb : Reg)
  /-- R132. Acquire load of a word; no later access begins before its data returns. -/
  | ldAqW (t : Gtn) (q : Pred) (rd ra rb : Reg)
  /-- R132. Acquire load of an extended word. -/
  | ldAqX (t : Gtn) (q : Pred) (rd ra rb : Reg)
  /-- R132. Release store of a word after every earlier store is performed. -/
  | stRlW (t : Gtn) (q : Pred) (rd ra rb : Reg)
  /-- R132. Release store of an extended word. -/
  | stRlX (t : Gtn) (q : Pred) (rd ra rb : Reg)
  /-- R132. Orders every earlier access before every later one, stalling until earlier stores are performed. -/
  | fence (t : Gtn) (q : Pred)
  /-- R132. Places a store-store marker in the store buffer. -/
  | fenceSs (t : Gtn) (q : Pred)
  /-- R125. Loads a word, sets the thread's link and takes the line in M. -/
  | ldlW (t : Gtn) (q : Pred) (rd ra : Reg)
  /-- R125. Loads an extended word and sets the link. -/
  | ldlX (t : Gtn) (q : Pred) (rd ra : Reg)
  /-- R126. Stores a word only if the link holds, writes the status and clears the link. -/
  | stcW (t : Gtn) (q : Pred) (rd ra rb : Reg)
  /-- R126. Conditional store of an extended word. -/
  | stcX (t : Gtn) (q : Pred) (rd ra rb : Reg)
  /-- R146. Extracts a signal of 1–32 bits from a frame into RD. -/
  | sunpk (t : Gtn) (q : Pred) (rd ra rb : Reg)
  /-- R146. Writes RD into a signal of a frame. -/
  | spack (t : Gtn) (q : Pred) (rd ra rb : Reg)
  /-- R142. Resumable copy of RB bytes from RA to RD. -/
  | copy (t : Gtn) (q : Pred) (rd ra rb : Reg)
  /-- R142. Resumable fill of RB bytes at RD with the pattern of RA. -/
  | fill (t : Gtn) (q : Pred) (rd ra rb : Reg)
  /-- R142. Resumable byte comparison of two ranges. -/
  | cmpb (t : Gtn) (q : Pred) (rd ra rb : Reg)
  /-- R142. Resumable CRC-32C update over RB bytes. -/
  | crc32c (t : Gtn) (q : Pred) (rd ra rb : Reg)
  /-- R142. Resumable CRC-16 update. -/
  | crc16 (t : Gtn) (q : Pred) (rd ra rb : Reg)
  /-- R142. Resumable CRC-8 update with polynomial 0x1D. -/
  | crc8 (t : Gtn) (q : Pred) (rd ra rb : Reg)
  /-- R142. Resumable CRC-8 update with polynomial 0x2F. -/
  | crc8h (t : Gtn) (q : Pred) (rd ra rb : Reg)
  /-- R130. Atomic word swap at the L2. -/
  | amoSwapW (t : Gtn) (q : Pred) (rd ra rb : Reg)
  /-- R130. Atomic word add. -/
  | amoAddW (t : Gtn) (q : Pred) (rd ra rb : Reg)
  /-- R130. Atomic word AND. -/
  | amoAndW (t : Gtn) (q : Pred) (rd ra rb : Reg)
  /-- R130. Atomic word OR. -/
  | amoOrW (t : Gtn) (q : Pred) (rd ra rb : Reg)
  /-- R130. Atomic word XOR. -/
  | amoXorW (t : Gtn) (q : Pred) (rd ra rb : Reg)
  /-- R130. Atomic signed word minimum. -/
  | amoMinW (t : Gtn) (q : Pred) (rd ra rb : Reg)
  /-- R130. Atomic signed word maximum. -/
  | amoMaxW (t : Gtn) (q : Pred) (rd ra rb : Reg)
  /-- R130. Atomic unsigned word minimum. -/
  | amoMinuW (t : Gtn) (q : Pred) (rd ra rb : Reg)
  /-- R130. Atomic unsigned word maximum. -/
  | amoMaxuW (t : Gtn) (q : Pred) (rd ra rb : Reg)
  /-- R130. Atomic word compare-and-swap. -/
  | amoCasW (t : Gtn) (q : Pred) (rd ra rb : Reg)
  /-- R130. Atomic extended-word swap. -/
  | amoSwapX (t : Gtn) (q : Pred) (rd ra rb : Reg)
  /-- R130. Atomic extended-word add. -/
  | amoAddX (t : Gtn) (q : Pred) (rd ra rb : Reg)
  /-- R130. Atomic extended-word compare-and-swap. -/
  | amoCasX (t : Gtn) (q : Pred) (rd ra rb : Reg)
  /-- R212. Writes any dirty copy of the line to memory, keeping copies valid. -/
  | clClean (t : Gtn) (q : Pred) (ra : Reg)
  /-- R212. Cleans and then invalidates the line in every L1D, L2 and SLC. -/
  | clFlush (t : Gtn) (q : Pred) (ra : Reg)
  /-- R212. Invalidates a flash line everywhere, or acts as CL.FLUSH elsewhere. -/
  | clInv (t : Gtn) (q : Pred) (ra : Reg)
  /-- R212. Zeroes a whole line as one store without reading it. -/
  | clZero (t : Gtn) (q : Pred) (ra : Reg)
  /-- R214. Starts a fill of the line into L2 and L1D, never faulting. -/
  | clPref (t : Gtn) (q : Pred) (ra : Reg)
  /-- R214. Starts a fill of the line into L2 in M state, never faulting. -/
  | clPrefw (t : Gtn) (q : Pred) (ra : Reg)
  /-- R181. Invalidates own-berth entries covering a VA under the current ASID or global. -/
  | tlbiVa (t : Gtn) (q : Pred) (ra : Reg)
  /-- R181. Invalidates own-berth entries covering a VA under any ASID. -/
  | tlbiVaa (t : Gtn) (q : Pred) (ra : Reg)
  /-- R181. Invalidates own-berth non-global entries of one ASID. -/
  | tlbiAsid (t : Gtn) (q : Pred) (ra : Reg)
  /-- R181. Invalidates every entry of the own berth. -/
  | tlbiOwn (t : Gtn) (q : Pred)
  /-- R181. Invalidates entries of a berth covering an IPA page. -/
  | tlbiIpa (t : Gtn) (q : Pred) (ra rb : Reg)
  /-- R181. Invalidates every entry of a berth. -/
  | tlbiB (t : Gtn) (q : Pred) (rb : Reg)
  /-- R181. Invalidates every entry of every berth. -/
  | tlbiAll (t : Gtn) (q : Pred)
  /-- R182. A broadcast TLB maintenance operation completes at every TLB, allowing a waiting SYNC.C to finish. -/
  | tlbMaintenanceComplete
  /-- R177. A two-stage table walk ends, filling a TLB entry or raising a translation, permission or Stage 2 fault. -/
  | tableWalkDone (t : Gtn)
  /-- R84. Reads a system register into a general register, or raises the privilege fault. -/
  | mfsr (t : Gtn) (q : Pred) (rd : Reg) (srn : BitVec 10)
  /-- R82. Writes a system register under the field and timing rules, or raises the privilege fault. -/
  | mtsr (t : Gtn) (q : Pred) (srn : BitVec 10) (rd : Reg)
  /-- R134. Jumps to RA. -/
  | jmp (t : Gtn) (q : Pred) (ra : Reg)
  /-- R134. Jumps to RA and writes the link to RD. -/
  | jmpl (t : Gtn) (q : Pred) (rd ra : Reg)
  /-- R133. Direct branch, with link to g31 in the call form. -/
  | bra (t : Gtn) (q : Pred) (link hint : Bool) (disp : BitVec 20)
  /-- R139. Invalidates a line in every L1I and line buffer after the thread's earlier stores to it are written. -/
  | iflush (t : Gtn) (q : Pred) (ra : Reg)
  /-- R139. Every core has acknowledged an IFLUSH invalidation and the thread becomes eligible. -/
  | iflushComplete (t : Gtn)
  /-- R140. Emits a software trace message when tracing is on. -/
  | tnote (t : Gtn) (q : Pred) (ra : Reg) (tag : Fin 32)
  /-- R47. Writes WCH.MASK and starts the fetch of the resume bundle before parking. -/
  | wait (t : Gtn) (q : Pred) (mask : BitVec 8)
  /-- R136. Raises the system-call cause at S with the service number in XFA. -/
  | sysc (t : Gtn) (q : Pred) (arg : BitVec 16)
  /-- R136. Raises the hypervisor-call cause at H. -/
  | hypc (t : Gtn) (q : Pred) (arg : BitVec 16)
  /-- R161. Restores ST from XST and continues at XRA of the current level. -/
  | rfx (t : Gtn) (q : Pred)
  /-- R138. Waits until earlier translation-register writes and TLB maintenance have taken effect, then refetches. -/
  | syncC (t : Gtn) (q : Pred)
  /-- R54. Resets the core's counter table and the thread's branch history. -/
  | pflush (t : Gtn) (q : Pred)
  /-- R59. Sets a barrier against early launch and predicted fetch until the next branch resolves. -/
  | pbar (t : Gtn) (q : Pred)
  /-- R247. Enters a customer pattern through the entry table, or raises the Pattern fault. -/
  | ucall (t : Gtn) (q : Pred) (i : Fin 64)
  /-- R240. One micro-word of a pattern issues, performing its ALU and memory operation and choosing the next address. -/
  | patternMicroWord (t : Gtn)
  /-- R250. The harbourmaster rewrites a pattern store word or entry from its repair copy after an error. -/
  | patternWordRewrite (core : CoreId) (addr : Fin 16384)
  /-- R197. A store buffer entry is written into L2 and L1D once its line is held in M, and the store is performed. -/
  | storeBufferDrain (t : Gtn) (order : Nat)
  /-- R128. 64 core cycles after an LDL the L2 stops delaying coherence requests for the link's line. -/
  | linkDelayExpiry (t : Gtn)
  /-- R224. A home takes a GetS and answers it by state. -/
  | gets (agent : Fin 13) (line : Nat)
  /-- R224. A home takes a GetM, invalidating sharers and forwarding to any owner. -/
  | getm (agent : Fin 13) (line : Nat)
  /-- R224. A home takes a GetMZ and grants ownership without data. -/
  | getmz (agent : Fin 13) (line : Nat)
  /-- R224. A home takes a RdOnce and supplies data without recording a copy. -/
  | rdonce (agent : Fin 13) (line : Nat)
  /-- R224. A home takes a Clean and downgrades any owner. -/
  | clean (agent : Fin 13) (line : Nat)
  /-- R224. A home takes a Flush, recalls and invalidates every copy and drops the SLC line. -/
  | flush (agent : Fin 13) (line : Nat)
  /-- R226. When a line's transaction ends, its oldest queued request is taken. -/
  | busyQueueTake (line : Nat)
  /-- R224. A home's read of SLC, DRAM, quay SRAM or flash returns and its Data is sent. -/
  | homeMemoryReadDone (line : Nat)
  /-- R225. A home evaluates a PutS on arrival. -/
  | puts (agent : Fin 13) (line : Nat)
  /-- R225. A home evaluates a PutE on arrival. -/
  | pute (agent : Fin 13) (line : Nat)
  /-- R225. A home evaluates a PutM, writing its data when the sender is still owner. -/
  | putm (agent : Fin 13) (line : Nat)
  /-- R225. A home evaluates a PutO. -/
  | puto (agent : Fin 13) (line : Nat)
  /-- R224. A home receives Unblock and ends BW for the line. -/
  | unblock (agent : Fin 13) (line : Nat)
  /-- R221. An owner receives Fwd-GetS and sends Data (S) to the requester. -/
  | fwdGets (agent : Fin 13) (line : Nat)
  /-- R221. An owner receives Fwd-RdOnce and sends Data, keeping its state. -/
  | fwdRdonce (agent : Fin 13) (line : Nat)
  /-- R221. An owner receives Fwd-GetM, sends Data (M) and leaves the line. -/
  | fwdGetm (agent : Fin 13) (line : Nat)
  /-- R221. An owner receives Fwd-GetMZ, sends Grant and leaves the line. -/
  | fwdGetmz (agent : Fin 13) (line : Nat)
  /-- R221. A sharer receives Inv, drops its copy and sends Inv-Ack. -/
  | inv (agent : Fin 13) (line : Nat)
  /-- R221. An owner receives Recall and answers with Recall-Data. -/
  | recall (agent : Fin 13) (line : Nat)
  /-- R221. An owner receives Downgrade, answers with Recall-Data and keeps S. -/
  | downgrade (agent : Fin 13) (line : Nat)
  /-- R221. A requester receives Data, records n and performs its access. -/
  | data (agent : Fin 13) (line : Nat)
  /-- R221. A requester receives Grant and records n. -/
  | grant (agent : Fin 13) (line : Nat)
  /-- R221. An agent or home counts an Inv-Ack. -/
  | invAck (agent : Fin 13) (line : Nat) (toHome : Bool)
  /-- R224. A home in BR writes a Recall-Data to the SLC or quay SRAM. -/
  | recallData (agent : Fin 13) (line : Nat)
  /-- R221. An evicting agent receives Put-Ack and frees its writeback buffer. -/
  | putAck (agent : Fin 13) (line : Nat)
  /-- R221. An evicting agent receives Put-Stale and frees its writeback buffer. -/
  | putStale (agent : Fin 13) (line : Nat)
  /-- R224. A requester receives Done, completing its Clean or Flush. -/
  | done (agent : Fin 13) (line : Nat)
  /-- R232. A forward, Recall, Downgrade or Inv unanswered for 100 µs declares its agent dead. -/
  | coherenceTimeout (agent : Fin 13) (line : Nat)
  /-- R232. An agent's uncorrectable tag or state array error declares it dead. -/
  | agentFatalError (agent : Fin 13)
  /-- R233. Every home has walked its directory; DONE sets, the log is written and a dead cluster's threads are held. -/
  | reclaimComplete
  /-- R335. A scrubber reads its next line at its interval and repairs or poisons words by syndrome. -/
  | scrubRead (kind : Fin 4) (unit : Fin 16)
  /-- R338. Arms an error injection into the next whole-line write of a protected region. -/
  | dmcInjWrite (rq : Req) (c : Fin 8) (w : W32)
  /-- R327. Every 32 ms the device temperature report is read and the refresh rate adjusted. -/
  | dramTemperatureRead (c : Fin 8) (rate : Nat) (hot : Bool)
  /-- R327. Every 100 ms in S0 the WCK-to-DQ oscillator tracking runs. -/
  | wckTracking (c : Fin 8)
  /-- R261. A source signals its route entry, which records it and sets PEND, with any harbourmaster copy. -/
  | eventSignal (n : Fin 1536) (b : BerthId)
  /-- R261. The router delivers a pending wake to a core event port or makes an interrupt a candidate. -/
  | routeDelivery (entry : Fin 2560)
  /-- R259. A write to a route entry's configuration, checked by owner, privilege, level and target. -/
  | ertRteCfgWrite (rq : Req) (n : Fin 1536) (w : W32)
  /-- R264. A write to a route's STAT clears PEND and MULT when its sequence matches and withdraws the interrupt. -/
  | ertRteStatWrite (rq : Req) (n : Fin 1536) (w : W32)
  /-- R269. A permitted store to a doorbell keeps the value and signals its entry. -/
  | ertDbRing (rq : Req) (d : Fin 256) (w : W32)
  /-- R29. A write to an event record clears its flags and MULT only when the written SEQ matches. -/
  | eventRecordWrite (rq : Req) (pa : Nat) (w : W32)
  /-- R10. A write to a register that has no row of its own sets the value under its access code. -/
  | registerWrite (rq : Req) (pa : Nat) (w : W32)
  /-- R33. A normal read of an RSQ register returns a sequence number and captures its state. -/
  | rsqRead (rq : Req) (pa : Nat)
  /-- R280. A write to the request buffer, performed in IDLE or DONE and refused otherwise. -/
  | mbxReqWrite (rq : Req) (m : Fin 69) (i : Fin 64) (w : W32)
  /-- R280. Submits the request buffer, moving the mailbox to QUEUED, or is refused. -/
  | go (rq : Req) (m : Fin 69)
  /-- R285. Releases the completion buffer and decrements PEND. -/
  | cack (rq : Req) (m : Fin 69)
  /-- R286. The harbourmaster takes a queued request in its round and runs the checks of R282. -/
  | requestTaken (m : Fin 69)
  /-- R285. An accepted command's work ends and its completion is posted when the buffer is free. -/
  | completionPost (m : Fin 69)
  /-- R275. The harbourmaster cores disagree, stop, and the device performs a SYS reset. -/
  | harbourmasterMismatch
  /-- R297. Returns the order code, revision, versions, service state and last reset. -/
  | sysInfo (m : Fin 69)
  /-- R297. Posts OK and then starts a SYS or WARM reset. -/
  | sysReset (m : Fin 69)
  /-- R297. Returns the request payload unchanged. -/
  | sysEcho (m : Fin 69)
  /-- R298. Moves a cluster to a P-level by the transition sequence. -/
  | pwrLevel (m : Fin 69)
  /-- R298. Sets the platform ceiling and may clear the dip reduction. -/
  | pwrCeil (m : Fin 69)
  /-- R298. Sets the power budget from which the arbiter pool is computed. -/
  | pwrBudget (m : Fin 69)
  /-- R405. Enters S1, S2, S3 or S4 with a wake source mask. -/
  | pwrSleep (m : Fin 69)
  /-- R298. Returns levels, ceiling, dips, budget and estimated draw. -/
  | pwrStatus (m : Fin 69)
  /-- R299. Creates a berth with an empty stage-2 table and its strict, ceiling and H-level values. -/
  | berthCreate (m : Fin 69)
  /-- R299. Releases a berth's threads, destroys its instances, returns its entries and removes its mappings. -/
  | berthDestroy (m : Fin 69)
  /-- R314. Performs the BERTH reset of a berth, optionally restarting its threads. -/
  | berthReset (m : Fin 69)
  /-- R299. Returns a berth's settings, thread, instance and page counts. -/
  | berthStatus (m : Fin 69)
  /-- R317. Sets a berth watchdog's bounds, enable and action. -/
  | berthWdog (m : Fin 69)
  /-- R299. Returns a cluster whose agent is dead to coherence. -/
  | clusterRestart (m : Fin 69)
  /-- R299. Assigns a FREE thread to a berth as HELD with the berth's values. -/
  | threadAssign (m : Fin 69)
  /-- R299. Starts a HELD thread at an address and PL, or returns it to its remembered state. -/
  | threadStart (m : Fin 69)
  /-- R299. Holds a thread of the berth. -/
  | threadHold (m : Fin 69)
  /-- R38. Gives a thread a THREAD reset and answers after its context is reset. -/
  | threadReset (m : Fin 69)
  /-- R299. Disables routes targeting a HELD or LOCKED thread and returns it to FREE. -/
  | threadRelease (m : Fin 69)
  /-- R300. Creates a virtual instance with its IO context, instance page and event sources. -/
  | instCreate (m : Fin 69)
  /-- R300. Resets an instance in FROG mode and removes its page, context and events. -/
  | instDestroy (m : Fin 69)
  /-- R320. Resets an instance in DRAIN or FROG mode with a timeout. -/
  | instReset (m : Fin 69)
  /-- R300. Returns an instance's owner, existence, reset state and context. -/
  | instQuery (m : Fin 69)
  /-- R301. Gives a range of route entries from berth 0 to a berth. -/
  | routeGive (m : Fin 69)
  /-- R301. Returns a range of route entries to berth 0. -/
  | routeReturn (m : Fin 69)
  /-- R301. Sets a doorbell's second ringing berth. -/
  | dbShare (m : Fin 69)
  /-- R301. Returns an entry's owner, fixed, copy and instance flags. -/
  | routeQuery (m : Fin 69)
  /-- R303. Maps a PA range into a berth's stage-2 table. -/
  | memMap (m : Fin 69)
  /-- R303. Removes a range from a berth's stage-2 table and invalidates it device-wide. -/
  | memUnmap (m : Fin 69)
  /-- R304. Returns error log entries from a sequence number. -/
  | logRead (m : Fin 69)
  /-- R342. Returns a saturating counter group. -/
  | cntRead (m : Fin 69)
  /-- R341. Zeroes a saturating counter group. -/
  | cntClear (m : Fin 69)
  /-- R232. Declares a coherence agent dead by command and reclaims it. -/
  | agentReclaim (m : Fin 69)
  /-- R302. Returns the last lap time of each scrubber of a kind. -/
  | scrubStatus (m : Fin 69)
  /-- R305. Returns lifecycle, certified state and security firmware version. -/
  | secStatus (m : Fin 69)
  /-- R443. Binds a key slot to a berth and a service queue. -/
  | keyGive (m : Fin 69)
  /-- R305. Zeroises a slot's derived key and cancels requests using it. -/
  | keyRevoke (m : Fin 69)
  /-- R305. Returns a signed statement of lifecycle, versions, manifest digest and nonce. -/
  | attest (m : Fin 69)
  /-- R306. Issues a 256-bit nonce for a debug credential. -/
  | dbgChallenge (m : Fin 69)
  /-- R306. Opens a debug session at level 1 or 2 after the credential is checked. -/
  | dbgOpen (m : Fin 69)
  /-- R306. Releases any freeze and closes the debug session. -/
  | dbgClose (m : Fin 69)
  /-- R306. Returns session, freeze and failure state. -/
  | dbgStatus (m : Fin 69)
  /-- R306. A debug nonce lapses 60 s after it was issued. -/
  | nonceLapse
  /-- R307. Writes manifest words into the staging buffer. -/
  | manWrite (m : Fin 69)
  /-- R430. Checks the staged manifest, commits it or stores it to the boot slot. -/
  | manCommit (m : Fin 69)
  /-- R307. Returns staging and commit state and the committed digest. -/
  | manStatus (m : Fin 69)
  /-- R308. Returns the global time. -/
  | timeGet (m : Fin 69)
  /-- R308. Steps the free-running global time base and signals TIME_STEP and GTB_STEP. -/
  | timeStep (m : Fin 69)
  /-- R308. Selects free-running or an 802.1AS domain as the time source. -/
  | timeSource (m : Fin 69)
  /-- R308. Gives a time alarm and its page to a berth, or returns it. -/
  | alarmGive (m : Fin 69)
  /-- R484. Arms a counter snapshot at a global-time instant. -/
  | snap (m : Fin 69)
  /-- R483. Gives a core counter unit to a berth, or returns it. -/
  | cntGive (m : Fin 69)
  /-- R309. Sets the DRAM trace buffer. -/
  | traceBuf (m : Fin 69)
  /-- R309. Starts or stops the trace encoders of the cores named. -/
  | traceCtl (m : Fin 69)
  /-- R278. An SPI service port transaction writes words into host mailbox 0's page. -/
  | sspWriteWords (off : Nat) (ws : List W32)
  /-- R278. An SPI service port transaction reads words from the page. -/
  | sspReadWords (off n : Nat)
  /-- R278. An SPI service port transaction reads MBX_STAT. -/
  | sspReadStat
  /-- R357. A management VLAN frame is written to its host mailbox and GO is set, or it is dropped. -/
  | managementFrameRx (port : Fin 20) (vid : BitVec 12) (src : List Byte) (msg : List W32)
  /-- R314. A berth's instance resets have completed and its threads' stores drained, so its TLB invalidation starts. -/
  | berthResetQuiesced (b : BerthId)
  /-- R314. The berth's TLB invalidation completes, its mailbox resets, it enters READY and threads restart. -/
  | berthResetComplete (b : BerthId)
  /-- R317. A write to TGP_BWD_SVC arms, services or breaks the service sequence. -/
  | watchdogServiceWrite (rq : Req) (b : BerthId) (w : W32)
  /-- R317. ELAPSED reaches UB − UB/8, recording WARN and signalling BERTH_WDOG. -/
  | watchdogWarning (b : BerthId)
  /-- R317. ELAPSED reaches UB, a failure that counts, logs and may reset the berth or the device. -/
  | watchdogExpiry (b : BerthId)
  /-- R322. A DRAIN still running at TIMEOUT continues as FROG and sets TOUT. -/
  | instResetTimeout (i : Fin 2048)
  /-- R321. An instance reset's work items and requests have ended, CUT and context entries cleared, registers reset. -/
  | instanceResetComplete (i : Fin 2048)
  /-- R323. A PCIe peer's Function Level Reset runs a FROG reset of the function's instance. -/
  | functionLevelReset (f : Fin 16)
  /-- R395. A cluster idle for 1 µs stops its core clocks. -/
  | clusterGate (n : Fin 8)
  /-- R396. A domain woken from GATED or OFF becomes ready and stalled accesses proceed. -/
  | domainReady (d : Fin 24)
  /-- R397. A domain idle for OFFT ms powers off. -/
  | domainIdleOff (d : Fin 24)
  /-- R398. A PLL locks. -/
  | pllLock (p : Fin 13)
  /-- R412. At each 1 µs epoch the arbiter computes grants and clusters switch clock. -/
  | arbiterEpoch
  /-- R401. PMIC_VGOOD rises after a voltage-step frame and the level transition continues. -/
  | pmicVgoodRise
  /-- R402. PMIC_VGOOD not risen 200 µs after a frame; the frame is resent or the state is kept and logged. -/
  | voltageStepTimeout
  /-- R413. A supply below its warning threshold for 5 ns holds every requester at its floor and drives SUPPLY_WARN_N low. -/
  | supplyDip (soc : Bool)
  /-- R413. The supply rises above 96 % of its set point, recording the dip duration. -/
  | dipRecovery
  /-- R413. The supply has stayed above 96 % for 1 µs; SUPPLY_WARN_N releases and grants resume. -/
  | dipEnd
  /-- R415. Every 100 µs the junction sensors are read and throttling starts, ends or shuts down the device. -/
  | thermalSample (tj : List (BitVec 8))
  /-- R416. 10 ms after throttling starts, a reading of 120 °C or more sets the limit to P5. -/
  | thermalStage2Check
  /-- R405. Entry to S1–S4 completes, or an asserted wake source makes the device leave at once. -/
  | sleepEntryDone
  /-- R407. An enabled wake source asserts in a sleep state and is recorded in LAST_WAKE. -/
  | wakeSourceAssert (code : Fin 32) (arg : BitVec 11)
  /-- R407. PCR_WAKE_TMR ticks expire, waking the device with code 0x01. -/
  | wakeTimerExpiry
  /-- R410. A wake port transaction addresses ADDR, stretching SCL to wake the device or recording WKP in S0. -/
  | wakePortMatch (addr : BitVec 7) (rd : Bool) (byte : Byte)
  /-- R405. The device is back in S0 and the PWR_SLEEP completion is posted. -/
  | sleepExitComplete
  /-- R408. A wake port configuration write takes effect when the bus is idle or at its next STOP. -/
  | pcrWkpCfgWrite (rq : Req) (w : W32)
  /-- R422. Start-up begins once PWR_GOOD is high and every rail has been stable for 1 ms. -/
  | pwrGoodRise
  /-- R417. PWR_GOOD falls or VDD_AON is lost, resetting the whole device. -/
  | por (cause : Fin 3) (rail : Fin 16)
  /-- R413. VDD_CORE or VDD_SOC stays below its reset threshold for 50 ns. -/
  | bor (soc : Bool)
  /-- R499. Another monitored rail stays below 90 % for 50 ns, causing a POR with CAUSE 2. -/
  | railMonitorTrip (rail : Fin 16)
  /-- R417. RESET_N held low for 2 µs resets the device except PD00. -/
  | pinReset
  /-- R417. After BOR or PIN, supplies stable for 1 ms and RESET_N high restart start-up. -/
  | resetRelease
  /-- R431. The early segment passes its checks, the PMIC is configured, the patch loaded and READY set. -/
  | earlySegmentAccept
  /-- R425. The island's controllers, static routes and threads start and MOOR_N rises. -/
  | islandStart
  /-- R423. A frame on CAN 0–11 or LIN 0–7 is forwarded by the static table. -/
  | islandRouteForward
  /-- R432. The full segment passes every commit check and takes effect at once. -/
  | manifestCommit
  /-- R327. DRAM training ends and its checkers are tested, or failure holds the device. -/
  | dramTrainingDone (good : Bool)
  /-- R249. A cluster's L2 is zeroed and tested and its pattern store loaded, so its threads may start. -/
  | clusterBringUpDone (n : Fin 8)
  /-- R333. Protected DRAM has been zeroed and INIT is set on the channel. -/
  | dramZeroingDone (c : Fin 8)
  /-- R424. Full service is declared: gateway hand-over, P1 levels, berth 0 watchdog and stage 2. -/
  | fullServiceDeclare
  /-- R439. A core mismatch, SRAM double-bit error or TRNG health failure zeroises the security subsystem and stops it. -/
  | securityAlarm (kind : Fin 3)
  /-- R442. Ends a queue's open chain with CANCELLED. -/
  | shiQCancel (rq : Req) (r : Fin 16)
  /-- R441. Starts an AES-256-GCM encrypt segment. -/
  | aesGcmEncrypt (rq : Req) (r : Fin 16)
  /-- R441. Starts an AES-256-GCM decrypt segment. -/
  | aesGcmDecrypt (rq : Req) (r : Fin 16)
  /-- R441. Starts an AES-256-CTR segment. -/
  | aesCtr (rq : Req) (r : Fin 16)
  /-- R441. Starts an AES-256-CMAC segment. -/
  | aesCmac (rq : Req) (r : Fin 16)
  /-- R441. Starts a SHA-256 segment. -/
  | sha256 (rq : Req) (r : Fin 16)
  /-- R441. Starts a SHA-384 segment. -/
  | sha384 (rq : Req) (r : Fin 16)
  /-- R441. Starts a SHA-512 segment. -/
  | sha512 (rq : Req) (r : Fin 16)
  /-- R441. Starts a SHA3-256 segment. -/
  | sha3256 (rq : Req) (r : Fin 16)
  /-- R441. Starts a SHA3-384 segment. -/
  | sha3384 (rq : Req) (r : Fin 16)
  /-- R441. Starts a SHA3-512 segment. -/
  | sha3512 (rq : Req) (r : Fin 16)
  /-- R441. Starts an HMAC-SHA-256 segment. -/
  | hmacSha256 (rq : Req) (r : Fin 16)
  /-- R441. Signs a digest with a P-256 slot key. -/
  | ecdsaP256Sign (rq : Req) (r : Fin 16)
  /-- R441. Signs a digest with a P-384 slot key. -/
  | ecdsaP384Sign (rq : Req) (r : Fin 16)
  /-- R441. Verifies a P-256 signature. -/
  | ecdsaP256Verify (rq : Req) (r : Fin 16)
  /-- R441. Verifies a P-384 signature. -/
  | ecdsaP384Verify (rq : Req) (r : Fin 16)
  /-- R441. Verifies an ML-DSA-65 signature. -/
  | mlDsa65Verify (rq : Req) (r : Fin 16)
  /-- R441. Returns DRBG output. -/
  | randomBytes (rq : Req) (r : Fin 16)
  /-- R443. Derives a key into a slot from a label. -/
  | derive (rq : Req) (r : Fin 16)
  /-- R441. Unwraps a key into a slot with an AES wrapping slot. -/
  | unwrap (rq : Req) (r : Fin 16)
  /-- R442. A service segment finishes, writing status and output and setting DONE. -/
  | serviceSegmentDone (r : Fin 16)
  /-- R445. Requests a lifecycle transition, burnt into OTP when allowed. -/
  | shiLcReqWrite (rq : Req) (w : W32)
  /-- R444. Writes an OTP word when allowed, or records OTP. -/
  | shiOtpCmdWrite (rq : Req) (w : W32)
  /-- R451. TAP instruction selecting the 32-bit identification register. -/
  | idcode
  /-- R451. TAP instruction selecting the boundary scan register without taking the balls. -/
  | samplePreload
  /-- R452. Freezes the device and hands its balls to boundary scan. -/
  | extest
  /-- R452. Freezes and clamps the balls, selecting the bypass register. -/
  | clamp
  /-- R452. Freezes and places the balls in high impedance. -/
  | highz
  /-- R454. TAP instruction selecting the 36-bit debug access register. -/
  | dbgacc
  /-- R451. TAP instruction selecting the 1-bit bypass register. -/
  | bypass
  /-- R452. Update-IR leaving EXTEST, CLAMP or HIGHZ performs a DBG reset. -/
  | scanExitReset
  /-- R454. A DAE request submitted by DBGACC Update-DR or an SDP transaction is answered with an ACK. -/
  | debugRequest (sdp : Bool) (seq : Fin 4) (reg : Fin 8) (rd : Bool) (w : W32) (crcOk : Bool)
  /-- R456. SDP_DIO low for 56 clocks then high for 8 abandons any request and forgets SEQ. -/
  | sdpLineReset
  /-- R455. Starts or collects a debug read at DAE_ADDR. -/
  | daeDataRead
  /-- R455. Starts a debug write at DAE_ADDR. -/
  | daeDataWrite (w : W32)
  /-- R455. A debug access ends with its data or error, and DAE_STAT flags are set. -/
  | daeAccessDone
  /-- R453. Clears the DAE_STAT error bits. -/
  | clrerr
  /-- R460. Requests a device-wide freeze. -/
  | freeze
  /-- R463. Releases a frozen device, restarting clocks and signalling DEBUG_RESUME. -/
  | release
  /-- R464. Releases the device and refreezes at the ready time of the named thread's next bundle. -/
  | step (g : Gtn)
  /-- R464. A stepped thread issues nothing within 1 ms; the freeze is requested and STEPTO sets. -/
  | stepTimeout
  /-- R460. Threads stopped, stores drained and agents paused; clocks stop and FROZEN sets. -/
  | freezeAck
  /-- R453. DAE_RST value 0x0000_0D05 requests a DBG reset. -/
  | dbgResetRequest
  /-- R453. DAE_RST value 0x0001_0D05 requests a DBG reset that freezes at island start. -/
  | dbgResetFreezeRequest
  /-- R468. Performs a debugger write of the selected context item of a frozen thread. -/
  | dbtCtxHiWrite (rq : Req) (w : W32)
  /-- R469. 4,096 cycles after a thread's first held atom, its FLOW packet is emitted. -/
  | flowAtomTimeout (t : Gtn)
  /-- R472. Every TSIVL µs an encoder emits a TS packet. -/
  | tsInterval (core : CoreId)
  /-- R473. When 128 bytes are free after loss, the encoder emits OVF and TS. -/
  | traceOverflowRecover (core : CoreId)
  /-- R475. An encoder's open unit closes 1 µs after its first byte. -/
  | traceUnitTimeout (core : CoreId)
  /-- R476. The DRAM sink writes a whole line, advances WPTR and records THR, WRAPPED or FULL. -/
  | traceSinkLineWrite
  /-- R477. Every 1,024 rounds an ALIGN block is sent on every trace lane. -/
  | align
  /-- R480. Zeroes every counter of a counter unit. -/
  | cntClr (rq : Req) (u : Fin 75)
  /-- R480. A normal read of CNT_LOi captures bits [47:32] into CNT_HIi. -/
  | cntLoRead (rq : Req) (u : Fin 75) (i : Fin 16)
  /-- R485. At instant T each unit copies its counters and bins into shadows at its first clock edge. -/
  | snapshotCapture
  /-- R486. The row counter has written the collection table, records DONE and signals ROW_SNAP. -/
  | snapshotTableDone
  /-- R489. Frees sample records up to the new GET slot. -/
  | smpAck (rq : Req) (u : Fin 32) (w : W32)
  /-- R488. Configures sampling and clears SMP_LOST on a write of EN. -/
  | smpCfgWrite (rq : Req) (u : Fin 32) (w : W32)
  /-- R491. Zeroes every bin and TOTAL of a histogram unit. -/
  | histClr (rq : Req) (h : Fin 8)
  /-- R344. A frame is received on a port, checked, filtered and forwarded or dropped. -/
  | ethernetFrameRx (port : Fin 20) (frame : List Byte) (fcsOk : Bool)
  /-- R350. A frame or fragment finishes on its egress port. -/
  | ethernetFrameTxDone (port : Fin 20)
  /-- R350. A gate control list entry's interval ends and the next gate states apply, swapping in an admin list at its base time. -/
  | gateControlAdvance (port : Fin 12)
  /-- R347. Starts a read of a switch or gateway table entry. -/
  | tblRead (rq : Req) (gwy : Bool) (tbl : Fin 16) (idx : BitVec 16)
  /-- R347. Starts a whole-entry write of a switch or gateway table entry. -/
  | tblWrite (rq : Req) (gwy : Bool) (tbl : Fin 16) (idx : BitVec 16)
  /-- R347. A table access completes and GO reads 0. -/
  | tableAccessDone (gwy : Bool)
  /-- R347. A learned FDB entry ages out after the ageing time. -/
  | fdbAgeing
  /-- R352. An 802.1CB recovery function's reset time expires. -/
  | frerResetTimer (f : Fin 1024)
  /-- R346. A port link goes up or down. -/
  | linkChange (port : Fin 20) (rate : Option (Fin 6))
  /-- R351. Frame preemption verification on a port passes or fails. -/
  | preemptionVerifyDone (port : Fin 12) (pass : Bool)
  /-- R358. A 10BASE-T1S port receives an OPEN Alliance wake or sleep request. -/
  | t1sWakeSleepRx (port : Fin 8) (wake : Bool)
  /-- R356. A transmit tail write rings the host queue set's doorbell. -/
  | hqTxTailWrite (rq : Req) (q : Fin 48) (w : W32)
  /-- R356. A receive tail write posts buffers to the switch. -/
  | hqRxTailWrite (rq : Req) (q : Fin 48) (w : W32)
  /-- R356. The switch completes a transmit descriptor, writing back DONE and HEAD. -/
  | txDescriptorDone (q : Fin 48)
  /-- R356. The switch writes a received frame and its descriptor, then HEAD. -/
  | rxDescriptorDone (q : Fin 48)
  /-- R356. TIME has passed since the first unsignalled completion and the completion event signals. -/
  | coalesceTimerExpiry (i : Fin 2048)
  /-- R361. An offset write slews or steps the global time base. -/
  | eswTdOffsWrite (rq : Req) (w : W32)
  /-- R361. A time-base offset has been slewed out. -/
  | slewComplete
  /-- R185. An inbound PCIe request is translated whole and performed, refused, or taken as an MSI. -/
  | pcieInboundRequest (r : PcieReq)
  /-- R367. An outbound read has no completion within 500 µs and receives an error response. -/
  | pcieCompletionTimeout (t : Gtn)
  /-- R367. A PCIe link drops, failing accesses in flight and possibly declaring agent 12 dead. -/
  | pcieLinkDown (ctl : Fin 2)
  /-- R366. A PCIe link comes up or recovers, recorded in PCE_LINK_EVR. -/
  | pcieLinkUp (ctl : Fin 2) (rate : Fin 6) (width : Fin 9)
  /-- R363. Sends an MSI-X vector of a function or leaves it pending. -/
  | pceFnMsiWrite (rq : Req) (f : Fin 16) (w : W32)
  /-- R363. A pending vector is sent once it, its function and BME allow. -/
  | msiPendingSend (f v : Fin 16)
  /-- R373. A CAN frame accepted at EOF is filtered to the RX FIFO, a share or the gateway. -/
  | canFrameRx (k : Fin 24) (el : List Byte)
  /-- R374. Requests transmission of CAN transmit buffers. -/
  | canTxReq (rq : Req) (k : Fin 24) (w : W32)
  /-- R374. Cancels CAN transmit buffers. -/
  | canTxCancel (rq : Req) (k : Fin 24) (w : W32)
  /-- R374. A CAN transmit buffer ends as DONE or CANCEL, or loses arbitration and is retried. -/
  | canTxEnd (k : Fin 24) (how : Fin 4)
  /-- R372. Frees RX FIFO elements up to the new GET slot. -/
  | canRxfAck (rq : Req) (k : Fin 24) (w : W32)
  /-- R372. Sets the RX FIFO size unless it holds an element or a request is pending. -/
  | canRxfCfgWrite (rq : Req) (k : Fin 24) (w : W32)
  /-- R370. A write of bit timing, CAN_XCTL or PROTO, ignored whole when it breaks the limits. -/
  | canTimingWrite (rq : Req) (k : Fin 24) (reg : Fin 5) (w : W32)
  /-- R369. A protocol error or error-state change is recorded in CAN_ERR_EVR. -/
  | canBusError (k : Fin 24) (proto : Bool) (tec rec_ : Fin 512)
  /-- R369. With ABOR, a controller leaves bus-off after 128 × 11 recessive bits. -/
  | canBusoffRecovery (k : Fin 24)
  /-- R369. CAN_WAKEk is asserted by the transceiver and recorded. -/
  | canWake (k : Fin 24)
  /-- R375. Requests transmission of a share's buffers. -/
  | cshTxReq (rq : Req) (i : Fin 32) (w : W32)
  /-- R375. Cancels a share's transmit buffers. -/
  | cshTxCancel (rq : Req) (i : Fin 32) (w : W32)
  /-- R375. Frees a share's RX FIFO elements. -/
  | cshRxfAck (rq : Req) (i : Fin 32) (w : W32)
  /-- R379. A LIN commander schedule slot starts a frame header. -/
  | linScheduleSlot (k : Fin 16) (n : Fin 48)
  /-- R378. A LIN, SENT or other bus controller receives a frame or word into its FIFO. -/
  | busFrameRx (u : Fin 54) (ws : List W32) (err : BitVec 4)
  /-- R378. A bus frame, word or transfer completes, recording DONE. -/
  | busTransferDone (u : Fin 54) (err : BitVec 4)
  /-- R378. Pushes a word into a bus transmit FIFO, or records OVF when full. -/
  | busTxdWrite (rq : Req) (u : Fin 54) (w : W32)
  /-- R378. A normal read pops one word from a bus receive FIFO. -/
  | busRxdRead (rq : Req) (u : Fin 54)
  /-- R380. Starts a programmed xSPI command to the flash device. -/
  | xspCmd (rq : Req) (k : Fin 2) (w : W32)
  /-- R381. Sets GPIO_OUT bits. -/
  | gpioSet (rq : Req) (m : Fin 6) (w : W32)
  /-- R381. Clears GPIO_OUT bits. -/
  | gpioClr (rq : Req) (m : Fin 6) (w : W32)
  /-- R382. A synchronised GPIO level change in the selected direction records an edge and may capture a timer. -/
  | gpioEdge (g : Fin 192) (lvl : Bool)
  /-- R383. A timer compare instant takes effect, matching at once if already past. -/
  | tmrCmpHiWrite (rq : Req) (t : Fin 96) (w : W32)
  /-- R383. A timer compare matches, changing its line and advancing a periodic instant. -/
  | timerMatch (t : Fin 96)
  /-- R385. A DMA channel tail write rings its doorbell. -/
  | dmaChTailWrite (rq : Req) (i : Fin 32) (c : Fin 4) (w : W32)
  /-- R385. A DMA copy or fill descriptor completes and is written back. -/
  | dmaDescriptorDone (i : Fin 32) (c : Fin 4)
  /-- R388. The gateway takes a frame from its input queue and applies every matching route. -/
  | gatewayFrameIn
  /-- R390. A periodic PDU buffer's period expires and its frame is sent. -/
  | pduBufferPeriod (b : Fin 1024)
  /-- R391. An ACF stream's aggregation window ends and its AVTPDU is sent. -/
  | acfWindowExpiry (n : Fin 64)
  /-- R391. A received AVTPDU is unpacked into frames for the gateway. -/
  | acfAvtpduRx (q : Fin 48)
  /-- R392. A gateway queue transmit tail write rings its doorbell. -/
  | gwqTxTailWrite (rq : Req) (q : Fin 32) (w : W32)
  /-- R451. TRST_N low or the Test-Logic-Reset state resets the TAP asynchronously and selects IDCODE. -/
  | tapReset
  /-- R254. A global time base alarm reaches its instant and signals event 1176 + a. -/
  | gtbAlarmMatch (a : Fin 8)
  /-- R254. The global time base reaches a whole second and signals GTB_PPS, event 1185. -/
  | gtbPps
  /-- R481. A 48-bit event counter passes 2^48 − 1, wraps, records WRAP and sets its W bit. -/
  | counterWrap (u : Fin 75) (i : Fin 16)
  /-- R164. The 1 µs minimum low time of LOCKUP_N ends after the last locked thread has left LOCKED, and the driver is released. -/
  | lockupNMinLowExpiry
  /-- R396. A non-cluster domain whose gating condition holds, such as PD13 or PD19 idle for 10 µs, stops its clocks. -/
  | domainIdleGate (d : Fin 24)
  /-- R232. A domain holding a coherence agent is lost without its flush, recording LOST and declaring the agent dead with cause PWR. -/
  | domainPowerLoss (d : Fin 24)
  /-- R408. A STOP on the wake port bus ends a transaction, and a deferred PCR_WKP_CFG write takes effect. -/
  | wakePortStop
  /-- R369. An enabled CAN controller in the integrating state sees enough recessive bits to join the bus as error-active. -/
  | canBusIntegrated (k : Fin 24)
deriving DecidableEq, Repr

end Sys2Proof
end

