-- ==== Sys2Proof/Decode.lean ====
section
/-! DEFINITION. Words as commands: no row of the command table gives its command bits, so no word spells one. -/

namespace Sys2Proof

/-- The command that a word spells by the table's bits: none. -/
def decodeTableWord (_nbits _w : Nat) : Option Instr := none

end Sys2Proof
end

