-- ==== Sys2Proof/Machine/RegMap.lean ====
section
/-! DEFINITION. The register frames: which pages exist, their decode masks (R25), and the registers of each page with their
access codes (R10), reset values (R11) and writable bits. -/

namespace Sys2Proof.Machine

/-- The kinds of pages the blocks' maps list. -/
inductive PageKind where
  | common | core | lockup | patternPage | cacheInt
  | ertRec | ertRoute | ertCopy | ertBell
  | dmcCtl | dmcCh | fabDir | fabMem
  | eswGlob | eswPort | eswTd | hostQ
  | can | bus | canShare | canRam
  | gwyGlob | gwyQ | dmaGlob | iot | dmaSet
  | pceGlob | pceWin | pceFn
  | gpioBank | gpioLine | timer | timerHi | wdog
  | pcrDom | pcrLvl | pcrWake | pcrRst
  | row | hist | cnt | smp
  | shiGlob | shiQ
  | dbt | dbtSink | dbtCtx | dbtCore
  | mbx
deriving DecidableEq, Repr

/-- A run of pages of one kind: first physical address, number, stride, decode mask, number of the first unit. -/
structure PageRun where
  kind : PageKind
  base : Nat
  count : Nat
  stride : Nat
  mask : Nat
  first : Nat := 0
deriving DecidableEq, Repr

/-- The register frame of block code `c` (R12): 1 cluster control (of cluster 0) to 15 global time base. -/
def frameBase (c : Nat) : Nat := if c = 1 then 0x1040000000 else 0x1040000000 + (c - 1) * 0x1000000

/-- The common page of a block (R27); for clusters, of cluster `n`. -/
def commonPage (c n : Nat) : Nat := if c = 1 then 0x1040000000 + n * 0x100000 else frameBase c

/-- Every page of every frame (R12, R17, R27, R64, R165, R187, R234, R252, R256, R318, R339, R345, R366, R368, R381, R384,
R387, R395, R466, R478, R480). The pages 1 to 4 of a cluster frame are its cores' pages. -/
def pageRuns : List PageRun :=
  [ ⟨.common, 0x1040000000, 8, 0x100000, 0x01C, 16⟩,
    ⟨.common, 0x1041000000, 14, 0x1000000, 0x01C, 2⟩ ] ++
  [ ⟨.core, 0x1040001000, 4, 0x1000, 0x0FC, 0⟩, ⟨.core, 0x1040101000, 4, 0x1000, 0x0FC, 4⟩,
    ⟨.core, 0x1040201000, 4, 0x1000, 0x0FC, 8⟩, ⟨.core, 0x1040301000, 4, 0x1000, 0x0FC, 12⟩,
    ⟨.core, 0x1040401000, 4, 0x1000, 0x0FC, 16⟩, ⟨.core, 0x1040501000, 4, 0x1000, 0x0FC, 20⟩,
    ⟨.core, 0x1040601000, 4, 0x1000, 0x0FC, 24⟩, ⟨.core, 0x1040701000, 4, 0x1000, 0x0FC, 28⟩ ] ++
  [ ⟨.lockup, 0x1040005000, 8, 0x100000, 0x01C, 0⟩, ⟨.patternPage, 0x1040006000, 8, 0x100000, 0x01C, 0⟩,
    ⟨.cacheInt, 0x1040007000, 8, 0x100000, 0x01C, 0⟩,
    ⟨.ertRec, 0x1041001000, 1, 0x1000, 0x01C, 0⟩, ⟨.ertRoute, 0x1041002000, 6, 0x1000, 0x7FC, 0⟩,
    ⟨.ertCopy, 0x1041008000, 4, 0x1000, 0x7FC, 0⟩, ⟨.ertBell, 0x104100C000, 16, 0x1000, 0x07C, 0⟩,
    ⟨.dmcCtl, 0x1042001000, 1, 0x1000, 0x01C, 0⟩, ⟨.dmcCh, 0x1042002000, 8, 0x1000, 0x03C, 0⟩,
    ⟨.fabDir, 0x1043002000, 1, 0x1000, 0x01C, 0⟩, ⟨.fabMem, 0x1043003000, 1, 0x1000, 0x07C, 0⟩ ] ++
  [ ⟨.eswGlob, 0x1044001000, 1, 0x1000, 0x03C, 0⟩, ⟨.eswPort, 0x1044002000, 20, 0x1000, 0x01C, 0⟩,
    ⟨.eswTd, 0x1044016000, 1, 0x1000, 0x01C, 0⟩, ⟨.hostQ, 0x1044080000, 48, 0x1000, 0xFFC, 0⟩,
    ⟨.can, 0x1045001000, 24, 0x1000, 0xFFC, 0⟩, ⟨.bus, 0x1045020000, 54, 0x1000, 0x0FC, 0⟩,
    ⟨.canShare, 0x1045080000, 32, 0x1000, 0xFFC, 0⟩, ⟨.canRam, 0x1045100000, 96, 0x1000, 0xFFC, 0⟩,
    ⟨.gwyGlob, 0x1046001000, 1, 0x1000, 0x03C, 0⟩, ⟨.gwyQ, 0x1046080000, 32, 0x1000, 0xFFC, 0⟩,
    ⟨.dmaGlob, 0x1047001000, 1, 0x1000, 0x01C, 0⟩, ⟨.iot, 0x1047010000, 1, 0x1000, 0x01C, 0⟩,
    ⟨.dmaSet, 0x1047080000, 32, 0x1000, 0xFFC, 0⟩ ] ++
  [ ⟨.pceGlob, 0x1048001000, 1, 0x1000, 0x03C, 0⟩, ⟨.pceWin, 0x1048002000, 1, 0x1000, 0x0FC, 0⟩,
    ⟨.pceFn, 0x1048080000, 16, 0x1000, 0xFFC, 0⟩,
    ⟨.gpioBank, 0x1049001000, 6, 0x1000, 0x01C, 0⟩, ⟨.gpioLine, 0x1049007000, 1, 0x1000, 0x7FC, 0⟩,
    ⟨.timer, 0x1049010000, 1, 0x1000, 0xFFC, 0⟩, ⟨.timerHi, 0x1049011000, 1, 0x1000, 0xFFC, 1⟩, ⟨.wdog, 0x1049040000, 64, 0x1000, 0x01C, 0⟩,
    ⟨.pcrDom, 0x104A001000, 1, 0x1000, 0x07C, 0⟩, ⟨.pcrLvl, 0x104A002000, 1, 0x1000, 0x03C, 0⟩,
    ⟨.pcrWake, 0x104A003000, 1, 0x1000, 0x01C, 0⟩, ⟨.pcrRst, 0x104A004000, 1, 0x1000, 0x01C, 0⟩ ] ++
  [ ⟨.row, 0x104B001000, 1, 0x1000, 0x01C, 0⟩, ⟨.hist, 0x104B002000, 8, 0x1000, 0x0FC, 0⟩,
    ⟨.cnt, 0x104B100000, 75, 0x1000, 0x0FC, 0⟩, ⟨.smp, 0x104B200000, 32, 0x1000, 0x7FC, 0⟩,
    ⟨.shiGlob, 0x104D001000, 1, 0x1000, 0x07C, 0⟩, ⟨.shiQ, 0x104D010000, 16, 0x1000, 0xFFC, 0⟩,
    ⟨.dbt, 0x104C001000, 1, 0x1000, 0x01C, 0⟩, ⟨.dbtSink, 0x104C002000, 1, 0x1000, 0x03C, 0⟩,
    ⟨.dbtCtx, 0x104C003000, 1, 0x1000, 0x01C, 0⟩, ⟨.dbtCore, 0x104C010000, 32, 0x1000, 0x1FC, 0⟩,
    ⟨.mbx, 0x1080000000, 69, 0x1000, 0x3FC, 0⟩ ]

/-- A page as an address finds it. -/
structure PageRef where
  kind : PageKind
  unit : Nat
  base : Nat
  mask : Nat
deriving DecidableEq, Repr

/-- The page of a run that holds a physical address. -/
def PageRun.find (r : PageRun) (pa : Nat) : Option PageRef :=
  let i := (pa - r.base) / r.stride
  if r.base ≤ pa ∧ i < r.count ∧ (pa - r.base) % r.stride < 0x1000 then
    some ⟨r.kind, r.first + i, r.base + i * r.stride, r.mask⟩
  else none

/-- The page that holds a physical address (R15). -/
def pageAt (pa : Nat) : Option PageRef := pageRuns.findSome? (fun r => r.find pa)

/-- Access codes (R10). -/
inductive AccCode where
  | rw | ro | wo | w1s | wsq
deriving DecidableEq, Repr

/-- A run of registers of a page: first offset, number, stride, access, guard, reset, the bits a write can set. -/
structure RegRow where
  lo : Nat
  n : Nat
  stride : Nat
  acc : AccCode
  guard : Bool
  reset : Nat := 0
  mask : Nat := 0xFFFFFFFF
deriving DecidableEq, Repr

/-- Short forms for the rows. -/
def rRW (lo : Nat) (mask : Nat) (reset : Nat := 0) (n : Nat := 1) (stride : Nat := 4) : RegRow :=
  ⟨lo, n, stride, .rw, false, reset, mask⟩
def gRW (lo : Nat) (mask : Nat) (reset : Nat := 0) (n : Nat := 1) (stride : Nat := 4) : RegRow :=
  ⟨lo, n, stride, .rw, true, reset, mask⟩
def rRO (lo : Nat) (reset : Nat := 0) (n : Nat := 1) (stride : Nat := 4) : RegRow := ⟨lo, n, stride, .ro, false, reset, 0⟩
def gRO (lo : Nat) (reset : Nat := 0) (n : Nat := 1) (stride : Nat := 4) : RegRow := ⟨lo, n, stride, .ro, true, reset, 0⟩
def rWO (lo : Nat) (n : Nat := 1) : RegRow := ⟨lo, n, 4, .wo, false, 0, 0⟩
def gWO (lo : Nat) (n : Nat := 1) : RegRow := ⟨lo, n, 4, .wo, true, 0, 0⟩
def rEvr (lo : Nat) (n : Nat := 1) (stride : Nat := 4) : RegRow := ⟨lo, n, stride, .wsq, false, 0, 0⟩
def gEvr (lo : Nat) (n : Nat := 1) (stride : Nat := 4) : RegRow := ⟨lo, n, stride, .wsq, true, 0, 0⟩

/-- The header of every instance page (R319). -/
def instHeader : List RegRow := [rRO 0x000, rRO 0x004, rEvr 0x008, rRO 0x00C, rRO 0x010, rRO 0x014, rRO 0x018]

/-- The registers of `n` timer channels (R382). -/
def timerRows (n : Nat) : List RegRow :=
  [gRW 0x00 0xF0FFF800 0 n 0x40, gRW 0x04 0xFFFFFFFF 0 n 0x40, gRW 0x08 0xFFFFFFFF 0 n 0x40,
   gRW 0x0C 0xFFFFFFFF 0x3E8 n 0x40, gRW 0x10 0xFFFFFFFF 0 n 0x40, gRO 0x14 0 n 0x40, gRO 0x18 0 n 0x40,
   gEvr 0x1C n 0x40]

/-- The registers of each kind of page, as the maps of the chapters give them. -/
def rowsOf (k : PageKind) : List RegRow :=
  match k with
  | .common => [rRO 0x000, rRO 0x004, rRO 0x008, gEvr 0x00C, gRO 0x010]
  | .core => [gRO 0x000 0 32, gRO 0x080 0x20100840, rRO 0x084, gEvr 0x088, gRO 0x08C]
  | .lockup => [gEvr 0x000, gRO 0x004, gRO 0x008, gRO 0x00C, gRO 0x010 0 4]
  | .patternPage => [gEvr 0x000, gRO 0x004, gRO 0x010 0 4]
  | .cacheInt => [gEvr 0x000, gEvr 0x004, gRO 0x008, gRO 0x00C, gRO 0x010]
  | .ertRec => [rRO 0x000 0x06000500, gEvr 0x004, gRO 0x008, gEvr 0x00C, gRO 0x010]
  | .ertRoute => [rRW 0x000 0xFFE003FF 0 256 8, rEvr 0x004 256 8]
  | .ertCopy => [gRW 0x000 0xFFE003FF 0 256 8, gEvr 0x004 256 8]
  | .ertBell => [rRW 0x000 0xFFFFFFFF 0 16, rRO 0x040 0 16]
  | .dmcCtl => [rRO 0x000, rRO 0x004, rRO 0x008, rRO 0x00C]
  | .dmcCh => [gEvr 0x000 6, gRO 0x018, gRO 0x01C, gRO 0x020, gRO 0x024 0xFFFFFFFF, gRO 0x028, gRO 0x02C,
      gRW 0x030 0xC0003FFF, gRO 0x034]
  | .fabDir => [rRO 0x000 0x0D100040, gRO 0x004, gEvr 0x008, gRO 0x00C, gEvr 0x010, gRO 0x014, gRO 0x018, gRO 0x01C]
  | .fabMem => [gEvr 0x000 16, gEvr 0x040 8, gRO 0x060, gRO 0x064, gRO 0x068]
  | .eswGlob => [rRO 0x000, gRW 0x004 0xFFFFFFFF, gRW 0x008 0xFFFFFFFF 0 8, gEvr 0x028, gEvr 0x02C, gEvr 0x030,
      gRO 0x034, gRO 0x038]
  | .eswPort => [gRW 0x000 0xFFFFFFFF, gRO 0x004, gEvr 0x008 6]
  | .eswTd => [gRO 0x000, gWO 0x004, gRW 0x008 0xFFFFFFFF]
  | .hostQ => instHeader ++ [rRW 0x020 0xFFFFFFC0, rRW 0x024 0xFF, rRW 0x028 0x8000000F, rRW 0x02C 0xFFF, rRO 0x030,
      rRW 0x034 0xFFFFFFC0, rRW 0x038 0xFF, rRW 0x03C 0x80FF000F, rRW 0x040 0xFFF, rRO 0x044, rRW 0x048 0xFFFFFFFF,
      rRO 0x04C]
  | .can => [gRW 0x000 0xFFFFFFFF, gRW 0x004 0xFFFFFFFF 0x3E0F0F01, gRW 0x008 0xFFFFFFFF 0x1E070700,
      gRW 0x00C 0xFFFFFFFF 0x1C090900, gRW 0x010 0x800000FF, gRO 0x014, gRW 0x018 0x3F 0x30, gRO 0x01C, gWO 0x020,
      ⟨0x024, 1, 4, .w1s, true, 0, 0⟩, gWO 0x028, gRO 0x02C, gRO 0x030, gRO 0x034, gEvr 0x038 4,
      gRW 0x100 0x3F 0 32, gRW 0x800 0xFFFFFFFF 0 512]
  | .bus => [gRW 0x000 0xE0FFFFFF, gRO 0x004, gRO 0x008, gWO 0x00C, gEvr 0x010, gEvr 0x014, gRW 0x018 0xFFFF,
      gRW 0x040 0xFFFFFFFF 0 48]
  | .canShare => instHeader ++ [rRW 0x020 0x80000000, rRW 0x024 0x3F 0x20, rRO 0x028, rWO 0x02C,
      ⟨0x030, 1, 4, .w1s, false, 0, 0⟩, rWO 0x034, rRO 0x038, rRO 0x03C, rRW 0x040 0x3F 0 8, rEvr 0x060,
      rRW 0x400 0xFFFFFFFF 0 768]
  | .canRam => [gRW 0x000 0xFFFFFFFF 0 1024]
  | .gwyGlob => [gRO 0x000, gRW 0x004 0xFFFFFFFF, gRW 0x008 0xFFFFFFFF 0 8, gEvr 0x028 4]
  | .gwyQ => instHeader ++ [rRW 0x020 0xFFFFFFC0, rRW 0x024 0xFF, rRW 0x028 0x8000000F, rRW 0x02C 0xFFF, rRO 0x030,
      rRW 0x034 0xFFFFFFC0, rRW 0x038 0xFF, rRW 0x03C 0x80FF000F, rRW 0x040 0xFFF, rRO 0x044, rRW 0x048 0xFFFFFFFF,
      rRO 0x04C]
  | .dmaGlob => [rRO 0x000 0x00200004, gEvr 0x004]
  | .iot => [rRO 0x000 0x01000400, gEvr 0x004, gRO 0x008, gRO 0x00C, gRO 0x010, gRO 0x014]
  | .dmaSet => instHeader ++ [rRW 0x020 0xFFFFFFE0 0 4 32, rRW 0x024 0xFF 0 4 32, rRW 0x028 0x8000000F 0 4 32,
      rRW 0x02C 0xFFF 0 4 32, rRO 0x030 0 4 32]
  | .pceGlob => [gRO 0x000, gRO 0x004, gEvr 0x008, gEvr 0x00C, gRW 0x010 0xFFFFFFFD, gRW 0x014 0xFFFFFFFF]
  | .pceWin => [gRW 0x000 0x1FFFFF 0 16 16, gRW 0x004 0xF000003F 0 16 16, gRW 0x008 0xFFFF0000 0 16 16,
      gRW 0x00C 0xFFFFFFFF 0 16 16]
  | .pceFn => instHeader ++ [rRW 0x020 0xFFFF0000, rRW 0x024 0xFF, rWO 0x028, rRO 0x02C, rRO 0x030]
  | .gpioBank => [gRO 0x000, gRW 0x004 0xFFFFFFFF, gWO 0x008, gWO 0x00C, gRW 0x010 0xFFFFFFFF, gRO 0x014]
  | .gpioLine => [gRW 0x000 0x77 0 192 8, gEvr 0x004 192 8]
  | .timer => timerRows 64
  | .timerHi => timerRows 32
  | .wdog => [rWO 0x000, rRO 0x004, rEvr 0x008, rRO 0x00C, rRO 0x010]
  | .pcrDom => [gRO 0x000, gRO 0x004, gEvr 0x008, gRO 0x00C, gRW 0x020 0xFF03 0 24]
  | .pcrLvl => [gRO 0x000 0x66666666, gRO 0x004, gRO 0x008, gRO 0x00C, gRO 0x010, gRO 0x014, gRO 0x018, gEvr 0x01C,
      gRO 0x020, gEvr 0x024, gRO 0x028]
  | .pcrWake => [gRO 0x000, gEvr 0x004, gRW 0x008 0xFF, gRO 0x00C, gRW 0x010 0xFFFFFFFF]
  | .pcrRst => [gRO 0x000 0x00400000, gRO 0x004, gRO 0x008, gRO 0x00C]
  | .row => [rRO 0x000 0x4B310080, gRW 0x004 0xFFFFF001, gRW 0x008 0xFF, gRO 0x00C, gRO 0x010, gRO 0x014, gEvr 0x018]
  | .hist => [gRW 0x000 0xCFF003FF, gRW 0x004 0xFFFFFFFF, gEvr 0x008, gRW 0x00C 0xFFFFFFFF, gRO 0x010, gWO 0x014,
      gRO 0x080 0 32]
  | .cnt => [rRO 0x000, rRW 0x004 0x3F000001, rEvr 0x008, rRW 0x040 0xFFF 0 16, rRO 0x080 0 32]
  | .smp => [rRW 0x000 0xBF01FFFF, rRO 0x004, rWO 0x008, rRO 0x00C, rRO 0x400 0 256]
  | .shiGlob => [rRO 0x000, gEvr 0x004, rRO 0x008, rRO 0x00C, gWO 0x010, gRW 0x014 0x3FF, gRW 0x018 0xFFFFFFFF, gWO 0x01C,
      rRO 0x020 0 24]
  | .shiQ => [gRW 0x000 0xFFFFFFFF, gWO 0x004, gRO 0x008, gEvr 0x00C, gRO 0x010, gRW 0x014 0xFFFFFFFF 0 11,
      gRW 0x400 0xFFFFFFFF 0 256, gRO 0x800 0 256]
  | .dbt => [rRO 0x000, rEvr 0x004, gRO 0x008, gRO 0x00C]
  | .dbtSink => [gRW 0x000 0xFFFF0007 0x03E80000, gRO 0x004, gRO 0x008, gRO 0x00C, gRO 0x010, gRW 0x014 0x1FFFF,
      gEvr 0x018, gRO 0x01C, gRW 0x020 0x80000033]
  | .dbtCtx => [rRW 0x000 0x03FF03FF, rRW 0x004 0xFFFFFFFF, rRW 0x008 0xF, rRO 0x00C]
  | .dbtCore => [gRO 0x000, gRW 0x040 0xFFFFFFFC 0 8 16, gRW 0x044 0xF 0 8 16, gRW 0x048 0x1F0103 0 8 16,
      gRW 0x100 0xFFFFFFFC 0 4 32, gRW 0x104 0xF 0 4 32, gRW 0x108 0xFFFFFFFC 0 4 32, gRW 0x10C 0xF 0 4 32,
      gRW 0x110 0x1F0103 0 4 32]
  | .mbx => [rRW 0x000 0xFFFFFFFF 0 64, rRO 0x100 0 64, rRO 0x200 0 64, rWO 0x300, rRO 0x304, rEvr 0x308, rRO 0x30C]

/-- Does a row hold an offset. -/
def RegRow.has (r : RegRow) (o : Nat) : Bool :=
  decide (r.lo ≤ o ∧ (o - r.lo) / r.stride < r.n) && decide ((o - r.lo) % r.stride = 0)

/-- The register at a masked offset of a page (R25, R26): none where the offset holds no register. -/
def regRow (k : PageKind) (off : Nat) : Option RegRow := (rowsOf k).find? (fun r => r.has off)

/-- The route sources whose every signal is copied to the harbourmaster: fixed (R254, Route F). -/
def srcFixed (n : Nat) : Bool :=
  (decide (n < 64) && decide (n % 8 < 3)) || n == 64 || n == 65 || n == 128 || n == 1120

/-- Sources of Route C of R254: routable and copied. -/
def srcCopied (n : Nat) : Bool :=
  (decide (n < 64) && decide (3 ≤ n % 8 ∧ n % 8 < 6)) ||
  (decide (80 ≤ n ∧ n < 128) && ((n - 80) % 6 == 0 || (n - 80) % 6 == 1 || (n - 80) % 6 == 5)) ||
  decide (129 ≤ n ∧ n ≤ 154) || n == 284 || n == 624 || n == 625 || n == 768 || n == 769 || n == 816 || n == 817 ||
  n == 1121 || n == 1122 || n == 1123 || n == 1153 || n == 1184

/-- Numbers that never assert: their entry reads zero and ignores writes (R253, R254). -/
def srcNever (n : Nat) : Bool :=
  (decide (n < 64) && decide (6 ≤ n % 8)) || decide (66 ≤ n ∧ n ≤ 79) || decide (155 ≤ n ∧ n ≤ 159) ||
  decide (285 ≤ n ∧ n ≤ 287) || n == 558 || n == 559 || decide (628 ≤ n ∧ n ≤ 631) || decide (696 ≤ n ∧ n ≤ 703) ||
  decide (770 ≤ n ∧ n ≤ 783) || decide (818 ≤ n ∧ n ≤ 831) || decide (1124 ≤ n ∧ n ≤ 1135) ||
  decide (1145 ≤ n ∧ n ≤ 1151) || decide (1154 ≤ n ∧ n ≤ 1159) || decide (1186 ≤ n ∧ n ≤ 1191) ||
  decide (1194 ≤ n ∧ n ≤ 1215) || decide (1226 ≤ n ∧ n ≤ 1279)

/-- The reset value of a route entry's CFG (R256): HM and FIX per source, a berth copy's OWNER is its berth (R270). -/
def routeReset (entry : Nat) : Nat :=
  if entry < 1536 then
    b2n (srcFixed entry || srcCopied entry) * 2 ^ 20 + b2n (srcFixed entry) * 2 ^ 19
  else (entry - 1536) / 16 * 2 ^ 10

/-- What a register that nothing has written reads as: its reset value (R11). -/
def regReset (pa : Nat) : W32 :=
  match pageAt pa with
  | none => 0
  | some p =>
    let off := pa - p.base
    match p.kind with
    | .ertRoute => if off % 8 = 0 then BitVec.ofNat 32 (routeReset (256 * p.unit + off / 8)) else 0
    | .ertCopy => if off % 8 = 0 then BitVec.ofNat 32 (routeReset (1536 + 256 * p.unit + off / 8)) else 0
    | k =>
      match regRow k off with
      | some r => BitVec.ofNat 32 r.reset
      | none => 0

end Sys2Proof.Machine
end

