-- ==== Sys2Proof/Config.lean ====
section
/-! DEFINITION. What one part fixes (the ZV940 at revision B0, R1 to R4) and the free values: uninterpreted constants
without a body, for values the spec leaves open (log 5) and for the cryptographic standards the spec names but does not
restate (log 7). -/

namespace Sys2Proof.Config

/-- A fresh open value of `w` bits: the `n`-th one drawn (State.free counts them). Log 5. -/
opaque freeBits (w : Nat) (n : Nat) : BitVec w

/-- A fresh open yes or no. Log 5. -/
opaque freeBool (n : Nat) : Bool

/-- A fresh open byte string of length `len`. Log 5. -/
opaque freeBytes (len : Nat) (n : Nat) : List Byte

/-- AES-256-GCM: key, IV, associated data, plaintext; ciphertext and tag. Log 7. -/
opaque aesGcmSeal (key iv aad pt : List Byte) : List Byte × List Byte

/-- AES-256-GCM: key, IV, associated data, ciphertext; plaintext and tag. Log 7. -/
opaque aesGcmOpen (key iv aad ct : List Byte) : List Byte × List Byte

/-- AES-256-CTR: key, initial counter block, input. Log 7. -/
opaque aesCtr (key ctr input : List Byte) : List Byte

/-- AES-256-CMAC. Log 7. -/
opaque aesCmac (key input : List Byte) : List Byte

/-- The hashes of R441 by service code. Log 7. -/
opaque hash (service : Nat) (input : List Byte) : List Byte

/-- HMAC-SHA-256. Log 7. -/
opaque hmacSha256 (key input : List Byte) : List Byte

/-- ECDSA over P-256 or P-384: curve bits, key, digest, the `n`-th nonce. Log 7. -/
opaque ecdsaSign (curve : Nat) (key digest : List Byte) (n : Nat) : List Byte

/-- ECDSA verification. Log 7. -/
opaque ecdsaVerify (curve : Nat) (key digest sig : List Byte) : Bool

/-- ML-DSA-65 verification. Log 7. -/
opaque mlDsaVerify (key msg sig : List Byte) : Bool

/-- The public key of an EC private key: curve bits, key. Log 7. -/
opaque ecPublic (curve : Nat) (key : List Byte) : List Byte

/-- The device unique key and the device identifier, fused per device (R438). Log 5. -/
opaque duk : List Byte
opaque devId : Nat

/-- The hashes of the vendor keys in the security ROM, by index (R446). Log 5. -/
opaque vendorHash (k : Nat) : List Byte

/-- The key derivation of R443: unique key, label, slot type. Log 7. -/
opaque derive (duk label : List Byte) (kind : Nat) : List Byte

/-- The fused trim of the VDD_CORE set points in steps of 5 mV from -20 mV, modulo 9 (R399). Log 5. -/
opaque vddTrim : Nat

/-- A protected frame on the wire (IEEE 802.1AE): SAK, SA words, PN, frame. Log 7. -/
opaque macsecSeal (key sa : BitVec 256) (pn : Nat) (frame : List Byte) : List Byte

/-- The association number and PN of a SecTAG, and the validated frame when the ICV is good. Log 7. -/
opaque macsecTagOf (frame : List Byte) : Nat × Nat
opaque macsecOpen (key sa : BitVec 256) (frame : List Byte) : Option (List Byte)

/-- What the words of the switch tables say whose layout the spec does not state (R347). Log 14. -/
opaque fdbEntry (e : BitVec 256) : Bool × Nat × Nat × Nat
opaque fdbWords (vid mac port : Nat) : BitVec 256
opaque vlanEntry (e : BitVec 256) : Nat × Nat × Bool
opaque gateOpen (e : BitVec 256) (t : Nat) : Bool
opaque qsPolicy (e : BitVec 256) : Nat × Bool × Nat × Nat × Nat
opaque saEntry (e : BitVec 256) : Nat × Nat × Nat × Bool × Nat
opaque saWords (e : BitVec 256) (pn : Nat) : BitVec 256
opaque fdbSlot (vid mac : Nat) : Nat
opaque frerEntry (e : BitVec 256) : Nat × Bool
opaque scWindow (e : BitVec 256) : Nat

/-- IEEE 1722: an ACF message of a frame element, an AVTPDU of a stream (TSCF, stream, sequence number, messages), and what a
received AVTPDU holds: stream, sequence number, messages (none: malformed). Log 7. -/
opaque acfMessage (element : List Byte) : List Byte
opaque avtpdu (tscf : Bool) (stream sq : Nat) (msgs : List (List Byte)) : List Byte
opaque avtpParse (pdu : List Byte) : Nat × Nat × List (Option (List Byte))

/-- What a harbourmaster patch image says, whose layout the spec does not state (R291): the ROM release it applies to and its
version; none where it is no patch. Log 16. -/
opaque patchParse (image : List Byte) : Option (Nat × Nat)

/-- The capacity in bytes that the SFDP table of the board's flash device on an xSPI port reports (R421); 0 where no device answers.
Log 5. -/
opaque flashDevice (port : Nat) : Nat

/-- The balls of a GPIO bank that a manifest of this version gives to a bus function: no record of R429 says which. Log 113. -/
opaque gpioFn (version bank : Nat) : BitVec 32

/-- R235: the micro-address of a word of a vendor pattern, by the pattern's number and the words issued before it: the entry points and the
layout of the vendor area are internal to the vendor image. -/
opaque vendorAddr : Nat → Nat → Nat

end Sys2Proof.Config
end

