-- ==== Sys2Proof/Machine/Alu.lean ====
section
/-! DEFINITION. The integer operations of chapter 04 as pure functions on 36-bit words (R95 to R108): results, and whether
ST.SOV is set. -/

namespace Sys2Proof.Machine

/-- The two-source operations of R95 and R101 (MUL). -/
inductive AluOp where
  | add | sub | and | or | xor | andn | shl | shr | sra | min | max | minu | maxu | mul
deriving DecidableEq, Repr

/-- R95, R101: all 36 bits, wrapping modulo 2^36; shift amounts are bits [5:0] of the second source. -/
def aluResult (o : AluOp) (a b : Word) : Word :=
  let n := bits b 5 0
  match o with
  | .add => a + b
  | .sub => a - b
  | .and => a &&& b
  | .or => a ||| b
  | .xor => a ^^^ b
  | .andn => a &&& ~~~b
  | .shl => a <<< n
  | .shr => a >>> n
  | .sra => a.sshiftRight n
  | .min => if a.toInt ≤ b.toInt then a else b
  | .max => if a.toInt ≤ b.toInt then b else a
  | .minu => if a.toNat ≤ b.toNat then a else b
  | .maxu => if a.toNat ≤ b.toNat then b else a
  | .mul => a * b

/-- R96: RA with bits [35:n] rewritten with copies of bit n - 1. -/
def signExtFrom (n : Nat) (a : Word) : Word := BitVec.ofInt 36 ((a.setWidth n).toInt)

/-- R96: RA with bits [35:n] cleared. -/
def zeroExtFrom (n : Nat) (a : Word) : Word := BitVec.ofNat 36 (a.toNat % 2 ^ n)

/-- R97: a signed number clamped to a range. -/
def clampInt (lo hi x : Int) : Int := if x < lo then lo else if hi < x then hi else x

/-- R97: the range of a SAT operation or saturating store of `w` bits. -/
def satRange (w : Nat) (signed : Bool) : Int × Int :=
  if signed then (-(2 ^ (w - 1) : Nat), (2 ^ (w - 1) : Nat) - 1) else (0, (2 ^ w : Nat) - 1)

/-- R97: the clamped value and whether it differs from the source. -/
def satResult (w : Nat) (signed : Bool) (a : Word) : Word × Bool :=
  let r := satRange w signed
  let y := clampInt r.1 r.2 a.toInt
  (BitVec.ofInt 36 y, decide (y ≠ a.toInt))

/-- R99: the pair result form of an exact result `e`, with the carry out of bit 31 of the low-half addition. -/
def pairForm (e : Int) (carry : Bool) : Word × Word :=
  let v : BitVec 68 := BitVec.ofInt 68 e
  (BitVec.ofNat 36 (bits v 31 0 + b2n carry * 2 ^ 32), BitVec.ofNat 36 (bits v 67 32))

/-- R99: a source pair read as a signed or unsigned 64-bit value; the high four bits of each register are ignored. -/
def pairValue (signed : Bool) (ev od : Word) : Int :=
  let v : BitVec 64 := BitVec.ofNat 64 (bits ev 31 0 + bits od 31 0 * 2 ^ 32)
  if signed then v.toInt else v.toNat

/-- R100, R102: a pair read as a 68-bit signed value: odd [35:0] high, even [31:0] low. -/
def pairWide (ev od : Word) : Int := od.toInt * 2 ^ 32 + (bits ev 31 0 : Nat)

/-- R99: ADD.P, SUB.P, ADD.PU, SUB.PU. -/
def pairAddSub (sub signed : Bool) (ae ao be bo : Word) : Word × Word :=
  let x := pairValue signed ae ao
  let y := pairValue signed be bo
  let al := bits ae 31 0
  let bl := bits be 31 0
  if sub then pairForm (x - y) (decide (2 ^ 32 ≤ al + (2 ^ 32 - 1 - bl) + 1))
  else pairForm (x + y) (decide (2 ^ 32 ≤ al + bl))

/-- R100: SAT.P. -/
def satPair (ev od : Word) : (Word × Word) × Bool :=
  let x := pairWide ev od
  let y := clampInt (-(2 ^ 63 : Nat)) ((2 ^ 63 : Nat) - 1) x
  (pairForm y false, decide (y ≠ x))

/-- R101: MUL.WP and MUL.WPU. -/
def mulWide (signed : Bool) (a b : Word) : Word × Word :=
  let x : BitVec 32 := a.setWidth 32
  let y : BitVec 32 := b.setWidth 32
  if signed then pairForm (x.toInt * y.toInt) false else pairForm (x.toNat * y.toNat : Nat) false

/-- R102: MAC.H and MAC.HU. -/
def macHalf (signed : Bool) (d a b : Word) : Word :=
  let x : BitVec 16 := a.setWidth 16
  let y : BitVec 16 := b.setWidth 16
  if signed then d + BitVec.ofInt 36 (x.toInt * y.toInt) else d + BitVec.ofNat 36 (x.toNat * y.toNat)

/-- R102: MAC.P, with the carry of the addition of the low halves. -/
def macPair (de dod a b : Word) : Word × Word :=
  let x : BitVec 32 := a.setWidth 32
  let y : BitVec 32 := b.setWidth 32
  let p := x.toInt * y.toInt
  let pl := bits (BitVec.ofInt 64 p) 31 0
  pairForm (pairWide de dod + p) (decide (2 ^ 32 ≤ bits de 31 0 + pl))

/-- R103: quotient or remainder, with the special cases that set ST.SOV. -/
def divResult (rem signed : Bool) (a b : Word) : Word × Bool :=
  if signed then
    if b = 0 then
      (if rem then a else if a.toInt < 0 then 0x8_0000_0000#36 else 0x7_FFFF_FFFF#36, true)
    else if a = 0x8_0000_0000#36 ∧ b = 0xF_FFFF_FFFF#36 then
      (if rem then 0 else 0x7_FFFF_FFFF#36, true)
    else (BitVec.ofInt 36 (if rem then a.toInt.tmod b.toInt else a.toInt.tdiv b.toInt), false)
  else if b = 0 then (if rem then a else 0xF_FFFF_FFFF#36, true)
  else (BitVec.ofNat 36 (if rem then a.toNat % b.toNat else a.toNat / b.toNat), false)

/-- R105: the width of a field after truncation at bit 35. -/
def fieldWidth (pos wm1 : Nat) : Nat := Nat.min (wm1 + 1) (36 - pos)

/-- R105: BFX. -/
def bfx (a : Word) (pos wm1 : Nat) : Word := BitVec.ofNat 36 (a.toNat / 2 ^ pos % 2 ^ (wm1 + 1))

/-- R105: BFI. -/
def bfi (d a : Word) (pos wm1 : Nat) : Word := putBits d pos (fieldWidth pos wm1) a.toNat

/-- Zeros from bit `n - 1` downward before the first 1. -/
def clzFrom : Nat → Nat → Nat
  | 0, _ => 0
  | n + 1, x => if x / 2 ^ n % 2 = 1 then 0 else 1 + clzFrom n x

/-- R106: CLZ, CLZ.W (over `w` bits). -/
def clz (w : Nat) (a : Word) : Word := BitVec.ofNat 36 (clzFrom w a.toNat)

/-- R106: CLS. -/
def cls (a : Word) : Word :=
  BitVec.ofNat 36 (clzFrom 35 (if bit a 35 then (~~~a).toNat else a.toNat))

/-- R107: one result byte of BPERM. -/
def bpermByte (a d : Word) (code : Nat) : Nat :=
  if code < 4 then bits a (8 * code + 7) (8 * code)
  else if code < 8 then bits d (8 * (code - 4) + 7) (8 * (code - 4))
  else if code = 9 then 0xFF
  else if 10 ≤ code ∧ code < 14 then (if bit a (8 * (code - 10) + 7) then 0xFF else 0)
  else 0

/-- R107: BPERM; RB[16] fills the guard bits with result bit 31. -/
def bperm (a d b : Word) : Word :=
  let y (i : Nat) : Nat := bpermByte a d (bits b (4 * i + 3) (4 * i)) * 2 ^ (8 * i)
  let v : Word := BitVec.ofNat 36 (y 0 + y 1 + y 2 + y 3)
  if bit b 16 then signExtFrom 32 v else v

/-- The A-unit compare conditions (R108). -/
inductive IntCond where
  | eq | ne | lt | ge | le | gt | ltu | geu | leu | gtu | tst | ntst
deriving DecidableEq, Repr

/-- R108. -/
def intCond (c : IntCond) (a b : Word) : Bool :=
  match c with
  | .eq => decide (a = b)
  | .ne => decide (a ≠ b)
  | .lt => decide (a.toInt < b.toInt)
  | .ge => decide (b.toInt ≤ a.toInt)
  | .le => decide (a.toInt ≤ b.toInt)
  | .gt => decide (b.toInt < a.toInt)
  | .ltu => decide (a.toNat < b.toNat)
  | .geu => decide (b.toNat ≤ a.toNat)
  | .leu => decide (a.toNat ≤ b.toNat)
  | .gtu => decide (b.toNat < a.toNat)
  | .tst => decide (a &&& b ≠ 0)
  | .ntst => decide (a &&& b = 0)

/-- The atomic operations (R130). -/
inductive AmoOp where
  | swap | add | and | or | xor | min | max | minu | maxu | cas
deriving DecidableEq, Repr

/-- R130: the new value of an atomic on `w` bits: old value, RB, and RD as it stood before the bundle. -/
def amoResult {w : Nat} (o : AmoOp) (old b d : BitVec w) : BitVec w :=
  match o with
  | .swap => b
  | .add => old + b
  | .and => old &&& b
  | .or => old ||| b
  | .xor => old ^^^ b
  | .min => if old.toInt ≤ b.toInt then old else b
  | .max => if old.toInt ≤ b.toInt then b else old
  | .minu => if old.toNat ≤ b.toNat then old else b
  | .maxu => if old.toNat ≤ b.toNat then b else old
  | .cas => if old = d then b else old

/-- R142: one CRC bit step, least significant bit first. -/
def crcStepLsb (poly : Nat) : Nat → Nat → Nat
  | 0, c => c
  | n + 1, c => crcStepLsb poly n (if c % 2 = 1 then Nat.xor (c / 2) poly else c / 2)

/-- R142: one CRC bit step, most significant bit first, on a register of `w` bits. -/
def crcStepMsb (w poly : Nat) : Nat → Nat → Nat
  | 0, c => c
  | n + 1, c =>
    let d := c * 2
    crcStepMsb w poly n ((if c / 2 ^ (w - 1) % 2 = 1 then Nat.xor d poly else d) % 2 ^ w)

/-- The CRC instructions (R142). -/
inductive CrcKind where
  | c32 | c16 | c8 | c8h
deriving DecidableEq, Repr

/-- R142: the CRC register after one data byte. -/
def crcByte (k : CrcKind) (crc : Nat) (b : Nat) : Nat :=
  match k with
  | .c32 => crcStepLsb 0x82F63B78 8 (Nat.xor (crc % 2 ^ 32) b)
  | .c16 => crcStepMsb 16 0x1021 8 (Nat.xor (crc % 2 ^ 16) (b * 256))
  | .c8 => crcStepMsb 8 0x1D 8 (Nat.xor (crc % 2 ^ 8) b)
  | .c8h => crcStepMsb 8 0x2F 8 (Nat.xor (crc % 2 ^ 8) b)

/-- CRC-32C of a byte string with the initial value and final inversion of R282 and R431. -/
def crc32c (bs : List Byte) : W32 :=
  ~~~(BitVec.ofNat 32 (bs.foldl (fun c b => crcByte .c32 c b.toNat) 0xFFFFFFFF))

/-- R80: the 64-bit slot of an extended word. -/
def extSlot (a : Word) : W64 := BitVec.ofInt 64 a.toInt

/-- R146: the frame bit of signal bit `k`, for a little-endian signal. -/
def sigPosLe (start k : Nat) : Nat := start + k

/-- R146: the position `n` places after `p` in a big-endian signal. -/
def sigNextBe : Nat → Nat → Nat
  | 0, p => p
  | n + 1, p => sigNextBe n (if p % 8 = 0 then p + 15 else p - 1)

/-- R146: the frame bit of signal bit `k` of a signal of width `w`. -/
def sigPos (be : Bool) (start w k : Nat) : Nat :=
  if be then sigNextBe (w - 1 - k) start else sigPosLe start k

end Sys2Proof.Machine
end

