-- ==== Sys2Proof/Machine/Table.lean ====
section
/-! DEFINITION. Sparse tables: a list of (key, value) pairs, keys strictly rising, no entry equal to what an unlisted key
reads as. Memory, registers, threads, cores, lines and every other sparse thing of State is one of these. -/

namespace Sys2Proof.Machine

/-- A sparse table. `d k` is what the unlisted key `k` reads as. -/
abbrev Tbl (α : Type) := List (Nat × α)

/-- The value at a key. -/
def Tbl.get {α : Type} (d : Nat → α) : Tbl α → Nat → α
  | [], k => d k
  | (a, v) :: r, k => if a = k then v else Tbl.get d r k

/-- The table without a key. -/
def Tbl.del {α : Type} (t : Tbl α) (k : Nat) : Tbl α := t.filter (fun e => e.1 != k)

/-- Insertion at the key's place. -/
def Tbl.ins {α : Type} (k : Nat) (v : α) : Tbl α → Tbl α
  | [] => [(k, v)]
  | (a, w) :: r => if k < a then (k, v) :: (a, w) :: r else (a, w) :: Tbl.ins k v r

/-- A write: writing what an unlisted key reads as removes the entry, so that equal tables are equal lists. -/
def Tbl.set {α : Type} [DecidableEq α] (d : Nat → α) (t : Tbl α) (k : Nat) (v : α) : Tbl α :=
  if v = d k then Tbl.del t k else Tbl.ins k v (Tbl.del t k)

/-- The keys rise strictly from `lo` on. -/
def Tbl.rising {α : Type} : Nat → Tbl α → Bool
  | _, [] => true
  | lo, (a, _) :: r => decide (lo ≤ a) && Tbl.rising (a + 1) r

/-- The canonical form: keys strictly rising, no entry equal to its default. -/
def Tbl.wf {α : Type} [DecidableEq α] (d : Nat → α) (t : Tbl α) : Bool :=
  Tbl.rising 0 t && t.all (fun e => decide (e.2 ≠ d e.1))

end Sys2Proof.Machine
end

