-- ==== Sys2Proof/Machine/State.lean ====
section
/-! DEFINITION. The state of the ZV940, as plain data: every piece of state the chapters of spec/ name, the queue of the
commands that wait, and the machine right after reset. INVENTORY.md's State lists each piece with its rule. -/

namespace Sys2Proof.Machine

/-- Why a step stops with a fault. -/
inductive Fault where
  /-- A command for a unit that the spec says does not exist (R3). No meaning raises it: the operands of a command name the units of
  the largest part, and what the rules say of the absent units of a smaller one is modelled. Safe. -/
  | absentUnit
deriving DecidableEq, Repr

/-- Why a step refuses. -/
inductive Refusal where
  /-- No meaning is written for the command. Safe. -/
  | notModelled (mnemonic : String)
  /-- A vendor-only micro-word, whose effect the spec does not describe (R238, R239, R242). Safe. -/
  | vendorMicroWord
deriving DecidableEq, Repr

/-! ## Threads and cores (chapters 02 to 08) -/

/-- Thread states (R37). -/
inductive ThState where
  | free | run | wait | held | locked
deriving DecidableEq, Repr

/-- The state code of R37. -/
def ThState.code : ThState → Nat
  | .free => 0 | .run => 1 | .wait => 2 | .held => 3 | .locked => 4

/-- A synchronous cause (R151, R152): class, DETAIL, target level 1 S or 2 H, fault level (none for a call), the values
entry writes to XRA and XFA, and the TFI a Stage 2 fault writes (R169). -/
structure Cause where
  cls : Nat
  detail : Nat := 0
  target : Nat
  level : Option Nat
  xra : Word
  xfa : Word
  tfi : Option Word := none
deriving DecidableEq, Repr

/-- An interrupt as the router presents it (R154, R262): the route entry it comes from (an index of R256: the number, or
1536 + 16b + i for a berth copy), its event number, priority and target level. -/
structure Intr where
  entry : Nat
  event : Nat
  prio : Nat
  level : Nat
deriving DecidableEq, Repr

/-- The architectural context of a thread (R36): what a bundle reads as it stood before the bundle (R73). -/
structure Ctx where
  g : Tbl Word := []
  p : Tbl Bool := []
  pc : Word := 0
  st : Word := 0xBD
  sr : Tbl Word := []
  cls : Nat := 0
  ceil : Nat := 0
  wLast : BitVec 8 := 0
  wMask : BitVec 8 := 0
  wPend : BitVec 8 := 0
deriving DecidableEq, Repr

/-- What a bundle gives its core's trace encoder (R469): an atom, the target of an indirect branch or of RFX. -/
inductive TEv where
  | atom (taken : Bool)
  | addr (a : Word)
deriving DecidableEq, Repr

/-- The early launch of a load (R56): the address of the bundle it belongs to, the line it reads, and whether the L1D held the line or its
fill has returned (R57). -/
structure Launch where
  addr : Word
  line : Nat
  back : Bool
deriving DecidableEq, Repr

/-- The bundle a thread executes (R66 to R74): its address, the syllables it holds besides a LIM, as they were fetched, and the payload
of its LIM (none fetched: a bundle of which only the command is known, log 12), how many of them there are, its size in words, the context as it stood before it,
how many of its syllables have executed, whether one of them set ST.SOV (R98), where the thread goes next, its ready
time (R41) so far, the effects that wait for the other syllables (R136, R137, R47, R138), the registers a pattern of the
bundle wrote and its unit (R104, R144), and the fault that its X syllable raises (R74), known at issue; whether
its issue is sampled, what the record will say of it (R489), the global time of the issue, and what
it gives the trace encoder, and the early launch of its load (R57). -/
structure Bundle where
  addr : Word
  code : List W32 := []
  lim : Option Nat := none
  len : Nat
  size : Nat := 1
  old : Ctx
  pos : Nat := 0
  sov : Bool := false
  next : Word
  branch : Bool := false
  ready : Nat := 0
  wake : Bool := false
  sbMark : Nat := 0
  call : Option Cause := none
  rfx : Bool := false
  waitMask : Option (BitVec 8) := none
  issued : Nat := 0
  keep : List Nat := []
  keepUnit : Nat := 0
  xFault : Option Cause := none
  exited : Bool := false
  grant : Bool := false
  sampled : Bool := false
  seen : Nat := 0
  issuedNs : Nat := 0
  tev : List TEv := []
  el : Option Launch := none
deriving DecidableEq, Repr

/-- Load forms (R117). -/
inductive LdKind where
  | b | h | w | x | bu | hu | wu | d
deriving DecidableEq, Repr

/-- Cache maintenance operations (R212). -/
inductive ClKind where
  | clean | flush | inv | zero | pref | prefw
deriving DecidableEq, Repr

/-- What an M-unit syllable asks of memory. -/
inductive MOp where
  | load (k : LdKind) (rd : Nat)
  | loadAcq (ext : Bool) (rd : Nat)
  | loadLink (ext : Bool) (rd : Nat)
  | store (data : List Byte)
  | storeRel (data : List Byte)
  | stc (ext : Bool) (data : List Byte) (rb : Nat)
  | amo (op : AmoOp) (ext : Bool) (rd : Nat) (b d : Word)
  | cl (k : ClKind)
  | iflush
deriving DecidableEq, Repr

/-- Where a TLB entry is held (R180): a core's ITLB or DTLB, a cluster's second-level TLB, the IO TLB, or the micro-TLB of a block (0 DMA,
1 gateway, 2 switch host port, 3 PCIe). -/
inductive TlbLoc where
  | itlb (core : Nat) | dtlb (core : Nat) | l2 (cluster : Nat) | io | micro (block : Nat)
deriving DecidableEq, Repr

/-- A TLB entry (R178): a combined translation of both stages with its permissions. `size` is log2 of its bytes; `asid`
is none for a global entry; `bad` says that its stored parity is wrong (R180). -/
structure TlbEntry where
  loc : TlbLoc
  berth : Nat
  asid : Option Nat
  va : Nat
  ipa : Nat
  pa : Nat
  size : Nat
  ur : Bool
  uw : Bool
  ux : Bool
  pr : Bool
  pw : Bool
  px : Bool
  s2r : Bool
  s2w : Bool
  s2x : Bool
  lvl1 : Nat
  lvl2 : Nat
  bad : Bool := false
deriving DecidableEq, Repr

/-- A piece of an access with its translation (R123): virtual address, physical address, length, and the TLB entry that gave it (R182). -/
structure PPiece where
  va : Nat
  pa : Nat
  len : Nat
  via : Option TlbEntry := none
deriving DecidableEq, Repr

/-- A memory request of a thread: the operation and its effective address, the pieces translated so far (each is translated once, R183),
the bytes of the lower half of a split load once it has been read (R123), and whether the line it waits for has been asked for. -/
structure MReq where
  op : MOp
  va : Word
  found : List PPiece := []
  got : List Byte := []
  asked : Bool := false
deriving DecidableEq, Repr

/-- A TLB maintenance operation on its way (R181, R182). -/
structure Tlbi where
  gtn : Option Nat
  berth : Option Nat
  asid : Option Nat
  withGlobal : Bool
  nonGlobalOnly : Bool := false
  va : Option Nat
  ipa : Option Nat
deriving DecidableEq, Repr

/-- A table walk that a thread waits for (R175): the berth and ASID it walks under, the VA page, and the maintenance operations that arrived
while it was in flight (R182). Walks of one cluster under the same berth and ASID for the same page are one walk. -/
structure Walk where
  gtn : Nat
  berth : Nat
  asid : Nat
  page : Nat
  ops : List Tlbi := []
deriving DecidableEq, Repr

/-- What a thread's memory request waits for (R40): nothing, a table walk (R177), older entries of its store buffer
(R40, R130, R132, R201), the line (R57), the response of a device access (R20, R22), acknowledgements of an IFLUSH (R139), the stores before a TLB maintenance operation (R182), the walk of a pattern's byte, or what else a pattern's word waits for
(R201, R240). -/
inductive MemWait where
  | idle
  | walk (r : MReq) (va : Word)
  | stores (r : MReq)
  | line (r : MReq)
  | device (r : MReq) (pa : Nat) (error : Option Nat) (pcie : Bool)
  | iflushStores (line : Nat)
  | iflushAck (line : Nat)
  | tlbiStores (o : Tlbi)
  | pattern (va : Word) (acc : Acc)
  | word
deriving DecidableEq, Repr

/-- The ordering or synchronising operation a thread waits on (R40). -/
inductive Stall where
  | none | fence | storeRel | syncC | tlbi
deriving DecidableEq, Repr

/-- A thread's link (R125): physical address, width, and whether the delay window of R128 still runs. -/
structure Link where
  pa : Nat
  ext : Bool
  window : Bool
deriving DecidableEq, Repr

/-- The fetch of a thread's next bundle (R36, R47): nothing loaded, waiting for a line or a walk, loaded, failed. -/
inductive Fetch where
  | empty
  | walk
  | line (pa : Nat)
  | loaded
  | failed (c : Cause)
deriving DecidableEq, Repr

/-- The line buffer of a thread (R192): the virtual and physical line addresses, the 64 bytes, and the bytes whose stored parity is wrong
(R203). -/
structure LineBuf where
  va : Nat
  pa : Nat
  bytes : List Byte
  bad : BitVec 64 := 0
deriving DecidableEq, Repr

/-- The resumable and vendor instructions that a pattern runs (R104, R141, R147), and customer patterns (R247). -/
inductive PatKind where
  | div (rd : Nat) (value : Word) (sov : Bool)
  | copy | fill | cmpb
  | crc (k : CrcKind)
  | unpack | pack
  | user (entry : Nat)
deriving DecidableEq, Repr

/-- A pattern in progress (R237, R240): its kind, register fields, micro-address, words issued, scratch registers, MDR,
CNT, and the bytes that the word in progress has moved. -/
structure PatRun where
  kind : PatKind
  rd : Nat := 0
  ra : Nat := 0
  rb : Nat := 0
  maddr : Nat := 0
  issued : Nat := 0
  t : Tbl Word := []
  mdr : Word := 0
  cnt : Nat := 0
  part : Nat := 0
deriving DecidableEq, Repr

/-- A hardware thread (R36 to R39): life-cycle state, the state it was held from, berth, context, values in force until
SYNC.C (R82), lanes whose stored parity is wrong (R79: by register, 0 to 31 general, 32 the predicates, 0x100 + SRN; bit k is lane k), branch history, PBAR barrier, line buffer and fetch, bundle in execution, pending causes, waits, the
cycle in which the last event reached its core's port, whether its wake issue is an interrupt's first bundle, the cycle in which it
entered the wake queue, the early launch for its next bundle (R56), the predicted successor whose line has still to come and the
destinations of the bundle before it (R56), whether the boundary of its last bundle has still to be taken (R155, R159), and ST.ENT as that boundary sees
it, where it differs from ST (R162). -/
structure Thread where
  state : ThState := .free
  memo : ThState := .run
  berth : Nat := 0
  ctx : Ctx := {}
  asid : BitVec 12 := 0
  srNow : Tbl Word := []
  hist : BitVec 12 := 0
  pbar : Bool := false
  buf : Option LineBuf := none
  fetch : Fetch := .empty
  bun : Option Bundle := none
  pend : Option Cause := none
  holdSent : Bool := false
  holdReq : Bool := false
  resetting : Bool := false
  resuming : Bool := false
  readyAt : Nat := 0
  mem : MemWait := .idle
  stall : Stall := .none
  link : Option Link := none
  pat : Option PatRun := none
  tlbis : Nat := 0
  sbOrder : Nat := 0
  ran : Bool := false
  startPl : Nat := 1
  auto : Bool := false
  wakeNext : Bool := false
  par : Tbl (BitVec 4) := []
  wokeAt : Nat := 0
  byIntr : Bool := false
  wqAt : Nat := 0
  bnd : Bool := false
  bndEnt : Option Bool := none
  launch : Option Launch := none
  elWant : Option (Word × List Nat) := none
deriving DecidableEq, Repr

/-- What a store buffer entry holds (R196). -/
inductive SbOp where
  | store | clean | flush | inv | zero | marker
deriving DecidableEq, Repr

/-- A store buffer entry (R196): thread, order among its thread's entries, physical address, bytes, the double-bit
error mark of R199, whether its Clean or Flush is on its way, whether it is the store of an STC whose window runs (R128), its place among
the 32 entries, whether it is the upper half of a split store (R123), the single-bit error mark of R199, and
the TLB entry that its address came from (R182). -/
structure SbEntry where
  gtn : Nat
  order : Nat
  op : SbOp
  pa : Nat
  data : List Byte := []
  dbe : Bool := false
  sent : Bool := false
  stc : Bool := false
  slot : Nat := 0
  upper : Bool := false
  sbe : Bool := false
  via : Option TlbEntry := none
deriving DecidableEq, Repr

/-- A core (R43, R44, R54, R196): CORE_SCHED in force and as last written by each thread, wake queue, round-robin
pointers of the four classes, the classes of the last 64 issue slots (newest first; 4 is an empty slot or a wake issue),
the cycle count, the two-bit counters of the predictor, and the store buffer. -/
structure Core where
  sched : Word := 0x2010_0840
  schedNew : Tbl (Option Word) := []
  schedLast : Word := 0x2010_0840
  wq : List Nat := []
  rr : Tbl Nat := []
  hist : List Nat := []
  cycle : Nat := 0
  pred : Tbl (BitVec 2) := []
  sb : List SbEntry := []
deriving DecidableEq, Repr

/-- An IO context (R184). -/
structure IoCtx where
  berth : Nat := 0
  s1en : Bool := false
  s1base : BitVec 31 := 0
  asid : BitVec 12 := 0
deriving DecidableEq, Repr

/-! ## Coherence (chapter 09) -/

/-- The states an agent holds a line in (R220). -/
inductive LSt where
  | I | S | E | O | M
  | ISd | IMad | IMa | SMad | SMa | OMa | MIa | OIa | EIa | SIa | IIa
deriving DecidableEq, Repr

/-- The messages of R218, and the two forms of an Inv's acknowledgement target. -/
inductive MsgKind where
  | getS | getM | getMZ | rdOnce | clean | flush
  | putS | putE | putM | putO | unblock
  | fwdGetS | fwdRdOnce | fwdGetM | fwdGetMZ | inv | recall | downgrade
  | data | grant | invAck | recallData | putAck | putStale | done
deriving DecidableEq, Repr

/-- A message in flight (R217, R218): kind, the agent it goes to or comes from, the line (address / 64), the requesting
agent it names, the count n, the granted state, for an Inv or Inv-Ack whether the target is the home, and the old bytes
of a flash line that it carries (R211). -/
structure Msg where
  kind : MsgKind
  agent : Nat
  line : Nat
  req : Nat := 0
  n : Nat := 0
  grant : LSt := .S
  toHome : Bool := false
  old : List Byte := []
deriving DecidableEq, Repr

/-- A line as an agent holds it (R220, R221): state, the n of Data or Grant once received, acknowledgements counted,
whether the read keeps no copy (RdOnce), and whether the access that its GetM was sent for is still to be performed (R222). -/
structure ALine where
  st : LSt := .I
  n : Option Nat := none
  acks : Nat := 0
  once : Bool := false
  due : Bool := false
deriving DecidableEq, Repr

/-- Home record states (R223). -/
inductive HSt where
  | I | S | X | O
deriving DecidableEq, Repr

/-- A request at a home: kind and requester. -/
structure HReq where
  kind : MsgKind
  agent : Nat
deriving DecidableEq, Repr

/-- A home's transient states (R223): BM and BW carry the request (BM also the record's state when the request was taken, R226), BR the request it works for (none: the recall of a
directory entry for a request to another line, R216). -/
inductive HBusy where
  | idle
  | bm (q : HReq) (st : HSt)
  | bw (q : HReq)
  | br (q : Option HReq) (forLine : Nat)
  | full (q : HReq)
deriving DecidableEq, Repr

/-- The directory entry of a line (R216, R223, R226): record, busy state, busy queue, answers still owed in BR, and the
time stamp of its last use. -/
structure Home where
  st : HSt := .I
  owner : Nat := 0
  sh : BitVec 13 := 0
  busy : HBusy := .idle
  queue : List HReq := []
  owed : Nat := 0
  stamp : Nat := 0
deriving DecidableEq, Repr

/-- A line in its SLC slice (R195). -/
inductive Slc where
  | absent | clean | dirty
deriving DecidableEq, Repr

/-- A CL.PREF or CL.PREFW (`w`) of a thread whose line is on its way (R214). -/
structure Pref where
  gtn : Nat
  line : Nat
  w : Bool
deriving DecidableEq, Repr

/-- A set of a cache (R189): the line in each way plus 1 (0: none yet), and the replacement bits: those of the tree, or one per way of a
slice of the SLC. A line that has left its cache leaves its way free. -/
structure CSet where
  ways : List Nat := []
  bits : Nat := 0
deriving DecidableEq, Repr

/-- The coherent fabric: agent lines (key agent × 2^34 + line), directory records, messages in flight, SLC lines, lines
present in each L1D (key core × 2^34 + line) and the bytes of each L1I line, dead agents, reclaims in progress (agent, cause, lines poisoned), the use counter of the directory, the sets of the caches (by cache, R189), the bytes
of L1I and L1D lines whose stored parity is wrong (R203), and the bytes of flash lines that L2s and slices hold from before the flash
changed (R211), and the prefetches under way (R214). -/
structure Coh where
  agents : Tbl ALine := []
  homes : Tbl Home := []
  msgs : List Msg := []
  slc : Tbl Slc := []
  l1d : Tbl Bool := []
  l1i : Tbl (List Byte) := []
  dead : BitVec 13 := 0
  reclaim : List (Nat × Nat × Nat) := []
  stamp : Nat := 0
  sets : Tbl CSet := []
  l1iBad : Tbl (BitVec 64) := []
  l1dBad : Tbl (BitVec 64) := []
  flashOld : Tbl (List Byte) := []
  prefs : List Pref := []
deriving DecidableEq, Repr

/-! ## Pattern store (chapter 10) -/

/-- The pattern store (R235, R246 to R251): the verified words by micro-address, vendor below 0x1800 and customer from it (an unlisted word
has NMODE complete and every other field zero), and the verified entries; what a core holds instead where its word or entry was rewritten
from a copy that had changed, the words and entries marked bad, and those with a single-bit error, per core (key core × 2^14 +
micro-address, entries from 0x2000); how far each core is loaded (0 nothing, 1 the vendor area, 2 all areas), and the image versions. -/
structure PatStore where
  words : Tbl (BitVec 96) := []
  entries : Tbl (BitVec 96) := []
  own : Tbl (Option (BitVec 96)) := []
  bad : Tbl Bool := []
  loaded : Tbl Nat := []
  vendorVer : BitVec 16 := 0
  custVer : BitVec 16 := 0
  sbe : Tbl Bool := []
deriving DecidableEq, Repr

/-! ## Power domains (R395) -/

/-- The states of a power domain (R395). -/
inductive Dom where
  | off | on | gated | retained
deriving DecidableEq, Repr

/-! ## Error log (R304) -/

/-- An entry of the harbourmaster's error log (R304). -/
structure LogEntry where
  seq : BitVec 16
  source : Nat
  kind : Nat
  time : Nat
  gtn : Option Nat
  berth : Nat
  addr : Nat
  w6 : W32
  w7 : W32
deriving DecidableEq, Repr

/-! ## The harbourmaster (chapters 12 to 14, 19) -/

/-- An object a command holds (R287, R296, R401). -/
inductive Obj where
  | berth (b : Nat)
  | thread (t : Nat)
  | inst (i : Nat)
  | region (b ipa pages : Nat)
  | cluster (n : Nat)
deriving DecidableEq, Repr

/-- A command answered ACCEPTED (R285): mailbox, opcode, tag, berth, payload, the objects it holds, and for MAN_COMMIT the
bytes that were staged; `quiet` when its completion is withheld (R288). -/
structure Accepted where
  mbx : Nat
  opcode : Nat
  tag : W32
  berth : Nat
  pay : List W32
  objs : List Obj := []
  data : List Byte := []
  quiet : Bool := false
deriving DecidableEq, Repr

/-- An accepted command whose work has ended: its status word and results wait for the completion buffer (R285). -/
structure Ended where
  acc : Accepted
  status : W32
  words : List W32
deriving DecidableEq, Repr

/-- A mailbox (R279 to R285): state 0 IDLE, 1 QUEUED, 2 BUSY, 3 DONE; the request of the store that wrote GO; the last
valid request with its answer; the tag of the completion in the buffer; the address a
frame came from and its port; the instant of GO. -/
structure Mbox where
  st : Nat := 0
  go : Option Req := none
  lastTag : W32 := 0
  lastH : W32 := 0
  lastP : W32 := 0
  lastPay : List W32 := []
  lastRsp : List W32 := []
  cpl : Option W32 := none
  dst : List Byte := []
  port : Nat := 0
  goAt : Nat := 0
deriving DecidableEq, Repr

/-- A range of pages a berth maps (R302, R303): IPA and PA page numbers, count, flags as MEM_MAP q3; `dev` marks the device
pages the harbourmaster maps itself. -/
structure Mapping where
  ipa : Nat
  pa : Nat
  n : Nat
  flags : Nat
  dev : Bool := false
deriving DecidableEq, Repr

/-- The states of a berth (R312). -/
inductive BerthSt where
  | absent | ready | resetting | destroying
deriving DecidableEq, Repr

/-- A berth (R310, R312, R316): what BERTH_CREATE kept, its stage-2 top table, its mappings, its watchdog (bounds in µs,
elapsed time in ns), and a reset's AUTOSTART. -/
structure Berth where
  st : BerthSt := .absent
  strict : Bool := false
  ceil : Nat := 0
  xvbH : Word := 0
  xspH : Word := 0
  s2Base : Nat := 0
  s2En : Bool := false
  maps : List Mapping := []
  wdEn : Bool := false
  wdAct : Bool := false
  wdUb : Nat := 0
  wdLb : Nat := 0
  wdArmed : Bool := false
  wdWaive : Bool := false
  elapsed : Nat := 0
  warned : Bool := false
  auto : Bool := false
  quiesced : Bool := false
deriving DecidableEq, Repr

/-- A virtual instance (R300, R318 to R322), by type × 256 + index: owner, SUB, IO context, its page in the berth, and the
reset in progress: mode (true FROG), the ns left of a DRAIN's TIMEOUT, whether the instance is destroyed at its end, and
whether BERTH_INST is not signalled then, because a BERTH reset began it (R314). -/
structure Inst where
  on : Bool := false
  berth : Nat := 0
  sub : Nat := 0
  ctx : Nat := 0xFF
  ipa : Nat := 0
  rst : Bool := false
  frog : Bool := false
  tout : Bool := false
  left : Nat := 0
  destroy : Bool := false
  hush : Bool := false
deriving DecidableEq, Repr

/-- A thread entry of a manifest (R429). -/
structure ManThread where
  gtn : Nat
  pl : Nat
  cls : Nat
  start : Word
  xvbH : Word
  xspH : Word
deriving DecidableEq, Repr

/-- An image reference of a manifest (R429). -/
structure ImgRef where
  port : Nat
  off : Nat
  len : Nat
deriving DecidableEq, Repr

/-- A port entry of the ETH record (R429). -/
structure ManPort where
  port : Nat
  node : Nat
  count : Nat
  burst : Nat
  cfg : W32
  timer : Nat
deriving DecidableEq, Repr

/-- A manifest as its records give it (R427 to R429); a record that is absent leaves the defaults. -/
structure Manifest where
  safety : Bool := false
  cert : Bool := false
  version : Nat := 0
  order : Nat := 0xFFFF
  flash : W32 := 0
  fullDigest : List Byte := []
  patch : Option ImgRef := none
  vpat : Option ImgRef := none
  icode : List (ImgRef × Nat × List Byte) := []
  ewUb : Nat := 0
  ewLb : Nat := 0
  ithreads : List ManThread := []
  ican : List (Nat × W32) := []
  ilin : List (Nat × W32) := []
  iroute : List (Nat × Nat × Nat × Nat × Nat) := []
  pmicRating : Nat := 0
  pmicAddr : Nat := 0
  pmicWrites : List W32 := []
  dramRate : Nat := 0
  dramRanks : Nat := 1
  dramGib : Nat := 0
  dramWck : Nat := 0
  prot : Nat := 0
  scrubIvl : Nat := 16
  lapDram : Nat := 0
  lapL2 : Nat := 0
  lapSlc : Nat := 0
  lapQuay : Nat := 0
  paired : Nat := 0
  domCfg : List (Nat × Nat) := []
  cpat : Option ImgRef := none
  poolPage : Nat := 0
  poolPages : Nat := 0
  shared : List (Nat × Nat) := []
  lists : List (Nat × List Nat) := []
  b0Strict : Bool := false
  b0S2 : Bool := false
  b0Act : Bool := false
  b0Ub : Nat := 0
  b0Lb : Nat := 0
  b0Maps : List Mapping := []
  b0Threads : List ManThread := []
  b0XvbH : Word := 0
  b0XspH : Word := 0
  host : List (Nat × Nat) := [(1, 1), (2, 1), (3, 1), (4, 1)]
  mgmtVid : Nat := 0
  mgmtPorts : Nat := 0
  mgmtMac : List Byte := []
  llq : Nat := 0
  ptpDom : List Nat := []
  bypass : List Nat := []
  gwSets : List Nat := []
  ageing : Nat := 300
  ports : List ManPort := []
  pcie : Bool := false
  pcieBif : Bool := false
  pcieRole0 : Nat := 0
  pcieRole1 : Nat := 0
  pcieBar0 : Nat := 0
  pcieRate : Nat := 0
  canRanges : List (Nat × List (Nat × Nat)) := []
  budgetLimit : Nat := 950
  allowance : Nat := 100
  budgetStart : Nat := 750
  wakeAddr : Nat := 0
  wakeEn : Bool := false
  wakePorts : Nat := 0
deriving DecidableEq, Repr

/-- The harbourmaster: mailboxes; READY, Held, commit and full service; the manifest in force, the staged bytes; accepted
commands, ended commands; berths, instances; pages of the stage-2 table pool in use; the times of paired mismatches' resets; frames
sent on the management VLAN; the patch level; start-up: 0 not begun, 1 begun, the early segment accepted, the island running, whether
it follows a WARM reset or S3 (DRAM keeps its contents), its start, DRAM trained, and the staged manifest that start-up continues
from in place of the flash (R436). -/
structure Harbour where
  mbx : Tbl Mbox := []
  ready : Bool := false
  held : Bool := false
  heldCode : Nat := 0
  committed : Bool := false
  full : Bool := false
  man : Manifest := {}
  staged : Tbl Byte := []
  stagedAny : Bool := false
  lastFail : Nat := 0
  manDigest : List Byte := []
  acc : List Accepted := []
  ended : List Ended := []
  berths : Tbl Berth := []
  insts : Tbl Inst := []
  pool : List (Nat × Nat) := []
  startPc : Tbl Word := []
  outPair : Tbl Bool := []
  pairAt : Tbl Nat := []
  mgmtOut : List (Nat × List Byte × List Byte) := []
  patch : Nat := 0
  boot : Nat := 0
  early : Bool := false
  island : Bool := false
  warm : Bool := false
  bootAt : Nat := 0
  trained : Bool := false
  image : Option (List Byte) := none
deriving DecidableEq, Repr

/-! ## Power (chapter 18) -/

/-- A level transition of a cluster (R401): the level it goes to, whether its idle PLL is locked, and its voltage step:
0 none needed, 1 waiting to be sent, 2 sent, 3 done, 4 failed twice. `switched` once the clock has switched (lowering). -/
structure LvTrans where
  cluster : Nat
  dest : Nat
  raise : Bool
  pll : Bool := false
  volt : Nat := 0
  switched : Bool := false
deriving DecidableEq, Repr

/-- The device power states (R403) with the entry and the exit of a sleep state k (R405, R406). -/
inductive Sleep where
  | awake
  | entering (k : Nat)
  | asleep (k : Nat)
  | leaving (k : Nat)
deriving DecidableEq, Repr

/-- Power (R399 to R416): requested levels, levels in force, platform ceiling, dip reduction, thermal limit, budget,
allowance and limits of the manifest in 0.1 W, PMIC rating in 0.1 A, VDD_CORE in mV, transitions, the frame on the
voltage-step link (its word and whether it was resent), locked PLLs, grants, P0 grants, pointers, dips, thermal state,
sleep state with the domains to restore, mask, held wake, wake port with the byte a read gave (R410), and 1 + the level that a
failed voltage step kept a cluster from (R402). -/
structure Power where
  req : Tbl Nat := []
  now : Tbl Nat := []
  ceil : Nat := 0
  reduced : Bool := false
  thermal : Nat := 0
  budget : Nat := 750
  limit : Nat := 950
  allowance : Nat := 100
  rating : Nat := 2000
  rail : Nat := 550
  trans : List LvTrans := []
  frame : Option (Nat × Bool) := none
  plls : Tbl Bool := []
  grants : Tbl Nat := []
  p0 : BitVec 8 := 0
  ptr : Nat := 0
  ptr0 : Nat := 0
  dips : List Nat := []
  dip : Nat := 0
  dipSoc : Bool := false
  dipStart : Nat := 0
  dipNs : Nat := 0
  tj : BitVec 8 := 0
  sensor : Nat := 0
  cool : Nat := 0
  checked : Bool := false
  shut : Bool := false
  sleep : Sleep := .awake
  saved : Tbl Dom := []
  mask : W32 := 0
  heldWake : Option (Nat × Nat) := none
  wkpNew : Option W32 := none
  wkpBusy : Bool := false
  wkpOut : Byte := 0
  gaveUp : Tbl Nat := []
deriving DecidableEq, Repr

/-! ## Security (chapter 20) -/

/-- A key slot (R443): type 0 empty, 1 AES, 2 HMAC, 3 P-256 private, 4 P-384 private; the key; owner; the queue it is bound
to. -/
structure KeySlot where
  kind : Nat := 0
  key : List Byte := []
  berth : Nat := 0
  queue : Option Nat := none
deriving DecidableEq, Repr

/-- A service queue (R440 to R442): STATE, the open chain (its service, slot, parameters and input so far, and the bytes it
has put out), the segment in progress (SHI_Q_OP and input as they stood at GO, and the parameters). -/
structure SvcQ where
  st : Nat := 0
  chain : Bool := false
  svc : Nat := 0
  slot : Nat := 0
  par : List W32 := []
  input : List Byte := []
  out : Nat := 0
  op : W32 := 0
  seg : List Byte := []
  segPar : List W32 := []
deriving DecidableEq, Repr

/-- The security subsystem (R438 to R449): slots, queues, alarm, TRNG health, OTP words and which are written, lifecycle in
force and as burnt, DBGSEEN, CERT, the OTP words in force since the last reset. -/
structure Sec where
  slots : Tbl KeySlot := []
  qs : Tbl SvcQ := []
  alarm : Bool := false
  trngOk : Bool := true
  otp : Tbl W32 := []
  burnt : Tbl Bool := []
  lc : Nat := 0
  lcNext : Nat := 0
  otpNow : Tbl W32 := []
  dbgSeen : Bool := false
  cert : Bool := false
deriving DecidableEq, Repr

/-! ## Debug and trace (chapter 21) -/

/-- The debug access engine (R453 to R457): INC and ACT, DAE_ADDR, the access in progress, its result for the next DATA
read, a failed write, the error bits, the last ACK with its read data, the SEQ of the last write on the SDP. -/
structure Dae where
  inc : Bool := false
  act : Bool := false
  addr : Nat := 0
  busy : Option (Option W32) := none
  result : Option (Option W32) := none
  wrFail : Bool := false
  deny : Bool := false
  err : Bool := false
  off : Bool := false
  psn : Bool := false
  ack : Nat := 0
  data : W32 := 0
  seq : Option Nat := none
deriving DecidableEq, Repr

/-- Debug (R306, R451 to R468): nonce, failures, DAE, TAP instruction and 36-bit data register, whether the balls are
handed to scan and whether the scan is being left, the stepped thread and whether it has issued, STEPTO, the instant of
the freeze, the freeze asked for at island start, whether a context access was denied, and the cells of the boundary scan register, in
its order (R494). -/
structure Dbg where
  nonce : Option (List Byte) := none
  fails : Nat := 0
  dae : Dae := {}
  ir : Nat := 1
  dr : BitVec 36 := 0x1094005F
  scan : Bool := false
  scanExit : Bool := false
  step : Option Nat := none
  stepped : Bool := false
  stepTo : Bool := false
  frzAt : Nat := 0
  frzIsland : Bool := false
  ctxDeny : Bool := false
  cells : List Bool := List.replicate 568 false
deriving DecidableEq, Repr

/-- A core's trace encoder (R469 to R475): armed, recording, bytes not yet in a closed unit, closed units, packets lost
and not yet reported, the cycle of its previous packet, atoms held per thread (oldest first), threads whose first packet
is out, and whether TS comes before the next packet (R472). -/
structure Enc where
  armed : Bool := false
  recording : Bool := false
  buf : List Byte := []
  lost : Nat := 0
  last : Nat := 0
  atoms : Tbl (List Bool) := []
  began : Tbl Bool := []
  tsNext : Bool := false
deriving DecidableEq, Repr

/-- The trace sinks (R475 to R477): closed units for DRAM and for the port with the encoder to serve next, whether the
buffer is full, the write pointer saved for S3 with its base and size, port rounds, the blocks last sent on the lanes. -/
structure Trace where
  encs : Tbl Enc := []
  units : List (List Byte) := []
  port : List (List Byte) := []
  rr : Nat := 0
  full : Bool := false
  saved : Option (Nat × Nat × Nat) := none
  rounds : Nat := 0
  lanes : List (List Byte) := []
deriving DecidableEq, Repr

/-! ## Counters (chapter 22) -/

/-- A core's sample buffer (R488, R489): PUT and GET slots, records held, the down-counter. -/
structure Smp where
  put : Nat := 0
  get : Nat := 0
  held : Nat := 0
  down : Nat := 1
deriving DecidableEq, Repr

/-- Counters (R480 to R491): values and shadows by 16u + i, W bits, owner of each unit, sample buffers, shadows of the
histogram bins by 32h + i, units with their status and delay at the capture, the snapshot's instant, ARMED and GATHER, SEQ. -/
structure Perf where
  val : Tbl Nat := []
  shadow : Tbl Nat := []
  w : Tbl Bool := []
  wShadow : Tbl Bool := []
  owner : Tbl (Option Nat) := []
  smp : Tbl Smp := []
  hist : Tbl Nat := []
  status : Tbl Nat := []
  at_ : Nat := 0
  armed : Bool := false
  gather : Bool := false
  seq : Nat := 0
  lastCap : Nat := 0
deriving DecidableEq, Repr

/-! ## Memory integrity (chapter 15) -/

/-- A scrubber (R335, R336): the line it reads next, the start of its lap, the last lap in ms, whether LATE is recorded for
this lap. -/
structure Scrub where
  pos : Nat := 0
  start : Option Nat := none
  lap : Option Nat := none
  late : Bool := false
deriving DecidableEq, Repr

/-- DRAM (R326 to R339): the stored bits that differ from the code of the data (by copy × 2^40 + word, where copy is 0 for memory, 1 + a
for the L2 of cluster a, 9 for the SLC: bits 0 to 63 data, 64 to 71 check), scrubbers by kind × 16 + unit (0 L2, 1 SLC slice, 2 DRAM
channel, 3 quay bank), refresh multiplier, trained and zeroed channels, self-refresh and deep sleep, options of the manifest. -/
structure Dram where
  flips : Tbl (BitVec 72) := []
  scrubs : Tbl Scrub := []
  refresh : Tbl Nat := []
  trained : BitVec 8 := 0
  zeroed : BitVec 8 := 0
  sr : Bool := false
  dsm : Bool := false
  rate : Nat := 0
  dual : Bool := false
  gib : Nat := 0
  wckAo : Bool := false
  ivl : Nat := 16
  limDram : Nat := 0
  limL2 : Nat := 0
  limSlc : Nat := 0
  limQuay : Nat := 0
deriving DecidableEq, Repr

/-! ## Ethernet and PCI Express (chapter 16) -/

/-- A frame in the switch, from its destination address on, without tag and FCS: ingress port (20 the host port), VID,
traffic class, receive time, MACsec validated, the host queue set its stream filter
names, the one that sent it, and whether its policy leaves it untagged. -/
structure EFrame where
  port : Nat
  vid : Nat
  tc : Nat
  data : List Byte
  time : Nat
  sec : Bool := false
  qset : Option Nat := none
  host : Option Nat := none
  plain : Bool := false
deriving DecidableEq, Repr

/-- A learned FDB entry (R347): VID, MAC, port and the instant of its last use. -/
structure Learned where
  vid : Nat
  mac : Nat
  port : Nat
  seen : Nat
deriving DecidableEq, Repr

/-- A gate schedule in force (R350): base, cycle in ns, length of its list, place in it. -/
structure Sched where
  base : Nat := 0
  cycle : Nat := 0
  len : Nat := 0
  pos : Nat := 0
deriving DecidableEq, Repr

/-- The switch (R343 to R361): table words by TBL × 2^16 + INDEX, learned entries, next PN of each SA, SAs whose threshold is
recorded, egress queues by port × 8 + class, schedules, admin lists waiting, frames for each host queue set, completions not
yet signalled by instance, links (0 down, else RATE + 1), verified preemption, frames that have left (port, bytes), 802.1CB
recovery state (sequence number + 1 or 0, history bits) and generation numbers, the slew in 2^-32 ns, whether one is in progress, the time source, and the flipped bits of table entries. -/
structure Eth where
  tbl : Tbl (BitVec 256) := []
  learned : List Learned := []
  pn : Tbl Nat := []
  pnNoted : Tbl Bool := []
  egress : Tbl (List EFrame) := []
  sched : Tbl Sched := []
  change : Tbl Bool := []
  hostRx : Tbl (List EFrame) := []
  unsig : Tbl Nat := []
  links : Tbl Nat := []
  pver : Tbl Bool := []
  sent : List (Nat × List Byte) := []
  frer : Tbl (Nat × Nat) := []
  frerGen : Tbl Nat := []
  slew : Int := 0
  slewing : Bool := false
  source : Nat := 0
  flips : Tbl Nat := []
deriving DecidableEq, Repr

/-- PCI Express (R362 to R367): link of each controller (rate code and width), per function BME, MSI-X enable, function
mask, FLR, vector masks and pending bits, table entries by 16f + v, the messages sent (address, data), and the last completion given to a peer:
status (0 successful, 1 Unsupported Request, 4 Completer Abort), EP, data. -/
structure Pcie where
  link : Tbl (Nat × Nat) := []
  bme : BitVec 16 := 0
  msix : BitVec 16 := 0
  fmask : BitVec 16 := 0
  flr : BitVec 16 := 0
  vmask : Tbl (BitVec 16) := []
  pba : Tbl (BitVec 16) := []
  vec : Tbl (Nat × Nat) := []
  sent : List (Nat × Nat) := []
  cpl : Option (Nat × Bool × List Byte) := none
deriving DecidableEq, Repr

/-! ## Vehicle buses, timers, gateway (chapter 17) -/

/-- An RX FIFO of slots (R372): GET and PUT slot, and first slot and size in slots of the elements held,
oldest first. -/
structure RxFifo where
  get : Nat := 0
  put : Nat := 0
  held : List (Nat × Nat) := []
deriving DecidableEq, Repr

/-- A transmit buffer as CAN arbitration sees it (R374): the controller's own n, buffer n of the share at block j, or the
n-th gateway copy. -/
inductive TxSrc where
  | own (n : Nat)
  | share (j n : Nat)
  | gw (n : Nat)
deriving DecidableEq, Repr

/-- A CAN controller (R369 to R374): error state, TEC, REC, RX FIFO, transmit bits, the buffer whose SOF has been sent with
whether it is to be cancelled, gateway copies, and the shares at its blocks 0 to 3. -/
structure Can where
  st : Nat := 3
  tec : Nat := 0
  rec_ : Nat := 0
  rxf : RxFifo := {}
  pend : BitVec 32 := 0
  done : BitVec 32 := 0
  cxl : BitVec 32 := 0
  sof : Option (TxSrc × Bool) := none
  gw : List (List Byte) := []
  shares : Tbl Nat := []
deriving DecidableEq, Repr

/-- A CAN share (R375): controller, block, RX FIFO and transmit bits. -/
structure Share where
  can : Nat := 0
  blk : Nat := 0
  rxf : RxFifo := {}
  pend : BitVec 8 := 0
  done : BitVec 8 := 0
deriving DecidableEq, Repr

/-- A controller of another bus (R378): its FIFOs, BUSY, for LIN the data that the gateway placed by identifier, and for
xSPI whether the device reports busy and whether a command runs; for LIN what the frame in progress took: the words of the
transmit FIFO, or the data that the gateway placed for an identifier. -/
structure BusCtl where
  rx : List W32 := []
  tx : List W32 := []
  busy : Bool := false
  gw : Tbl (List Byte) := []
  out : Option (List W32 × Nat × List Byte) := none
deriving DecidableEq, Repr

/-- The gateway (R386 to R394): table words, input queue of frames with their source port and arrival time;
per PDU buffer the µs of its last send + 1; per stream the messages that wait with the instant of the first, the sequence
numbers sent and (+ 1) expected; the instant of the hand-over. -/
structure Gw where
  tbl : Tbl (BitVec 256) := []
  inq : List (Nat × List Byte × Nat) := []
  lastUs : Tbl Nat := []
  wait : Tbl (List (List Byte)) := []
  since : Tbl Nat := []
  seqTx : Tbl Nat := []
  seqRx : Tbl Nat := []
  handover : Option Nat := none
  flips : Tbl Nat := []
deriving DecidableEq, Repr

/-- Timers and GPIO (R381 to R383): synchronised ball levels, compare instants in force, whether a channel waits for its
match, whether a PWM line is in its high part, and whether the instant was past when it took effect. -/
structure Tgp where
  inp : Tbl Bool := []
  cmp : Tbl Nat := []
  wait : Tbl Bool := []
  high : Tbl Bool := []
  miss : Tbl Bool := []
deriving DecidableEq, Repr

/-- R22: an access that waits for the power domain of its block: a register access of a requester that has no bundle or work item of
its own, the device access of a thread, the descriptor at the head of a channel of a DMA set, a request of a PCI Express peer, the
access of the debug engine, an element for a gateway queue and the transmit ring of one (R187). With 24 in the place of a domain it
waits for the hold of a link to end (R128) or for what stands before it. -/
inductive Wait where
  | reg (rq : Req) (pa : Nat) (w : Option W32)
  | thread (t : Nat)
  | dma (set c : Nat)
  | pcie (r : PcieReq)
  | debug
  | gwRx (q : Nat) (el : List Byte) (src : Nat)
  | gwTx (q : Nat)
deriving DecidableEq, Repr

/-- The whole machine. -/
structure State where
  time : Nat := 0
  gtb : Nat := 0
  free : Nat := 0
  mem : List Host.Cell := []
  poison : Tbl Bool := []
  regs : Tbl W32 := []
  thr : Tbl Thread := []
  cores : Tbl Core := []
  tlbs : List TlbEntry := []
  tlbis : List Tlbi := []
  walks : List Walk := []
  ioctx : Tbl IoCtx := []
  coh : Coh := {}
  pat : PatStore := {}
  intake : Tbl Bool := []
  routeBad : Tbl Bool := []
  routeFlips : Tbl Nat := []
  cand : Tbl Bool := []
  errCnt : Tbl Nat := []
  fabTimeoutEvr : W32 := 0
  log : List LogEntry := []
  logSeq : BitVec 16 := 0
  dom : Tbl Dom := []
  domReq : Tbl Bool := []
  frozen : Bool := false
  frzReq : Bool := false
  dramCap : Nat := 0
  dram : Dram := {}
  checkers : Tbl Nat := []
  memOff : Tbl Bool := []
  flashCap : Tbl Nat := []
  prot : BitVec 64 := 0
  dbgLevel : Nat := 0
  paired : BitVec 8 := 0
  hm : Harbour := {}
  order : Nat := 0x940
  pwr : Power := {}
  sec : Sec := {}
  dbg : Dbg := {}
  trc : Trace := {}
  perf : Perf := {}
  gtbFrac : Nat := 0
  lockLow : Bool := false
  lockMin : Bool := false
  eth : Eth := {}
  pcie : Pcie := {}
  can : Tbl Can := []
  csh : Tbl Share := []
  bus : Tbl BusCtl := []
  gw : Gw := {}
  tgp : Tgp := {}
  alarms : Tbl Nat := []
  rstReq : Option Nat := none
  waits : List (Nat × Wait) := []
  rdata : W32 := 0
  sspOut : List W32 := []
  pending : List Instr := []
deriving DecidableEq, Repr

/-- The machine right after reset: every field at the value the spec states for reset, and at the value of log 3 where it
states none. Nothing waits. -/
def State.reset : State := {}

end Sys2Proof.Machine
end

