-- ==== Sys2Proof/Machine/Ops.lean ====
section
/-! DEFINITION. The named operations every meaning is built from: memory, registers, event records, signals to the router,
requests of the thread, free values, and the entry of a cause. -/

namespace Sys2Proof.Machine

/-- What a meaning answers. -/
abbrev Out := Host.Outcome State Fault Refusal

/-- A next state. -/
def ok (s : State) : Out := .next s

/-- A next state when a condition holds; otherwise nothing happens (log 8). -/
def whenOk (c : Bool) (s s' : State) : Out := .next (if c then s' else s)

/-! ## Free values -/

/-- A fresh open value of `w` bits (log 5). -/
def State.fresh (s : State) (w : Nat) : BitVec w × State :=
  (Config.freeBits w s.free, { s with free := s.free + 1 })

/-- A fresh open choice (log 5). -/
def State.freshBool (s : State) : Bool × State := (Config.freeBool s.free, { s with free := s.free + 1 })

/-- A fresh open byte string (log 5). -/
def State.freshBytes (s : State) (n : Nat) : List Byte × State :=
  ((List.range n).map (fun i => (Config.freeBytes n s.free).getD i 0), { s with free := s.free + 1 })

/-! ## Bytes -/

/-- A little-endian byte string as a number (R7). -/
def leNat : List Byte → Nat
  | [] => 0
  | b :: r => b.toNat + 256 * leNat r

/-- The low `n` bytes of a number, least significant first (R7). -/
def leBytes : Nat → Nat → List Byte
  | 0, _ => []
  | n + 1, x => BitVec.ofNat 8 x :: leBytes n (x / 256)

/-- The words of a byte string, least significant byte first. -/
def wordsBytes (ws : List W32) : List Byte := ws.flatMap (fun w => leBytes 4 w.toNat)

/-- Bytes as words; a short last word is filled with zeros. -/
def bytesWords : List Byte → List W32
  | b0 :: b1 :: b2 :: b3 :: r => BitVec.ofNat 32 (leNat [b0, b1, b2, b3]) :: bytesWords r
  | [] => []
  | r => [BitVec.ofNat 32 (leNat r)]

/-! ## Memory (R14) -/

/-- What a byte of memory that nothing has written reads as (log 4). -/
def memInit (_ : Nat) : Byte := 0

/-- The canonical form of memory. -/
abbrev Memory.wf (m : List Host.Cell) : Bool := Tbl.wf memInit m

/-- Reads one byte. -/
def State.rdByte (s : State) (a : Nat) : Byte := Tbl.get memInit s.mem a

/-- Writes one byte. -/
def State.wrByte (s : State) (a : Nat) (b : Byte) : State := { s with mem := Tbl.set memInit s.mem a b }

/-- Reads `n` bytes from an address up. -/
def State.rdBytes (s : State) (a : Nat) : Nat → List Byte
  | 0 => []
  | n + 1 => s.rdByte a :: s.rdBytes (a + 1) n

/-- Bytes written into a memory from an address up. -/
def memWrite (m : List Host.Cell) (a : Nat) : List Byte → List Host.Cell
  | [] => m
  | b :: r => memWrite (Tbl.set memInit m a b) (a + 1) r

/-- Writes bytes from an address up. -/
def State.wrBytes (s : State) (a : Nat) (bs : List Byte) : State := { s with mem := memWrite s.mem a bs }

/-- Reads an `n`-byte little-endian number. -/
def State.rdLe (s : State) (a n : Nat) : Nat := leNat (s.rdBytes a n)

/-- Is the 64-bit word that holds an address poisoned (R229). -/
def State.poisoned (s : State) (a : Nat) : Bool := Tbl.get (fun _ => false) s.poison (a / 8)

/-- Marks or clears the poison of the word that holds an address. -/
def State.setPoison (s : State) (a : Nat) (b : Bool) : State :=
  { s with poison := Tbl.set (fun _ => false) s.poison (a / 8) b }

/-- Sets the poison of `n` words from an address up. -/
def State.poisonWords (s : State) (a : Nat) (b : Bool) : Nat → State
  | 0 => s
  | n + 1 => (s.setPoison a b).poisonWords (a + 8) b n

/-- R231: a write that covers a whole poisoned word clears its mark; a partial write leaves it. -/
def State.clearCovered (s : State) (a n : Nat) : State :=
  let lo := (a + 7) / 8
  let hi := (a + n) / 8
  if lo < hi then s.poisonWords (lo * 8) false (hi - lo) else s

/-- A store performed at its coherence point (R197, R231). -/
def State.store (s : State) (a : Nat) (bs : List Byte) : State := (s.wrBytes a bs).clearCovered a bs.length

/-- The first byte of a range that lies in a poisoned word (R230). -/
def State.firstPoison (s : State) (a : Nat) : Nat → Option Nat
  | 0 => none
  | n + 1 => if s.poisoned a then some a else s.firstPoison (a + 1) n

/-! ## Registers -/

/-- The stored value of the register at a canonical physical address. -/
def State.reg (s : State) (pa : Nat) : W32 := Tbl.get regReset s.regs pa

/-- Sets the stored value of a register. -/
def State.setReg (s : State) (pa : Nat) (v : W32) : State := { s with regs := Tbl.set regReset s.regs pa v }

/-- Sets registers in order. -/
def State.setRegs (s : State) : List (Nat × W32) → State
  | [] => s
  | (a, v) :: r => (s.setReg a v).setRegs r

/-- Adds one to a 16-bit count held in the low half of a register, stopping at 0xFFFF. -/
def State.satReg16 (s : State) (pa : Nat) : State :=
  let v := s.reg pa
  s.setReg pa (putBits v 0 16 (satInc 0xFFFF (bits v 15 0)))

/-- The value of an event record after an event with `flags` (R29). -/
def recorded (v : W32) (flags : Nat) : W32 :=
  let m := bit v 19 || bits v 18 0 != 0
  putBits (putBit (v ||| BitVec.ofNat 32 (flags % 2 ^ 19)) 19 m) 20 12 (bits v 31 20 + 1)

/-! ## Event counters (R480 to R483) -/

/-- The page of a counter unit (R480). -/
def cntPage (u : Nat) : Nat := 0x104B100000 + u * 0x1000

/-- The number of counters of a unit (R479). -/
def cntCount (u : Nat) : Nat :=
  if u < 32 ∨ u = 64 ∨ u = 67 ∨ u = 68 then 16 else if u < 40 then 8 else if u < 64 then 4 else 8

/-- R481: adds occurrences to one counter; passing 2^48 - 1 wraps it, records WRAP and sets its W bit. -/
def State.cntAdd (s : State) (u i n : Nat) : State :=
  let k := 16 * u + i
  let v := Tbl.get (fun _ => (0 : Nat)) s.perf.val k + n
  let s := { s with perf := { s.perf with val := Tbl.set (fun _ => (0 : Nat)) s.perf.val k (v % 2 ^ 48) } }
  if 2 ^ 48 ≤ v then
    { s.setReg (cntPage u + 8) (recorded (s.reg (cntPage u + 8)) (2 ^ 18)) with
      perf := { s.perf with w := Tbl.set (fun _ => false) s.perf.w k true } }
  else s

/-- The owner of a counter unit: the berth it is given to (R483). -/
def State.cntOwner (s : State) (u : Nat) : Option Nat := Tbl.get (fun _ => (none : Option Nat)) s.perf.owner u

/-- R481, R483: does a unit count an event, of the thread and berth given, or core-wide. -/
def State.cntCounts (s : State) (u code : Nat) (who : Option (Nat × Nat)) : Bool :=
  let c := s.reg (cntPage u + 4)
  bit c 0 &&
  (match who with
   | some (t, b) =>
     (!bit c 29 || bits c 28 24 == t % 32) && (match s.cntOwner u with
       | some o => o == b
       | none => true)
   | none => (s.cntOwner u).isNone || code == 1)

/-- R481: `n` occurrences of an event in a unit. -/
def State.perfEvent (s : State) (u code n : Nat) (who : Option (Nat × Nat)) : State :=
  if n ≠ 0 && s.cntCounts u code who then
    (List.range (cntCount u)).foldl (fun s i => if bits (s.reg (cntPage u + 0x40 + 4 * i)) 11 0 = code then s.cntAdd u i n else s) s
  else s

/-! ## Units that the order code fuses off (R2, R3) -/

/-- Is a cluster fused by the order code (R2). -/
def State.clusterFused (s : State) (n : Nat) : Bool :=
  (s.order == 0x930 && decide (6 ≤ n)) || (s.order == 0x920 && decide (4 ≤ n))

/-- R2: is a DRAM channel of this part fused. -/
def State.channelFused (s : State) (c : Nat) : Bool :=
  (s.order == 0x930 && decide (6 ≤ c)) || (s.order == 0x920 && decide (4 ≤ c))

/-- R2: is an Ethernet port or CAN controller of this part fused. -/
def State.portFused (s : State) (p : Nat) : Bool :=
  s.order == 0x920 && ((decide (2 ≤ p) && decide (p ≤ 3)) || (decide (8 ≤ p) && decide (p ≤ 11)) || decide (16 ≤ p))
def State.canFused (s : State) (k : Nat) : Bool := s.order == 0x920 && decide (16 ≤ k)

/-- R3, R253, R254: is a source that of a fused unit. -/
def State.srcFused (s : State) (n : Nat) : Bool :=
  if n < 64 then s.clusterFused (n / 8)
  else if 80 ≤ n ∧ n < 128 then s.channelFused ((n - 80) / 6)
  else if 160 ≤ n ∧ n < 280 then s.portFused ((n - 160) / 6)
  else if 384 ≤ n ∧ n < 480 then s.canFused ((n - 384) / 4)
  else false

/-- R253, R254: a source that does not assert: a number that never does, one of a fused unit, the mismatch of an unpaired cluster. -/
def State.srcOut (s : State) (n : Nat) : Bool :=
  srcNever n || s.srcFused n || (decide (n < 64) && (n % 8 == 1 || n % 8 == 2) && !s.paired.getLsbD (n / 8))

/-! ## Signals (R253, R255, R261, R270) -/

/-- The address of a route entry's CFG: entries 0 to 1535, then the berth copies 1536 + 16b + i (R256, R271). -/
def routeAddr (entry : Nat) : Nat :=
  if entry < 1536 then 0x1041002000 + entry / 256 * 0x1000 + entry % 256 * 8
  else 0x1041008000 + (entry - 1536) / 256 * 0x1000 + (entry - 1536) % 256 * 8

/-- The berth copy of replicated source 1216 + i of berth b (R270). -/
def copyEntry (b i : Nat) : Nat := 1536 + 16 * b + i

/-- R435: are the outputs moored: from PWR_GOOD until island start, in the Held state, and after a thermal shutdown. -/
def State.moored (s : State) : Bool := !s.hm.island || s.hm.held || s.pwr.shut

/-- The flipped bits of a route entry's word, none, one or more (R273). -/
def State.routeFlip (s : State) (e : Nat) : Nat := Tbl.get (fun _ => (0 : Nat)) s.routeFlips e

/-- Is a route on (R256): EN, not an interrupt route of priority 0, and no double-bit error (R273). -/
def State.routeOn (s : State) (entry : Nat) : Bool :=
  let c := s.reg (routeAddr entry)
  bit c 31 && !(bit c 29 && bits c 27 24 == 0) && !Tbl.get (fun _ => false) s.routeBad entry &&
    decide (s.routeFlip entry < 2)

/-- The harbourmaster's intake bit of an event number (R255). -/
def State.setIntake (s : State) (n : Nat) : State := { s with intake := Tbl.set (fun _ => false) s.intake n true }

/-- R257, R261: a signal reaches a route entry; the copy to the harbourmaster, then PEND when the route is on. -/
def State.signalEntry (s : State) (entry n : Nat) : State :=
  let c := s.reg (routeAddr entry)
  let s := if bit c 20 then s.setIntake n else s
  if s.routeOn entry then
    let v := s.reg (routeAddr entry + 4)
    let v := putBits v 20 12 (bits v 31 20 + 1)
    let v := if bit v 18 then putBit v 19 true else v
    (s.setReg (routeAddr entry + 4) (putBit v 18 true)).perfEvent 65 0x404 1 none
  else s

/-- A signal of a plain source or a doorbell; a source that does not assert signals nothing (R253). -/
def State.signal (s : State) (n : Nat) : State := if s.srcOut n then s else s.signalEntry n n

/-- A signal of replicated source 1216 + i to one berth's copy (R270). -/
def State.signalBerth (s : State) (b i : Nat) : State := s.signalEntry (copyEntry b i) (1216 + i)

/-- A signal of replicated source 1216 + i to every berth's copy (R270). -/
def State.signalAll (s : State) (i : Nat) : State :=
  (List.range 64).foldl (fun s b => s.signalBerth b i) s

/-! ## Event records (R28, R29) -/

/-- R482: the counter unit of the block that holds the record at an address. -/
def evtUnit (pa : Nat) : Option Nat :=
  if pa / 2 ^ 24 = 0x1047 then some (if pa / 2 ^ 16 = 0x104701 then 71 else 70)
  else if pa / 2 ^ 24 = 0x1080 then some 73
  else [(0x1043, 64), (0x1044, 67), (0x1045, 68), (0x1046, 69), (0x1048, 72), (0x104A, 74)].lookup (pa / 2 ^ 24)

/-- R482: a block's event record is written, which its counter unit counts. -/
def State.evtCount (s : State) (pa : Nat) : State :=
  match evtUnit pa with
  | some u => s.perfEvent u 0x404 1 none
  | none => s

/-- Records an event in the record at `pa`; its source, where it has one, signals once (R29). -/
def State.record (s : State) (pa flags : Nat) (src : Option Nat) : State :=
  let s := (s.setReg pa (recorded (s.reg pa) flags)).evtCount pa
  match src with
  | none => s
  | some n => s.signal n

/-- As `record`; the source registers capture when no flag was set before (R34, R64, R165). -/
def State.recordCap (s : State) (pa flags : Nat) (src : Option Nat) (caps : List (Nat × W32)) : State :=
  let first := bits (s.reg pa) 18 0 == 0
  let s := s.record pa flags src
  if first then s.setRegs caps else s

/-- A write to an event record (R29): flags and MULT clear when bits [31:20] equal SEQ. -/
def clearedBy (cur w : W32) : W32 :=
  if bits w 31 20 = bits cur 31 20 then putBits cur 0 20 0 else cur

/-! ## Saturating counters (R341, R342) -/

/-- The value at which the counters of a group stop. -/
def counterMax (g : Nat) : Nat := if g = 0x40 then 2 ^ 32 - 1 else if g = 0x41 ∨ g = 0x42 then 0xFFFF else 0xFF

/-- Counter `r` of group `g` (R342). -/
def State.counter (s : State) (g r : Nat) : Nat := Tbl.get (fun _ => (0 : Nat)) s.errCnt (g * 32 + r)

/-- Counts once; an increment of a berth counter signals BERTH_ERRCNT to that berth's copy (R341). -/
def State.count (s : State) (g r : Nat) : State :=
  let v := s.counter g r
  if v < counterMax g then
    let s := { s with errCnt := Tbl.set (fun _ => (0 : Nat)) s.errCnt (g * 32 + r) (v + 1) }
    if 0x100 ≤ g then s.signalBerth (g - 0x100) 3 else s
  else s

/-! ## Error log (R304) -/

/-- Writes an entry of the error log: the newest 1,024 are kept, and MBX_LOG (1192) signals. -/
def State.logErr (s : State) (source kind : Nat) (gtn : Option Nat) (berth addr w6 w7 : Nat) : State :=
  let e : LogEntry := { seq := s.logSeq, source := source, kind := kind, time := s.gtb, gtn := gtn, berth := berth,
                        addr := addr, w6 := BitVec.ofNat 32 w6, w7 := BitVec.ofNat 32 w7 }
  let kept := s.log ++ [e]
  ({ s with log := kept.drop (kept.length - 1024), logSeq := s.logSeq + 1 }).signal 1192

/-! ## Threads and cores -/

/-- The thread with a number. -/
def State.th (s : State) (t : Nat) : Thread := Tbl.get (fun _ => ({} : Thread)) s.thr t

/-- Replaces a thread. -/
def State.setTh (s : State) (t : Nat) (x : Thread) : State :=
  { s with thr := Tbl.set (fun _ => ({} : Thread)) s.thr t x }

/-- Changes a thread. -/
def State.modTh (s : State) (t : Nat) (f : Thread → Thread) : State := s.setTh t (f (s.th t))

/-- The core with a number (4 × cluster + core). -/
def State.core (s : State) (c : Nat) : Core := Tbl.get (fun _ => ({} : Core)) s.cores c

/-- Replaces a core. -/
def State.setCore (s : State) (c : Nat) (x : Core) : State :=
  { s with cores := Tbl.set (fun _ => ({} : Core)) s.cores c x }

/-- Changes a core. -/
def State.modCore (s : State) (c : Nat) (f : Core → Core) : State := s.setCore c (f (s.core c))

/-- The core of a thread (R36). -/
def coreOf (t : Nat) : Nat := t / 32

/-- The cluster of a thread (R36). -/
def clusterOf (t : Nat) : Nat := t / 128

/-- Takes a thread out of its core's wake queue. -/
def State.unqueue (s : State) (t : Nat) : State :=
  s.modCore (coreOf t) (fun c => { c with wq := c.wq.filter (fun x => x != t) })

/-- Puts a thread into its core's wake queue (R44): the queue is ordered by the cycle of entry, lower thread numbers first within a
cycle. -/
def State.enqueue (s : State) (t : Nat) : State :=
  let now := (s.core (coreOf t)).cycle
  let s := s.modTh t (fun x => { x with wqAt := now })
  s.modCore (coreOf t) (fun c =>
    let q := c.wq.filter (fun x => x != t)
    let before := fun (u : Nat) => (s.th u).wqAt != now || decide (u < t)
    { c with wq := q.takeWhile before ++ t :: q.dropWhile before })

/-- Is a thread in the wake queue. -/
def State.queued (s : State) (t : Nat) : Bool := (s.core (coreOf t)).wq.contains t

/-- A general register; g0 reads as zero (R75). -/
def Ctx.rd (c : Ctx) (r : Nat) : Word := if r = 0 then 0 else Tbl.get (fun _ => (0 : Word)) c.g r

/-- Writes a general register; a write to g0 is discarded (R75). -/
def Ctx.wr (c : Ctx) (r : Nat) (v : Word) : Ctx :=
  if r = 0 then c else { c with g := Tbl.set (fun _ => (0 : Word)) c.g r v }

/-- A predicate; p0 reads as 1 (R75). -/
def Ctx.rdP (c : Ctx) (r : Nat) : Bool := if r = 0 then true else Tbl.get (fun _ => false) c.p r

/-- Writes a predicate; a write to p0 is discarded (R75). -/
def Ctx.wrP (c : Ctx) (r : Nat) (v : Bool) : Ctx :=
  if r = 0 then c else { c with p := Tbl.set (fun _ => false) c.p r v }

/-- A system register of the context by number, as last written. -/
def Ctx.sysr (c : Ctx) (n : Nat) : Word := Tbl.get (fun _ => (0 : Word)) c.sr n

/-- Writes a system register of the context. -/
def Ctx.setSysr (c : Ctx) (n : Nat) (v : Word) : Ctx := { c with sr := Tbl.set (fun _ => (0 : Word)) c.sr n v }

/-- The fields of ST (R84). -/
def stPl (st : Word) : Nat := bits st 1 0
def stMl (st : Word) : Nat := bits st 5 2
def stEnt (st : Word) : Bool := bit st 6
def stDyn (st : Word) : Bool := bit st 7
def stStrict (st : Word) : Bool := bit st 8
def stTrc (st : Word) : Bool := bit st 10
def stStep (st : Word) : Bool := bit st 11

/-- A register in force for translation or vectoring (R82). -/
def Thread.now (x : Thread) (n : Nat) : Word := Tbl.get (fun _ => (0 : Word)) x.srNow n

/-- A fresh value written to a register has correct parity in every lane (R79). -/
def Thread.goodPar (x : Thread) (r : Nat) : Thread := { x with par := Tbl.del x.par r }

/-- Has a register a lane of wrong parity (R79). -/
def Thread.badPar (x : Thread) (r : Nat) : Bool := Tbl.get (fun _ => (0 : BitVec 4)) x.par r != 0

/-- ST as the boundary of the last bundle sees it (R162): an MTSR that clears ST.ENT takes effect for the next bundle. -/
def Thread.bndSt (x : Thread) : Word :=
  match x.bndEnt with
  | some e => putBit x.ctx.st 6 e
  | none => x.ctx.st

/-- Clears a thread's link (R127). -/
def Thread.unlink (x : Thread) : Thread := { x with link := none }

/-- A thread without its link to a line, if that is its link. -/
def Thread.unlinkFrom (x : Thread) (line : Nat) : Thread :=
  match x.link with
  | some l => if l.pa / 64 = line then { x with link := none } else x
  | none => x

/-- A write to any byte of a line clears the links of the other threads to it (R127); `who` is the writing thread. -/
def State.unlinkLine (s : State) (line : Nat) (who : Option Nat) : State :=
  (s.thr.map Prod.fst).foldl (fun s t => if some t = who then s else s.modTh t (fun x => x.unlinkFrom line)) s

/-- The STRICT bit of a thread's berth, of which ST.STRICT is a copy (R90). -/
def State.strictOf (s : State) (t : Nat) : Bool := (Tbl.get (fun _ => ({} : Berth)) s.hm.berths (s.th t).berth).strict

/-- The request attributes of a thread (R18). -/
def State.threadReq (s : State) (t : Nat) : Req :=
  { cls := .thread, berth := Fin.ofNat 64 (s.th t).berth, priv := Fin.ofNat 3 (stPl (s.th t).ctx.st), src := t }

/-! ## Entry (R153, R156) -/

/-- The SRN of an exception register of level 1 (S) or 2 (H), offset `o` from XRA (R83). -/
def xReg (level o : Nat) : Nat := (if level = 2 then 0x20 else 0x10) + o

/-- XCA as entry writes it (R87). -/
def xcaValue (cls detail event prio : Nat) (esc : Bool) (fromPl : Nat) : Word :=
  BitVec.ofNat 36 (cls + fromPl * 2 ^ 6 + b2n esc * 2 ^ 8 + prio * 2 ^ 9 + event * 2 ^ 13 + detail * 2 ^ 24)

/-- R156: entry to a level. `st'` is ST after the entry; the thread's next bundle is at XVB in force + class × 64. -/
def Thread.enter (x : Thread) (level : Nat) (xra xca xfa st' : Word) (tfi : Option Word) (cls : Nat) : Thread :=
  let c := x.ctx
  let c := c.setSysr (xReg level 1) c.st
  let c := c.setSysr (xReg level 0) xra
  let c := c.setSysr (xReg level 2) xca
  let c := c.setSysr (xReg level 3) xfa
  let c := match tfi with
    | some v => c.setSysr 0x4C v
    | none => c
  let c := { c with st := st', pc := x.now (xReg level 4) + BitVec.ofNat 36 (cls * 64) }
  { x with ctx := c, link := none, buf := none, fetch := .empty, bun := none, pend := none, resuming := false, bnd := false, bndEnt := none }

/-- ST after a synchronous entry (R156). -/
def stSync (st : Word) (level : Nat) (esc : Bool) : Word :=
  let st := putBits st 0 2 level
  let st := if esc then putBits (putBit st 7 true) 2 4 15 else st
  putBit (putBit st 6 true) 11 false

/-- ST after an interrupt entry (R156). -/
def stIntr (st : Word) (level prio : Nat) : Word :=
  putBit (putBit (putBits (putBits st 0 2 level) 2 4 prio) 6 true) 11 false

/-- R153's decision on a synchronous cause: lock-up (of kind 0 entry in progress or 1 escalation beyond H) or entry. -/
inductive SyncAct where
  | lock (kind : Nat)
  | enter (level : Nat) (esc : Bool)
deriving DecidableEq, Repr

/-- R153. -/
def takeSync (st : Word) (c : Cause) : SyncAct :=
  if stEnt st then .lock 0
  else
    let gov := if stPl st = 2 then 2 else 1
    let e := if stPl st = 2 then 2 else c.target
    match c.level with
    | some l =>
      if e = gov ∧ l ≤ stMl st then (if e = 2 then .lock 1 else .enter 2 true) else .enter e false
    | none => .enter e false

/-- R150, R154: is a presented interrupt accepted under a thread's ST. -/
def intrAccepts (st : Word) (i : Intr) : Bool :=
  let gov := if stPl st = 2 then 2 else 1
  decide (stPl st ≤ i.level) && (!stEnt st || i.level != stPl st) && (decide (gov < i.level) || decide (stMl st < i.prio))

end Sys2Proof.Machine
end

