-- ==== Sys2Proof/Machine/Translate.lean ====
section
/-! DEFINITION. Regions of the physical address space (R14, R15) and two-stage translation (R167 to R186): walks, TLBs,
permissions, maintenance. -/

namespace Sys2Proof.Machine

/-- The regions of R14, as far as an access can reach them (R15). -/
inductive Region where
  | dram | quay | flash (port : Nat) | device | pcie | absent
deriving DecidableEq, Repr

/-- R329: is a DRAM address a check address of a protected region. -/
def State.checkAddr (s : State) (pa : Nat) : Bool :=
  s.prot.getLsbD (pa / 0x40000000) && decide (0x38E38E00 ≤ pa % 0x40000000)

/-- R364: the enabled outbound window that covers an address; a CFG window acts as disabled on an endpoint. -/
def State.outWindow (s : State) (pa : Nat) : Option Nat :=
  (List.range 16).find? (fun w =>
    let b := 0x1048002000 + 16 * w
    let ctl := s.reg (b + 4)
    let size := 2 ^ bits ctl 5 0
    let lo := (bits (s.reg b) 20 0 * 0x10000) / size * size
    bit ctl 31 && (bits ctl 29 28 != 1 || (if bit ctl 30 then s.hm.man.pcieRole1 else s.hm.man.pcieRole0) == 1) && decide (16 ≤ bits ctl 5 0 ∧ bits ctl 5 0 ≤ 37) && decide (lo ≤ pa ∧ pa < lo + size))

/-- R14, R15: the region of a physical address; `absent` where an access gets a bus error. -/
def State.region (s : State) (pa : Nat) : Region :=
  if pa < 0x1000000000 then (if pa < s.dramCap ∧ !s.checkAddr pa then .dram else .absent)
  else if pa < 0x1001000000 then .quay
  else if 0x1040000000 ≤ pa ∧ pa < 0x104F000000 then .device
  else if 0x1080000000 ≤ pa ∧ pa < 0x1080050000 then .device
  else if 0x1800000000 ≤ pa ∧ pa < 0x1900000000 then
    let port := (pa - 0x1800000000) / 0x80000000
    if (pa - 0x1800000000) % 0x80000000 < Tbl.get (fun _ => (0 : Nat)) s.flashCap port then .flash port else .absent
  else if 0x2000000000 ≤ pa ∧ pa < 0x4000000000 then .pcie
  else .absent

/-- R14: is a region a normal one. -/
def Region.normal : Region → Bool
  | .dram => true
  | .quay => true
  | .flash _ => true
  | _ => false

/-- How a walk fails (R171, R173, R176): the stage-1 or stage-2 translation or permission with its level, a denied execute
permission, or a poisoned descriptor; for stage 2 the failing IPA and whether it was a stage-1 descriptor's. -/
inductive WFail where
  | s1t (lvl : Nat)
  | s1p (lvl : Nat)
  | nx
  | s2t (lvl ipa : Nat) (s1w : Bool)
  | s2p (lvl ipa : Nat) (s1w : Bool)
  | lost (pa lvl : Nat) (s2 : Bool)
  | range
deriving DecidableEq, Repr

/-- A leaf: output address, log2 of its size, level and descriptor. -/
structure Leaf where
  out : Nat
  size : Nat
  lvl : Nat
  desc : BitVec 64
deriving DecidableEq, Repr

/-- R176: a descriptor read; none where its address lies outside the normal regions, which counts as invalid. -/
def State.rdDesc (s : State) (pa lvl : Nat) (s2 : Bool) : Except WFail (Option (BitVec 64)) :=
  if (s.region pa).normal then
    (if s.poisoned pa then .error (.lost pa lvl s2) else .ok (some (BitVec.ofNat 64 (s.rdLe pa 8))))
  else .ok none

/-- R170: the lowest bit of a level's index, which is log2 of its leaf size. -/
def lvlShift (lvl : Nat) : Nat := if lvl = 0 then 30 else if lvl = 1 then 21 else 12

/-- What a descriptor is at a level (R171). -/
inductive DKind where
  | invalid
  | table (next : Nat)
  | leaf (out : Nat)
deriving DecidableEq, Repr

/-- R171: decodes a descriptor of stage 1 (`s2 = false`) or stage 2. -/
def decodeDesc (s2 : Bool) (lvl : Nat) (d : BitVec 64) : DKind :=
  let oa := bits d 39 12 * 0x1000
  let kind := bits d 1 0
  let leafOk := bits d 55 40 == 0 && (if s2 then bits d 11 5 == 0 else bits d 11 9 == 0) && oa % 2 ^ lvlShift lvl == 0
  if kind = 3 ∧ lvl < 2 then (if bits d 55 40 = 0 ∧ bits d 11 2 = 0 then .table oa else .invalid)
  else if kind = 3 then (if leafOk then .leaf oa else .invalid)
  else if kind = 1 ∧ lvl < 2 then (if leafOk then .leaf oa else .invalid)
  else .invalid

/-- The stage-2 walk of an IPA from a level (R170, R175); `n` levels remain. -/
def State.s2Walk (s : State) (ipa : Nat) (s1w : Bool) : Nat → Nat → Except WFail Leaf
  | 0, _ => .error (.s2t 2 ipa s1w)
  | n + 1, tbl =>
    let lvl := 2 - n
    let sh := lvlShift lvl
    let idx := ipa / 2 ^ sh % (if lvl = 0 then 1024 else 512)
    match s.rdDesc (tbl + idx * 8) lvl true with
    | .error e => .error e
    | .ok none => .error (.s2t lvl ipa s1w)
    | .ok (some d) =>
      match decodeDesc true lvl d with
      | .invalid => .error (.s2t lvl ipa s1w)
      | .table t => s.s2Walk ipa s1w n t
      | .leaf o => .ok ⟨o + ipa % 2 ^ sh, sh, lvl, d⟩

/-- The stage-2 base, enable and berth of a walk (R168, R184). -/
structure S2 where
  en : Bool
  base : Nat
deriving DecidableEq, Repr

/-- R168: an IPA through stage 2; with stage 2 off the PA is the IPA and every permission is granted. -/
def State.s2Trans (s : State) (c : S2) (ipa : Nat) (s1w : Bool) : Except WFail Leaf :=
  if c.en then s.s2Walk ipa s1w 3 c.base else .ok ⟨ipa, 30, 0, 0x1C#64⟩

/-- The stage-1 walk of a VA from a level: each descriptor's IPA goes through stage 2 and needs R (R173, R174). -/
def State.s1Walk (s : State) (c : S2) (va : Nat) : Nat → Nat → Except WFail Leaf
  | 0, _ => .error (.s1t 2)
  | n + 1, tbl =>
    let lvl := 2 - n
    let sh := lvlShift lvl
    let ipa := tbl + va / 2 ^ sh % (if lvl = 0 then 64 else 512) * 8
    match s.s2Trans c ipa true with
    | .error e => .error e
    | .ok l =>
      if !bit l.desc 2 then .error (.s2p l.lvl ipa true)
      else
        match s.rdDesc l.out lvl false with
        | .error e => .error e
        | .ok none => .error (.s1t lvl)
        | .ok (some d) =>
          match decodeDesc false lvl d with
          | .invalid => .error (.s1t lvl)
          | .table t => s.s1Walk c va n t
          | .leaf o => .ok ⟨o + va % 2 ^ sh, sh, lvl, d⟩

/-- R173: the stage-1 permissions of a leaf with WXN applied. -/
def s1Exec (wxn : Bool) (d : BitVec 64) (b : Nat) : Bool := bit d b && !(wxn && (bit d 6 || bit d 3))

/-- R173, R174: the stage-1 permission an access lacks under a leaf. -/
def s1Check (wxn : Bool) (d : BitVec 64) (acc : Acc) (pl lvl : Nat) : Option WFail :=
  let r := if pl = 0 then bit d 5 else bit d 2
  let w := if pl = 0 then bit d 6 else bit d 3
  let x := if pl = 0 then s1Exec wxn d 7 else s1Exec wxn d 4
  match acc with
  | .read => if r then none else some (.s1p lvl)
  | .write => if w then none else some (.s1p lvl)
  | .both => if r && w then none else some (.s1p lvl)
  | .exec => if x then none else some .nx

/-- R173, R174: the stage-2 permission an access lacks under a leaf, for an IPA. -/
def s2Check (d : BitVec 64) (acc : Acc) (lvl ipa : Nat) : Option WFail :=
  let f : Option WFail := some (.s2p lvl ipa false)
  match acc with
  | .read => if bit d 2 then none else f
  | .write => if bit d 3 then none else f
  | .both => if bit d 2 && bit d 3 then none else f
  | .exec => if bit d 4 then none else f

/-- R167, R175, R178: a whole walk, giving the combined entry for a location. `s1` is none when stage 1 is off. -/
def State.walk (s : State) (loc : TlbLoc) (berth asid : Nat) (s1 : Option Nat) (wxn0 : Bool) (c : S2) (va : Nat)
    (acc : Acc) (pl : Nat) : Except WFail TlbEntry :=
  let wxn := wxn0 && s1.isSome
  let all : BitVec 64 := 0xFC#64
  let l1 : Except WFail Leaf := match s1 with
    | some b => s.s1Walk c va 3 b
    | none => .ok ⟨va, 30, 0, all⟩
  match l1 with
  | .error e => .error e
  | .ok a =>
    match s1Check wxn a.desc acc pl a.lvl with
    | some f => .error f
    | none =>
    match s.s2Trans c a.out false with
    | .error e => .error e
    | .ok b =>
      match s2Check b.desc acc b.lvl a.out with
      | some f => .error f
      | none =>
      let size := Nat.min a.size b.size
      .ok { loc := loc, berth := berth, asid := if s1.isSome && bit a.desc 8 then some asid else none,
            va := va / 2 ^ size, ipa := a.out / 2 ^ size, pa := b.out / 2 ^ size, size := size,
            ur := bit a.desc 5, uw := bit a.desc 6, ux := s1Exec wxn a.desc 7,
            pr := bit a.desc 2, pw := bit a.desc 3, px := s1Exec wxn a.desc 4,
            s2r := bit b.desc 2, s2w := bit b.desc 3, s2x := bit b.desc 4, lvl1 := a.lvl, lvl2 := b.lvl }

/-- R173, R174: the first permission an access lacks, stage 1 before stage 2. -/
def TlbEntry.check (e : TlbEntry) (acc : Acc) (pl : Nat) (ipa : Nat) : Option WFail :=
  let r := if pl = 0 then e.ur else e.pr
  let w := if pl = 0 then e.uw else e.pw
  let x := if pl = 0 then e.ux else e.px
  match acc with
  | .read => if !r then some (.s1p e.lvl1) else if !e.s2r then some (.s2p e.lvl2 ipa false) else none
  | .write => if !w then some (.s1p e.lvl1) else if !e.s2w then some (.s2p e.lvl2 ipa false) else none
  | .both => if !(r && w) then some (.s1p e.lvl1) else if !(e.s2r && e.s2w) then some (.s2p e.lvl2 ipa false) else none
  | .exec => if !x then some .nx else if !e.s2x then some (.s2p e.lvl2 ipa false) else none

/-- R178: does an entry match a lookup. -/
def TlbEntry.hits (e : TlbEntry) (loc : TlbLoc) (berth asid va : Nat) : Bool :=
  e.loc == loc && e.berth == berth && e.va == va / 2 ^ e.size &&
  (match e.asid with
   | some a => a == asid
   | none => true)

/-- The sets of a TLB and the ways of each (R180); a fully associative TLB is one set. -/
def TlbLoc.sets : TlbLoc → Nat
  | .l2 _ => 256
  | .io => 128
  | _ => 1
def TlbLoc.ways : TlbLoc → Nat
  | .itlb _ => 64
  | .dtlb _ => 64
  | .l2 _ => 8
  | .io => 8
  | .micro _ => 32

/-- Is a TLB one of the IO translation unit. -/
def TlbLoc.isIo : TlbLoc → Bool
  | .io => true
  | .micro _ => true
  | _ => false

/-- Do two entries belong to one set of one TLB: its index is the low bits of the page number at the entry's own size (log 9). -/
def TlbEntry.sameSet (a b : TlbEntry) : Bool := a.loc == b.loc && a.va % a.loc.sets == b.va % b.loc.sets

/-- Do two entries translate the same page for the same lookups. -/
def TlbEntry.samePage (a b : TlbEntry) : Bool :=
  a.loc == b.loc && a.berth == b.berth && a.asid == b.asid && a.size == b.size && a.va == b.va

/-- Installs an entry in place of one for the same page; past the ways of its set the oldest of that set leaves (log 9). -/
def State.installTlb (s : State) (e : TlbEntry) : State :=
  let rest := s.tlbs.filter (fun x => !x.samePage e)
  let mine := (rest.filter (fun x => x.sameSet e)).take (e.loc.ways - 1)
  { s with tlbs := e :: (mine ++ rest.filter (fun x => !x.sameSet e)) }

/-- R180, R340: an entry with a parity error is discarded, counted and, in a cluster, recorded. -/
def State.tlbBad (s : State) (e : TlbEntry) : State :=
  let s := { s with tlbs := s.tlbs.erase e }
  let hit (n flag r : Nat) : State :=
    ((s.record (0x1040007004 + n * 0x100000) flag (some (8 * n + 5))).count n r).count 0x40 1
  match e.loc with
  | .itlb c => hit (c / 4) (2 ^ 18) 4
  | .dtlb c => hit (c / 4) (2 ^ 17) 4
  | .l2 n => hit n (2 ^ 16) 5
  | _ => s.count 0x40 11

/-- The entry that a lookup finds; one of wrong parity is discarded, and nothing is found (R180). -/
def State.findTlb (s : State) (p : TlbEntry → Bool) : Option TlbEntry × State :=
  match s.tlbs.find? p with
  | some e => if e.bad then (none, s.tlbBad e) else (some e, s)
  | none => (none, s)

/-- The stage-2 base and enable of a thread, live from its berth (R167, R168). -/
def Thread.s2 (x : Thread) : S2 :=
  { en := bit (x.ctx.sysr 0x49) 8, base := bits (x.ctx.sysr 0x48) 26 0 * 0x2000 }

/-- What a translation finds: the physical address and the TLB entry that gave it, a miss, or a failure. -/
inductive Trans where
  | hit (pa : Nat) (via : Option TlbEntry)
  | miss
  | fail (f : WFail)
deriving DecidableEq, Repr

/-- Looks up a thread's TLBs (R180): the core's ITLB or DTLB, then the cluster's, which fills the first. -/
def State.lookup (s : State) (t va : Nat) (fetch : Bool) : Option TlbEntry × State :=
  let x := s.th t
  let l1 : TlbLoc := if fetch then .itlb (coreOf t) else .dtlb (coreOf t)
  match s.findTlb (fun e => e.hits l1 x.berth x.asid.toNat va) with
  | (some e, s) => (some e, s)
  | (none, s) =>
    match s.findTlb (fun e => e.hits (.l2 (clusterOf t)) x.berth x.asid.toNat va) with
    | (some e, s) => (some e, s.installTlb { e with loc := l1 })
    | (none, s) => (none, s)

/-- The output address of an entry. -/
def TlbEntry.outPa (e : TlbEntry) (va : Nat) : Nat := e.pa * 2 ^ e.size + va % 2 ^ e.size
def TlbEntry.outIpa (e : TlbEntry) (va : Nat) : Nat := e.ipa * 2 ^ e.size + va % 2 ^ e.size

/-- Are both stages off for a thread. -/
def Thread.flat (x : Thread) : Bool := !bit (x.now 0x41) 0 && !x.s2.en

/-- R167 to R178: translates one address of a thread; with both stages off the PA is the VA. -/
def State.translate (s : State) (t : Nat) (va : Nat) (acc : Acc) : Trans × State :=
  let x := s.th t
  if x.flat then (.hit va none, s)
  else
    match s.lookup t va (acc == .exec) with
    | (some e, s') =>
      match e.check acc (stPl x.ctx.st) (e.outIpa va) with
      | some f => (.fail f, s')
      | none => (.hit (e.outPa va) (some e), s')
    | (none, s') => (.miss, s')

/-- The physical address of a thread's data address where a TLB of its cluster holds it, with nothing filled. -/
def State.peekPa (s : State) (t va : Nat) : Option Nat :=
  let x := s.th t
  if x.flat then some va
  else (s.tlbs.find? (fun e => !e.bad && (e.hits (.dtlb (coreOf t)) x.berth x.asid.toNat va ||
    e.hits (.l2 (clusterOf t)) x.berth x.asid.toNat va))).map (fun e => e.outPa va)

/-! ## The walker of a cluster (R175, R182) -/

/-- Does a thread wait for a table walk. -/
def Thread.walking (x : Thread) : Bool :=
  (match x.mem with
   | .walk _ _ => true
   | .pattern _ _ => true
   | _ => false) || x.fetch == .walk

/-- What makes two walks of a cluster one: berth, ASID and page. -/
def Walk.key (w : Walk) : Nat × Nat × Nat := (w.berth, w.asid, w.page)

/-- The walks of a cluster in flight: the four oldest (R175). -/
def State.walksIn (s : State) (n : Nat) : List (Nat × Nat × Nat) :=
  (((s.walks.filter (fun w => clusterOf w.gtn == n && (s.th w.gtn).walking)).map Walk.key).eraseDups).take 4

/-- A thread's miss joins the walk of its page or becomes a walk of its own, behind the others (R175). -/
def State.startWalk (s : State) (t va : Nat) : State :=
  let x := s.th t
  { s with walks := s.walks.filter (fun w => w.gtn != t) ++ [{ gtn := t, berth := x.berth, asid := x.asid.toNat, page := va / 4096 }] }

/-- The walk of a thread, if it is in flight. -/
def State.walkOf (s : State) (t : Nat) : Option Walk :=
  (s.walks.find? (fun w => w.gtn == t)).filter (fun w => (s.walksIn (clusterOf t)).contains w.key)

/-- The walk of a thread's address (R175, R177). -/
def State.threadWalk (s : State) (t va : Nat) (acc : Acc) : Except WFail TlbEntry :=
  let x := s.th t
  let ctl := x.now 0x41
  s.walk (.l2 (clusterOf t)) x.berth x.asid.toNat
    (if bit ctl 0 then some (bits (x.now 0x40) 30 0 * 0x200) else none) (bit ctl 1) x.s2 va acc (stPl x.ctx.st)

/-- The cause of a failed translation (R151, R152, R169). `w` is a write, `f` a fetch; `addr` is the address for XFA. -/
def failCause (fail : WFail) (w f : Bool) (xra : Word) (addr : Nat) : Cause :=
  let xfa : Word := BitVec.ofNat 36 addr
  let d := b2n w * 2 ^ 7 + b2n f * 2 ^ 6
  let tfi (ipa : Nat) (s1w : Bool) : Option Word := some (BitVec.ofNat 36 (ipa / 0x1000 % 2 ^ 28 + b2n s1w * 2 ^ 28))
  match fail with
  | .s1t l => { cls := 5, detail := d + l * 16, target := 1, level := some 14, xra := xra, xfa := xfa }
  | .s1p l => { cls := 6, detail := d + l * 16, target := 1, level := some 14, xra := xra, xfa := xfa }
  | .nx => { cls := 3, detail := 0, target := 1, level := some 15, xra := xra, xfa := xfa }
  | .s2t l i b => { cls := 7, detail := d + l * 16, target := 2, level := some 15, xra := xra, xfa := xfa, tfi := tfi i b }
  | .s2p l i b =>
    { cls := 7, detail := d + l * 16 + 1, target := 2, level := some 15, xra := xra, xfa := xfa, tfi := tfi i b }
  | .lost _ _ _ => { cls := 9, detail := d, target := 1, level := some 12, xra := xra, xfa := xfa }
  | .range => { cls := 5, detail := d, target := 1, level := some 14, xra := xra, xfa := xfa }

/-- R151: a Bus error. -/
def busCause (w f : Bool) (reason : Nat) (xra : Word) (addr : Nat) : Cause :=
  { cls := 8, detail := b2n w * 2 ^ 7 + b2n f * 2 ^ 6 + reason, target := 1, level := some 12, xra := xra,
    xfa := BitVec.ofNat 36 addr }

/-- R151: Data lost. -/
def lostCause (w f : Bool) (xra : Word) (addr : Nat) : Cause :=
  { cls := 9, detail := b2n w * 2 ^ 7 + b2n f * 2 ^ 6, target := 1, level := some 12, xra := xra,
    xfa := BitVec.ofNat 36 addr }

/-- R181, R186: does a maintenance operation cover an entry; one that names an ASID reaches an IO entry only under that ASID. -/
def Tlbi.covers (o : Tlbi) (e : TlbEntry) : Bool :=
  (match o.berth with
   | some b => e.berth == b
   | none => true) &&
  (match o.asid with
   | some a => e.asid == some a || (o.withGlobal && e.asid == none && !e.loc.isIo)
   | none => true) &&
  !(o.nonGlobalOnly && e.asid == none) &&
  (match o.va with
   | some v => e.va == v / 2 ^ e.size
   | none => true) &&
  (match o.ipa with
   | some i => e.ipa == i / 2 ^ e.size
   | none => true)

/-- Removes the entries an operation covers, in every TLB. -/
def State.dropTlb (s : State) (o : Tlbi) : State := { s with tlbs := s.tlbs.filter (fun e => !o.covers e) }

/-- R182: an operation reaches every TLB: the entries it covers leave, and the walks in flight note it. -/
def State.invalidate (s : State) (o : Tlbi) : State :=
  { s.dropTlb o with walks := s.walks.map (fun w =>
      if (s.walksIn (clusterOf w.gtn)).contains w.key then { w with ops := w.ops ++ [o] } else w) }

/-- Removes every TLB entry of a berth (R168, R299, R314). -/
def State.invalidateBerth (s : State) (b : Nat) : State :=
  s.invalidate { gtn := none, berth := some b, asid := none, withGlobal := true, va := none, ipa := none }

/-- A thread's walk is over. -/
def State.endWalk (s : State) (t : Nat) : State := { s with walks := s.walks.filter (fun w => w.gtn != t) }

/-- R182: a thread's walk ends: what goes on with the entry `f`, then the operations that arrived during the walk let no entry of it
stay. -/
def State.walkDone (s : State) (t : Nat) (e : TlbEntry) (f : State → State) : State :=
  let ops := ((s.walks.find? (fun w => w.gtn == t)).map Walk.ops).getD []
  ops.foldl (fun s o => if o.covers e then s.dropTlb o else s) (f ((s.endWalk t).installTlb e))

/-- The memory request that a thread holds. -/
def Thread.request (x : Thread) : Option MReq :=
  match x.mem with
  | .walk r _ => some r
  | .stores r => some r
  | .line r => some r
  | .device r _ _ _ => some r
  | _ => none

/-- R182: is an access still to be performed that was translated through an entry an operation covers. -/
def State.viaPending (s : State) (o : Tlbi) : Bool :=
  let through (e : Option TlbEntry) : Bool := (e.map o.covers).getD false
  s.cores.any (fun k => k.2.sb.any (fun x => through x.via)) ||
  s.thr.any (fun x => ((x.2.request.map MReq.found).getD []).any (fun p => through p.via))

/-- R176: the poisoned descriptor that a walk read is logged. -/
def State.walkLost (s : State) (t : Option Nat) (berth : Nat) (f : WFail) : State :=
  match f with
  | .lost pa lvl s2 => s.logErr 1 4 t berth pa (b2n s2 + lvl * 16) 0
  | _ => s

/-- R184, R185: translates one address of an IO context of a block, by its micro-TLB, the IO TLB or a walk that fills both; an entry of a
stage-1 context always carries its ASID (R186). A poisoned descriptor is logged as a thread's walk logs it (R176, log 107). -/
def State.ioTranslate (s : State) (blk ctx : Nat) (c2 : S2) (addr : Nat) (acc : Acc) : Except WFail Nat × State :=
  let c := Tbl.get (fun _ => ({} : IoCtx)) s.ioctx ctx
  if (c.s1en ∧ 2 ^ 36 ≤ addr) ∨ 2 ^ 40 ≤ addr then (.error .range, s)
  else if !c.s1en ∧ !c2.en then (.ok addr, s)
  else
    let use (e : TlbEntry) (s : State) : Except WFail Nat × State :=
      match e.check acc 0 (e.outIpa addr) with
      | some f => (.error f, s)
      | none => (.ok (e.outPa addr), s)
    let tag : Option Nat := if c.s1en then some c.asid.toNat else none
    let here (l : TlbLoc) (e : TlbEntry) : Bool := e.hits l c.berth c.asid.toNat addr && e.asid == tag
    match s.findTlb (here (.micro blk)) with
    | (some e, s) => use e s
    | (none, s) =>
      match s.findTlb (here .io) with
      | (some e, s) => use e (s.installTlb { e with loc := .micro blk })
      | (none, s) =>
        match s.walk .io c.berth c.asid.toNat (if c.s1en then some (c.s1base.toNat * 0x200) else none) false c2
          addr acc 0 with
        | .error f => (.error f, s.walkLost none c.berth f)
        | .ok e =>
          let e := { e with asid := tag }
          use e ((s.installTlb e).installTlb { e with loc := .micro blk })

end Sys2Proof.Machine
end

