-- ==== Sys2Proof/Machine/Integrity.lean ====
section
/-! DEFINITION. Memory integrity (chapter 15): the SEC-DED code, what a DRAM read and write do, scrubbers, error injection,
and the commands of the chapter. -/

namespace Sys2Proof.Machine

/-! ## The code (R326) -/

/-- The number of ones of a number below 256. -/
def ones8 (n : Nat) : Nat := ((List.range 8).filter (fun i => n / 2 ^ i % 2 == 1)).length

/-- The columns of data bits 0 to 63 and check bits 0 to 7. -/
def eccColumns : List Nat :=
  ((List.range 256).filter (fun n => ones8 n == 3)) ++ (((List.range 256).filter (fun n => ones8 n == 5)).take 8) ++
  (List.range 8).map (fun i => 2 ^ i)

/-- The syndrome of a set of inverted bits. -/
def syndrome (f : BitVec 72) : Nat :=
  (eccColumns.zipIdx.filter (fun e => f.getLsbD e.2)).foldl (fun a e => Nat.xor a e.1) 0

/-- R326: what a syndrome says. -/
inductive Ecc where
  | good | data (j : Nat) | check (i : Nat) | poison | bad
deriving DecidableEq, Repr

/-- R326: decodes a syndrome. -/
def decodeSyn (syn : Nat) : Ecc :=
  if syn = 0 then .good
  else if syn = 0xFF then .poison
  else match (eccColumns.zipIdx.find? (fun e => e.1 == syn)).map Prod.snd with
    | none => .bad
    | some j => if j < 64 then .data j else .check (j - 64)

/-! ## Channels and captures (R328, R339, R340) -/

/-- The channel of a line (R328). The formula names eight channels and the spec gives none for a part with six or four: on such a part the
model keeps it, so that some lines fall in channels that the order code fuses off (log 108). -/
def channelOf (line : Nat) : Nat :=
  let pa := line * 64
  let f := fun (lo : Nat) => pa / 2 ^ lo % 8
  Nat.xor (Nat.xor (f 6) (f 14)) (Nat.xor (f 22) (f 30))

/-- The page of a DRAM channel. -/
def chPage (c : Nat) : Nat := 0x1042002000 + c * 0x1000

/-- R340: is a KIND an uncorrected one. -/
def kindHard (k : Nat) : Bool := (decide (2 ≤ k) && decide (k ≤ 5)) || k == 8

/-- A source register of R340: class, kind, syndrome, word, Q and UNIT. -/
def eccSrc (cls kind syn word q unit : Nat) : Nat := cls * 2 ^ 28 + kind * 2 ^ 24 + syn * 2 ^ 16 + word * 2 ^ 13 + q * 2 ^ 12 + unit * 2 ^ 8

/-- R340: an error is recorded and signalled; the source register `src` and the address behind it capture `v` where no record in `served`
had a flag, or where an uncorrected kind finds a corrected one. -/
def State.eccEvent (s : State) (served : List Nat) (at_ flags sig src v line : Nat) : State :=
  let quiet := served.all (fun r => bits (s.reg r) 18 0 == 0)
  let soft := !kindHard (bits (s.reg src) 27 24)
  let s := s.record at_ flags (some sig)
  if quiet || (kindHard (v / 2 ^ 24 % 16) && soft) then
    s.setRegs [(src, BitVec.ofNat 32 v), (src + 4, BitVec.ofNat 32 (line * 64)), (src + 8, BitVec.ofNat 32 (line * 64 / 2 ^ 32))]
  else s

/-- R340: an error of a channel: `evr` 0 CE, 1 UE, with its flags. -/
def State.dmcEvent (s : State) (line evr flags kind syn word cls : Nat) : State :=
  let c := channelOf line
  let pg := chPage c
  s.eccEvent [pg, pg + 4] (pg + 4 * evr) flags (80 + 6 * c + evr) (pg + 0x18) (eccSrc cls kind syn word 0 0) line

/-- R340: an error of an SLC slice (`q` 0) or a quay bank (`q` 1). -/
def State.fabMemEvent (s : State) (q unit line flags kind syn word cls : Nat) : State :=
  s.eccEvent ((List.range 24).map (fun k => 0x1043003000 + 4 * k)) (0x1043003000 + 0x40 * q + 4 * unit) flags (131 + 16 * q + unit)
    0x1043003060 (eccSrc cls kind syn word q unit) line

/-- R340: an error of the caches or store buffers of cluster `n`. -/
def State.clcL2Event (s : State) (n core line flags kind syn word cls : Nat) : State :=
  let pg := 0x1040007000 + n * 0x100000
  s.eccEvent [pg] pg flags (8 * n + 4) (pg + 8) (eccSrc cls kind syn word 0 (core % 4)) line

/-- What a read of a word of DRAM or quay SRAM finds (R334, R335): corrected (in a check bit), corrected by the scrubber, uncorrectable, so
by the scrubber, or a poison mark. -/
inductive EccHow where
  | corr (chk : Bool) | scrubbed | lost | scrubLost | psn
deriving DecidableEq, Repr

/-- Its KIND (R340). -/
def EccHow.kind : EccHow → Nat
  | .corr _ => 0 | .scrubbed => 1 | .lost => 2 | .scrubLost => 3 | .psn => 4

/-- Is a line one of quay SRAM (R191), and its bank (R331). -/
def State.quayLine (_ : State) (line : Nat) : Bool := decide (0x1000000000 ≤ line * 64 ∧ line * 64 < 0x1001000000)
def bankOf (line : Nat) : Nat := line % 8

/-- R334, R335, R342: what a read of word `i` of a line found is recorded and counted. -/
def State.memEvent (s : State) (line i cls syn : Nat) (e : EccHow) : State :=
  let s := if s.quayLine line then
      let fl := match e with
        | .corr _ => 2 ^ 18
        | .scrubbed => 2 ^ 17
        | .psn => 2 ^ 15
        | _ => 2 ^ 16
      (s.fabMemEvent 1 (bankOf line) line fl e.kind syn i cls).count (0x30 + bankOf line) (e.kind + 1)
    else
      let fl := match e with
        | .corr chk => (0, 2 ^ 18 + b2n chk * 2 ^ 16)
        | .scrubbed => (0, 2 ^ 17)
        | .lost => (1, 2 ^ 18)
        | .scrubLost => (1, 2 ^ 17)
        | .psn => (1, 2 ^ 16)
      (s.dmcEvent line fl.1 fl.2 e.kind syn i cls).count (0x10 + channelOf line) (e.kind + 1)
  s.count 0x40 (match e with
    | .corr _ => 1
    | .scrubbed => 1
    | .psn => 3
    | _ => 2)

/-- The bits of a word that are stored inverted, by the copy that holds them and the word: 0 memory, 1 + a the L2 of cluster a, 9 the SLC. -/
def copyKey (k w : Nat) : Nat := k * 2 ^ 40 + w

/-- The bits of a word that are stored inverted. -/
def State.flips (s : State) (w : Nat) : BitVec 72 := Tbl.get (fun _ => (0 : BitVec 72)) s.dram.flips w

/-- Sets them. -/
def State.setFlips (s : State) (w : Nat) (f : BitVec 72) : State :=
  { s with dram := { s.dram with flips := Tbl.set (fun _ => (0 : BitVec 72)) s.dram.flips w f } }

/-- R334: an uncorrectable word: its data is as stored and it is marked poisoned. -/
def State.wordLost (s : State) (w : Nat) (f : BitVec 72) : State :=
  let d := s.rdLe (w * 8) 8
  (((s.wrBytes (w * 8) (leBytes 8 (Nat.xor d (f.toNat % 2 ^ 64)))).setPoison (w * 8) true).setFlips w 0)

/-- Is a line in installed DRAM, and in a protected region (R329). -/
def State.dramLine (s : State) (line : Nat) : Bool := decide (line * 64 < s.dramCap)
def State.protLine (s : State) (line : Nat) : Bool := s.dramLine line && s.prot.getLsbD (line * 64 / 0x40000000)

/-- R334, R335: one word of a line is read, by a requester class or by the scrubber. -/
def State.eccWord (s : State) (line cls : Nat) (scrub : Bool) (i : Nat) : State :=
  let w := line * 8 + i
  let f := s.flips w
  let syn := syndrome f
  if f ≠ 0 then
    match decodeSyn syn with
    | .good => s
    | .poison => if scrub then s.wordLost w f else (s.wordLost w f).memEvent line i cls syn .psn
    | .bad => (s.wordLost w f).memEvent line i cls syn (if scrub then .scrubLost else .lost)
    | .check _ => if scrub then (s.setFlips w 0).memEvent line i cls syn .scrubbed else s.memEvent line i cls syn (.corr true)
    | .data _ => if scrub then (s.setFlips w 0).memEvent line i cls syn .scrubbed else s.memEvent line i cls syn (.corr false)
  else if s.poisoned (w * 8) && !scrub then s.memEvent line i cls 0xFF .psn
  else s

/-- R334: a line is read from DRAM or quay SRAM. -/
def State.dramRead (s : State) (line cls : Nat) : State :=
  let s := if s.dramLine line then s.perfEvent (56 + channelOf line) 0x301 1 none else s
  if s.protLine line || s.quayLine line then (List.range 8).foldl (fun s i => s.eccWord line cls false i) s else s

/-- R331: a line is written to quay SRAM: its check bytes are correct again. -/
def State.quayWrite (s : State) (line : Nat) : State := (List.range 8).foldl (fun s i => s.setFlips (line * 8 + i) 0) s

/-- R331, R332, R338: a line is written to DRAM: its check bytes are correct again, an armed injection acts, and an
unprotected region drops poison marks. -/
def State.dramWrite (s : State) (line : Nat) : State :=
  let s := if s.dramLine line then s.perfEvent (56 + channelOf line) 0x302 1 none else s
  if !s.dramLine line then s
  else if s.protLine line then
    let s := (List.range 8).foldl (fun s i => s.setFlips (line * 8 + i) 0) s
    let a := chPage (channelOf line) + 0x30
    let inj := s.reg a
    if bit inj 31 then
      let f : BitVec 72 := BitVec.ofNat 72 (2 ^ bits inj 6 0)
      let f := if bit inj 30 then f ||| BitVec.ofNat 72 (2 ^ bits inj 13 7) else f
      (s.setReg a (putBit inj 31 false)).setFlips (line * 8) f
    else s
  else if (List.range 8).any (fun i => s.poisoned (line * 64 + 8 * i)) then
    let c := channelOf line
    let s := s.poisonWords (line * 64) false 8
    let s := ((s.dmcEvent line 1 (2 ^ 15) 5 0 0 0).count (0x10 + c) 6).count 0x40 12
    s.logErr 3 1 none 0 (line * 64) c 0
  else s

end Sys2Proof.Machine
end

