-- ==== Sys2Proof/Machine/Cache.lean ====
section
/-! DEFINITION. The sets and ways of the caches (R189) and their replacement: tree pseudo-LRU, and one not-recently-used bit per way in
the SLC. What a cache holds stands in the tables of the fabric; a set says which line sits in which way. -/

namespace Sys2Proof.Machine

/-- The caches of R189 and R215. -/
inductive CacheId where
  | l1i (core : Nat) | l1d (core : Nat) | l2 (a : Nat) | slc (slice : Nat) | agent (a : Nat)
deriving DecidableEq, Repr

/-- Their sets (R189, R215). -/
def CacheId.sets : CacheId → Nat
  | .l1i _ => 256
  | .l1d _ => 256
  | .l2 _ => 4096
  | .slc _ => 4096
  | .agent a => if a = 10 then 64 else if a = 11 then 256 else 128

/-- Their ways (R189, R215). -/
def CacheId.ways : CacheId → Nat
  | .l1i _ => 4
  | .l1d _ => 4
  | .l2 _ => 16
  | .slc _ => 12
  | .agent a => if a = 9 ∨ a = 11 then 8 else 4

/-- The set of a line: PA[21:10] in a slice, else the low bits of the line address (R189; for agents 8 to 12 log 109). -/
def CacheId.index (c : CacheId) (line : Nat) : Nat :=
  match c with
  | .slc _ => line / 16 % 4096
  | _ => line % c.sets

/-- The key of a set. -/
def CacheId.key (c : CacheId) (i : Nat) : Nat :=
  (match c with
   | .l1i n => n
   | .l1d n => 32 + n
   | .l2 a => 64 + a
   | .slc n => 72 + n
   | .agent a => 88 + a) * 4096 + i

/-- Is its replacement the tree (R189). -/
def CacheId.tree : CacheId → Bool
  | .slc _ => false
  | _ => true

/-- The tree's bits after a use of the leaf under `node`: each node on the path points away from it (`n` nodes remain). -/
def treeUse : Nat → Nat → Nat → Nat
  | 0, _, bs => bs
  | n + 1, node, bs =>
    if node ≤ 1 then bs
    else
      let p := node / 2
      let off := if Nat.testBit bs p then bs - 2 ^ p else bs
      treeUse n p (if node % 2 = 0 then off + 2 ^ p else off)

/-- The way that the tree's bits point to. -/
def treeVictim (ways bs : Nat) : Nat → Nat → Nat
  | 0, node => node - ways
  | n + 1, node => if ways ≤ node then node - ways else treeVictim ways bs n (2 * node + b2n (Nat.testBit bs node))

/-- R189: the replacement bits after a use of a way. -/
def CacheId.use (c : CacheId) (bs w : Nat) : Nat :=
  if c.tree then treeUse 4 (c.ways + w) bs
  else
    let b := Nat.lor bs (2 ^ w)
    if b = 2 ^ c.ways - 1 then 2 ^ w else b

/-- R189: the way to replace. -/
def CacheId.victim (c : CacheId) (bs : Nat) : Nat :=
  if c.tree then treeVictim c.ways bs 4 1
  else ((List.range c.ways).find? (fun w => !Nat.testBit bs w)).getD 0

/-- A set of a cache. -/
def State.cset (s : State) (c : CacheId) (line : Nat) : CSet := Tbl.get (fun _ => ({} : CSet)) s.coh.sets (c.key (c.index line))

/-- The line in a way of a set. -/
def CSet.line (x : CSet) (w : Nat) : Option Nat := if x.ways.getD w 0 = 0 then none else some (x.ways.getD w 0 - 1)

/-- What a use of a line does to its set. -/
inductive CUse where
  | hit (x : CSet)
  | fill (x : CSet) (out : Option Nat)
  | full
deriving DecidableEq, Repr

/-- A use of a line: the line that has a way keeps it; else it takes a free way, or that of the victim; `live` says which lines the cache
still holds, `free` which of them it may give up. A victim that it may not give up is passed over for the next way that it may. -/
def CacheId.touch (c : CacheId) (x : CSet) (line : Nat) (live free : Nat → Bool) : CUse :=
  let n := c.ways
  let put (w : Nat) : CSet := { ways := (List.range n).map (fun i => if i = w then line + 1 else x.ways.getD i 0), bits := c.use x.bits w }
  match (List.range n).find? (fun w => x.line w == some line) with
  | some w => .hit (put w)
  | none =>
    match (List.range n).find? (fun w => match x.line w with
      | some l => !live l
      | none => true) with
    | some w => .fill (put w) none
    | none =>
      match ((List.range n).map (fun i => (c.victim x.bits + i) % n)).find? (fun w => match x.line w with
        | some l => free l
        | none => true) with
      | some w => .fill (put w) (x.line w)
      | none => .full

/-- Writes a set. -/
def State.setCset (s : State) (c : CacheId) (line : Nat) (x : CSet) : State :=
  { s with coh := { s.coh with sets := Tbl.set (fun _ => ({} : CSet)) s.coh.sets (c.key (c.index line)) x } }

/-- The words of a copy with stored errors: the word's place in its line, its syndrome, and whether it is correctable (R204). -/
def State.copyErrs (s : State) (k line : Nat) : List (Nat × Nat × Bool) :=
  (List.range 8).filterMap (fun i =>
    let f := s.flips (copyKey k (line * 8 + i))
    if f = 0 then none
    else match decodeSyn (syndrome f) with
      | .good => none
      | .data _ => some (i, syndrome f, true)
      | .check _ => some (i, syndrome f, true)
      | _ => some (i, syndrome f, false))

/-- A copy that is gone keeps no errors. -/
def State.dropFlips (s : State) (k line : Nat) : State :=
  { s with dram := { s.dram with flips := s.dram.flips.filter (fun e => e.1 / 8 != k * 2 ^ 37 + line) } }

end Sys2Proof.Machine
end

