-- ==== Sys2Proof/Machine/Coherence.lean ====
section
/-! DEFINITION. The coherence protocol (chapter 09): agents, homes, messages in flight, poison, dead agents. The coherent
value of every byte is in State.mem (log 10); this file moves the states and the messages. -/

namespace Sys2Proof.Machine

/-- The home slice of a line (R190). -/
def sliceOf (line : Nat) : Nat :=
  let n (k : Nat) : Nat := line / 2 ^ (4 * k) % 16
  (List.range 8).foldl (fun x k => Nat.xor x (n k)) 0

/-- The directory set of a line (R216): slice and PA[21:10]. -/
def dirSet (line : Nat) : Nat × Nat := (sliceOf line, line / 16 % 4096)

/-- The key of a line in an agent's or a core's table. -/
def lineKey (who line : Nat) : Nat := who * 2 ^ 34 + line

/-- A line as an agent holds it. -/
def State.aline (s : State) (a line : Nat) : ALine := Tbl.get (fun _ => ({} : ALine)) s.coh.agents (lineKey a line)

/-- Changes the coherent fabric. -/
def State.modCoh (s : State) (f : Coh → Coh) : State := { s with coh := f s.coh }

/-- Sets a line of an agent. -/
def State.setAline (s : State) (a line : Nat) (x : ALine) : State :=
  s.modCoh (fun c => { c with agents := Tbl.set (fun _ => ({} : ALine)) c.agents (lineKey a line) x })

/-- The directory record of a line. -/
def State.home (s : State) (line : Nat) : Home := Tbl.get (fun _ => ({} : Home)) s.coh.homes line

/-- Sets a directory record. -/
def State.setHome (s : State) (line : Nat) (x : Home) : State :=
  s.modCoh (fun c => { c with homes := Tbl.set (fun _ => ({} : Home)) c.homes line x })

/-- Sends messages (R217). -/
def State.send (s : State) (m : List Msg) : State := s.modCoh (fun c => { c with msgs := c.msgs ++ m })

/-- Is an agent dead (R232). -/
def State.agentDead (s : State) (a : Nat) : Bool := s.coh.dead.getLsbD a

/-- Does an agent take no part: dead, or the L2 of a fused cluster (R215). -/
def State.agentOut (s : State) (a : Nat) : Bool := s.agentDead a || (decide (a < 8) && s.clusterFused a)

/-- The requests that an agent makes (R215): an L2 no RdOnce, the harbourmaster no GetMZ. -/
def agentAsks (a : Nat) (k : MsgKind) : Bool := !(k == .rdOnce && decide (a < 8)) && !(k == .getMZ && a == 8)

/-- Forward-channel messages (R217). -/
def MsgKind.forward : MsgKind → Bool
  | .fwdGetS => true | .fwdRdOnce => true | .fwdGetM => true | .fwdGetMZ => true | .inv => true | .recall => true
  | .downgrade => true | .putAck => true | .putStale => true | .done => true
  | _ => false

/-- Removes the first message that satisfies a test. -/
def takeFirst (f : Msg → Bool) : List Msg → Option (Msg × List Msg)
  | [] => none
  | m :: r =>
    if f m then some (m, r)
    else match takeFirst f r with
      | some (x, r') => some (x, m :: r')
      | none => none

/-- The message of a kind between an agent and a line's home, if it is the next to be delivered: forward-channel messages
from one home to one agent keep their order (R217). -/
def State.arrival (s : State) (k : MsgKind) (a line : Nat) (toHome : Bool) : Option (Msg × State) :=
  let same (m : Msg) : Bool := m.kind == k && m.agent == a && m.line == line && m.toHome == toHome
  let ready := if k.forward then
      (match s.coh.msgs.find? (fun m => m.kind.forward && m.agent == a && sliceOf m.line == sliceOf line) with
       | some m => m.kind == k && m.line == line
       | none => false)
    else true
  if ready then
    match takeFirst (fun m => if k = .inv then m.kind == k && m.agent == a && m.line == line else same m) s.coh.msgs with
    | some (m, r) => some (m, s.modCoh (fun c => { c with msgs := r }))
    | none => none
  else none

/-- The bytes that a copy of a flash line holds from before the flash changed (R211); none where they are those of the flash. Copies 0 to
12 are the agents', 15 is the SLC's. -/
def State.staleOf (s : State) (k line : Nat) : List Byte := Tbl.get (fun _ => ([] : List Byte)) s.coh.flashOld (lineKey k line)

/-- Sets them. -/
def State.setStale (s : State) (k line : Nat) (bs : List Byte) : State :=
  s.modCoh (fun c => { c with flashOld := Tbl.set (fun _ => ([] : List Byte)) c.flashOld (lineKey k line) bs })

/-- R194: a line leaves a core's L1I and L1D. -/
def State.leaveL1 (s : State) (core line : Nat) : State :=
  s.modCoh (fun h => { h with
    l1d := Tbl.del h.l1d (lineKey core line), l1i := Tbl.del h.l1i (lineKey core line),
    l1dBad := Tbl.del h.l1dBad (lineKey core line), l1iBad := Tbl.del h.l1iBad (lineKey core line) })

/-- Is a line in a core's L1D. -/
def State.inL1d (s : State) (core line : Nat) : Bool := Tbl.get (fun _ => false) s.coh.l1d (lineKey core line)

/-- A line leaves a core's L1D. -/
def State.dropL1d (s : State) (core line : Nat) : State :=
  s.modCoh (fun h => { h with l1d := Tbl.del h.l1d (lineKey core line), l1dBad := Tbl.del h.l1dBad (lineKey core line) })

/-- R193: a load uses a line of the core's L1D, or fills it. -/
def State.fillL1d (s : State) (core line : Nat) : State :=
  let c : CacheId := .l1d core
  let put (s : State) (x : CSet) : State :=
    (if s.inL1d core line then s
     else s.modCoh (fun h => { h with l1d := Tbl.set (fun _ => false) h.l1d (lineKey core line) true })).setCset c line x
  match c.touch (s.cset c line) line (fun l => s.inL1d core l) (fun _ => true) with
  | .hit x => put s x
  | .fill x none => put s x
  | .fill x (some v) => put (s.dropL1d core v) x
  | .full => s

/-- R192, R194: an L2 that leaves a line invalidates it in the cluster's L1s and clears the links of its threads (R127). -/
def State.leaveL2 (s : State) (a line : Nat) : State :=
  let s := s.setStale a line []
  if a < 8 then
    let s := s.dropFlips (1 + a) line
    let s := [0, 1, 2, 3].foldl (fun s c => s.leaveL1 (4 * a + c) line) s
    (s.thr.map Prod.fst).foldl (fun s t => if t / 128 = a then s.modTh t (fun x => x.unlinkFrom line) else s) s
  else s

/-- The place of a state in the table of R220 (R304). -/
def LSt.order : LSt → Nat
  | .I => 0 | .S => 1 | .E => 2 | .O => 3 | .M => 4 | .ISd => 5 | .IMad => 6 | .IMa => 7 | .SMad => 8 | .SMa => 9
  | .OMa => 10 | .MIa => 11 | .OIa => 12 | .EIa => 13 | .SIa => 14 | .IIa => 15

/-- The place of a message in the table of R218 (R304), each message of a row in its turn (log 110). -/
def MsgKind.order : MsgKind → Nat
  | .getS => 0 | .getM => 1 | .getMZ => 2 | .rdOnce => 3 | .clean => 4 | .flush => 5 | .putS => 6 | .putE => 7
  | .putM => 8 | .putO => 9 | .unblock => 10 | .fwdGetS => 11 | .fwdRdOnce => 12 | .fwdGetM => 13 | .fwdGetMZ => 14
  | .inv => 15 | .recall => 16 | .downgrade => 17 | .data => 18 | .grant => 19 | .invAck => 20 | .recallData => 21
  | .putAck => 22 | .putStale => 23 | .done => 24

/-- R221: an impossible combination is discarded and reported. -/
def State.badCombination (s : State) (k : MsgKind) (a line : Nat) : State :=
  s.logErr 0x04 0x02 none 0 (line * 64) (a + (s.aline a line).st.order * 16 + k.order * 256) 0

/-- Is a message a Clean or Flush, which an agent waits for without a state of its own. -/
def MsgKind.maint (k : MsgKind) : Bool := k == .clean || k == .flush

/-- The requests that wait or are worked on at a home. -/
def Home.requests (h : Home) : List HReq :=
  h.queue ++ (match h.busy with
    | .bm q _ => [q]
    | .bw q => [q]
    | .br (some q) _ => [q]
    | .full q => [q]
    | _ => [])

/-- The Cleans and Flushes of an agent that a home has not answered with a Done that arrived. -/
def State.maintOut (s : State) (a slice : Nat) : Nat :=
  (s.coh.msgs.filter (fun m => (m.kind.maint || m.kind == .done) && m.agent == a && sliceOf m.line == slice)).length +
  ((s.coh.homes.filter (fun e => sliceOf e.1 == slice)).flatMap (fun e => e.2.requests.filter (fun q => q.agent == a && q.kind.maint))).length

/-- The requests an agent has outstanding at a home (R217). -/
def State.outstanding (s : State) (a slice : Nat) : Nat :=
  (s.coh.agents.filter (fun e => e.1 / 2 ^ 34 == a && sliceOf (e.1 % 2 ^ 34) == slice &&
    (e.2.st == .ISd || e.2.st == .IMad || e.2.st == .IMa || e.2.st == .SMad || e.2.st == .SMa || e.2.st == .OMa))).length +
  s.maintOut a slice

/-- R221: the state an agent moves to when it sends a request for a line; none where it sends none. -/
def reqState (st : LSt) (k : MsgKind) : Option LSt :=
  match st, k with
  | .I, .getS => some .ISd
  | .I, .rdOnce => some .ISd
  | .I, .getM => some .IMad
  | .I, .getMZ => some .IMad
  | .S, .getM => some .SMad
  | .O, .getM => some .OMa
  | _, _ => none

/-- A performance event of an L2 (R482). -/
def State.l2Perf (s : State) (a code : Nat) : State := if a < 8 then s.perfEvent (32 + a) code 1 none else s

/-- A performance event of an SLC slice (R482). -/
def State.slcPerf (s : State) (line code : Nat) : State := s.perfEvent (40 + sliceOf line) code 1 none

/-- Does an agent hold a line in one of the stable states. -/
def LSt.holds (x : LSt) : Bool := x == .S || x == .E || x == .O || x == .M

/-- Is a line of an agent on its way out: its Put has been sent. -/
def LSt.leaving (x : LSt) : Bool := x == .MIa || x == .OIa || x == .EIa || x == .SIa || x == .IIa

/-! ## Errors of stored copies (R204) and poison (R229, R234) -/

/-- The address of FAB_DEAD_EVR's page. -/
def fabDirPage : Nat := 0x1043002000

/-- R229, R234: a line becomes poisoned; the poison record captures agent, home and line of the first. -/
def State.poisonLine (s : State) (line agent flag : Nat) : State :=
  let s := s.poisonWords (line * 64) true 8
  s.recordCap (fabDirPage + 0x10) flag (some 129)
    [(fabDirPage + 0x14, BitVec.ofNat 32 (agent * 2 ^ 28 + sliceOf line * 2 ^ 24)),
     (fabDirPage + 0x18, BitVec.ofNat 32 (line * 64 % 2 ^ 32)), (fabDirPage + 0x1C, BitVec.ofNat 32 (line * 64 / 2 ^ 32))]

/-- R204, R335: one erroneous word (place, syndrome, correctable) of a copy is read: copy 1 + a in the L2 of cluster a, 9 in the SLC. Answers
whether a clean copy is to be given up. A copy of the SLC names agent 0 in FAB_POISON_SRC (log 107). -/
def State.copyWord (s : State) (k line core cls : Nat) (scrub dirty : Bool) (e : Nat × Nat × Bool) : Bool × State :=
  let how : Nat × Nat × Nat × Nat :=
    if e.2.2 then (if scrub then (2 ^ 17, 1, 2, 1) else (2 ^ 18, 0, 1, 1))
    else if dirty then (2 ^ 15, if scrub then 3 else 2, 4, 2)
    else (2 ^ 16, 6, 3, 1)
  let s := if k = 9 then (s.fabMemEvent 0 (sliceOf line) line how.1 how.2.1 e.2.1 e.1 cls).count (0x20 + sliceOf line) how.2.2.1
    else (s.clcL2Event (k - 1) core line how.1 how.2.1 e.2.1 e.1 cls).count (k - 1) (how.2.2.1 + 5)
  let s := s.count 0x40 how.2.2.2
  let s := if e.2.2 && !scrub then s else s.setFlips (copyKey k (line * 8 + e.1)) 0
  if e.2.2 then (false, s)
  else if dirty then (false, s.poisonLine line (if k = 9 then 0 else k - 1) (2 ^ 17))
  else (true, s)

/-- R204: a copy of a line is read, word by word. -/
def State.copyRead (s : State) (k line core cls : Nat) (scrub dirty : Bool) : Bool × State :=
  (s.copyErrs k line).foldl (fun r e => let x := r.2.copyWord k line core cls scrub dirty e; (r.1 || x.1, x.2)) (false, s)

/-- Is the copy of an agent the only valid one (R204). -/
def LSt.only (x : LSt) : Bool := x == .M || x == .O || x == .OMa || x == .MIa || x == .OIa

/-- R204: an L2 reads its copy of a line to answer someone else: what it delivers is correct or poisoned. -/
def State.l2Out (s : State) (a line : Nat) : State :=
  if a < 8 then (s.copyRead (1 + a) line 0 0 false (s.aline a line).st.only).2 else s

/-! ## Requests and evictions -/

/-- R221: the eviction of a line an agent holds. -/
def State.evict (s : State) (a line : Nat) : State :=
  let x := s.aline a line
  let go (k : MsgKind) (st : LSt) : State :=
    (((s.l2Out a line).setAline a line { x with st := st, due := false }).leaveL2 a line).send
      [{ kind := k, agent := a, line := line, req := a }]
  if s.agentOut a then s
  else match x.st with
    | .S => go .putS .SIa
    | .E => go .putE .EIa
    | .O => (go .putO .OIa).l2Perf a 0x103
    | .M => (go .putM .MIa).l2Perf a 0x103
    | _ => s

/-- The cache of an agent (R215). -/
def agentCache (a : Nat) : CacheId := if a < 8 then .l2 a else .agent a

/-- R189, R194: an agent's cache makes a way for a line, or marks its use; a line of the set that it holds in a stable state may have to
leave. None where every way waits for a transaction. -/
def State.agentWay (s : State) (a line : Nat) : Option State :=
  let c := agentCache a
  match c.touch (s.cset c line) line (fun l => let x := (s.aline a l).st; x != .I && !x.leaving) (fun l => (s.aline a l).st.holds) with
  | .hit x => some (s.setCset c line x)
  | .fill x none => some (s.setCset c line x)
  | .fill x (some v) => some ((s.evict a v).setCset c line x)
  | .full => none

/-- R217, R221: an agent sends a request where its state and its four outstanding requests allow. -/
def State.agentSend (s : State) (k : MsgKind) (a line : Nat) : State :=
  let x := s.aline a line
  if s.agentOut a || !agentAsks a k || decide (4 ≤ s.outstanding a (sliceOf line)) then s
  else match reqState x.st k, s.agentWay a line with
    | some st, some s =>
      ((s.setAline a line { st := st, once := k == .rdOnce }).send
        [{ kind := k, agent := a, line := line, req := a }]).l2Perf a 0x102
    | _, _ => s

/-- R219, R222: an agent sends Clean or Flush for a line, where it has no Put of the line outstanding; before a Flush it gives up its own
copy. Answers whether it was sent. -/
def State.sendMaint (s : State) (k : MsgKind) (a line : Nat) : Bool × State :=
  let st := (s.aline a line).st
  if s.agentOut a || decide (4 ≤ s.outstanding a (sliceOf line)) || st.leaving then (false, s)
  else if k = .flush ∧ st ≠ .I then (false, s.evict a line)
  else (true, s.send [{ kind := k, agent := a, line := line, req := a }])

/-- An Inv to each agent of a set (R224). -/
def invAll (sh : BitVec 13) (line req : Nat) (toHome : Bool) : List Msg :=
  ((List.range 13).filter (fun a => sh.getLsbD a)).map
    (fun a => { kind := .inv, agent := a, line := line, req := req, toHome := toHome })

/-- The number of agents in a set. -/
def shCount (sh : BitVec 13) : Nat := ((List.range 13).filter (fun a => sh.getLsbD a)).length

/-- A set with an agent, and without it. -/
def shAdd (sh : BitVec 13) (a : Nat) : BitVec 13 := putBit sh a true
def shDel (sh : BitVec 13) (a : Nat) : BitVec 13 := putBit sh a false

/-- The SLC state of a line. -/
def State.slcOf (s : State) (line : Nat) : Slc := Tbl.get (fun _ => Slc.absent) s.coh.slc line

/-- Is a line one of the flash windows. -/
def flashLine (line : Nat) : Bool := decide (0x1800000000 ≤ line * 64 ∧ line * 64 < 0x1900000000)

/-- The SLC state of a line becomes `x`: a line that is dirty no longer has been written to DRAM (R195, R331), one that is gone has no errors
and no old bytes. -/
def State.slcMove (s : State) (line : Nat) (x : Slc) : State :=
  let was := s.slcOf line
  let s := s.modCoh (fun c => { c with slc := Tbl.set (fun _ => Slc.absent) c.slc line x })
  let s := if was = .dirty ∧ x ≠ .dirty then s.dramWrite line else s
  if x = .absent then (s.dropFlips 9 line).setStale 15 line [] else s

/-- Sets the SLC state of a line. A slice never holds a quay line, whose data go to quay SRAM, and holds flash lines clean only (R191). A
line that needs a way may take that of another, which is written to DRAM if it is dirty (R195). -/
def State.setSlc (s : State) (line : Nat) (x : Slc) : State :=
  if s.quayLine line then (if x = .dirty then s.quayWrite line else s)
  else
    let x := if flashLine line ∧ x = .dirty then .clean else x
    let s := if x = .dirty then s.dropFlips 9 line else s
    if x = .absent then s.slcMove line .absent
    else
      let c : CacheId := .slc (sliceOf line)
      match c.touch (s.cset c line) line (fun l => s.slcOf l != .absent) (fun _ => true) with
      | .hit y => (s.setCset c line y).slcMove line x
      | .fill y none => (s.setCset c line y).slcMove line x
      | .fill y (some v) => ((s.slcMove v .absent).setCset c line y).slcMove line x
      | .full => s

/-- A use of a line that a slice holds (R189). -/
def State.slcUse (s : State) (line : Nat) : State :=
  let c : CacheId := .slc (sliceOf line)
  match c.touch (s.cset c line) line (fun l => s.slcOf l != .absent) (fun _ => true) with
  | .hit y => s.setCset c line y
  | _ => s

/-- R195, R204: a home reads a line for an agent: from the SLC, or from DRAM, quay SRAM or flash, which the SLC then holds. -/
def State.homeRead (s : State) (line cls : Nat) : State :=
  if s.slcOf line = .absent then (s.dramRead line cls).setSlc line .clean
  else
    let r := s.copyRead 9 line 0 cls false (s.slcOf line == .dirty)
    (if r.1 then r.2.dramRead line cls else r.2).slcUse line

/-- Does a line have a directory entry, or is one kept for it (R216). -/
def Home.used (h : Home) : Bool :=
  h.st != .I || (match h.busy with
    | .bm q _ => q.kind != .rdOnce
    | .br _ _ => true
    | _ => false)

/-- What a new directory entry needs (R216): nothing, the recall of a line, or a wait while all are busy. -/
inductive DirNeed where
  | room | recall (line : Nat) | wait
deriving DecidableEq, Repr

/-- R216: of a full set, the entry that was used least recently and is not busy. -/
def State.dirNeed (s : State) (line : Nat) : DirNeed :=
  let mine := s.coh.homes.filter (fun e => dirSet e.1 == dirSet line && e.2.used)
  if mine.length < 16 then .room
  else
    let idle := mine.filter (fun e => e.2.busy == .idle && e.2.queue == [])
    match idle.foldl (fun (best : Option (Nat × Home)) e =>
      match best with
      | some b => if e.2.stamp < b.2.stamp then some e else best
      | none => some e) none with
    | some e => .recall e.1
    | none => .wait

/-- Ends BR or a transaction with nothing owed (R224): a Flush drops the SLC line, a Clean or Flush is Done, a directory
recall lets the waiting request go on. Answers the line whose request may now be taken again. -/
def State.finishBr (s : State) (line : Nat) (q : Option HReq) (forLine : Nat) : State × Option Nat :=
  let h := s.home line
  let s := s.setHome line { h with busy := .idle, owed := 0 }
  match q with
  | some r =>
    let s := if r.kind = .flush then s.setSlc line .absent
             else if s.slcOf line = .dirty then s.setSlc line .clean else s
    (if s.agentDead r.agent then s else s.send [{ kind := .done, agent := r.agent, line := line, req := r.agent }], none)
  | none => (s, some forLine)

/-- R224, R228: starts a recall of a line for a Flush or for a directory entry. -/
def State.startRecall (s : State) (line : Nat) (q : Option HReq) (forLine : Nat) : State × Option Nat :=
  let h := s.home line
  match h.st with
  | .I => s.finishBr line q forLine
  | .S =>
    ((s.setHome line { h with st := .I, sh := 0, busy := .br q forLine, owed := shCount h.sh }).send
      (invAll h.sh line 0 true), none)
  | .X =>
    ((s.setHome line { h with st := .I, busy := .br q forLine, owed := 1 }).send
      [{ kind := .recall, agent := h.owner, line := line }], none)
  | .O =>
    ((s.setHome line { h with st := .I, sh := 0, busy := .br q forLine, owed := 1 + shCount h.sh }).send
      ({ kind := .recall, agent := h.owner, line := line } :: invAll h.sh line 0 true), none)

/-- R224: a home acts on the request it takes. The state after a request that moves the line without a new entry. -/
def State.homeAct (s : State) (line : Nat) (q : HReq) : State :=
  let r := q.agent
  let h := { s.home line with stamp := s.coh.stamp }
  let s := s.modCoh (fun c => { c with stamp := c.stamp + 1 })
  let fwd (k : MsgKind) (n : Nat) : Msg := { kind := k, agent := h.owner, line := line, req := r, n := n }
  match q.kind with
  | .getS =>
    match h.st with
    | .X => (s.setHome line { h with st := .O, sh := shAdd 0 r, busy := .bw q }).send [fwd .fwdGetS 0]
    | .O => (s.setHome line { h with sh := shAdd h.sh r, busy := .bw q }).send [fwd .fwdGetS 0]
    | st => s.setHome line { h with busy := .bm q st }
  | .rdOnce =>
    match h.st with
    | .X => (s.setHome line { h with busy := .bw q }).send [fwd .fwdRdOnce 0]
    | .O => (s.setHome line { h with busy := .bw q }).send [fwd .fwdRdOnce 0]
    | st => s.setHome line { h with busy := .bm q st }
  | .clean =>
    match h.st with
    | .X => (s.setHome line { h with st := .S, sh := shAdd 0 h.owner, busy := .br (some q) 0, owed := 1 }).send
              [{ kind := .downgrade, agent := h.owner, line := line }]
    | .O => (s.setHome line { h with st := .S, sh := shAdd h.sh h.owner, busy := .br (some q) 0, owed := 1 }).send
              [{ kind := .downgrade, agent := h.owner, line := line }]
    | _ => ((s.setHome line h).finishBr line (some q) 0).1
  | .flush => ((s.setHome line h).startRecall line (some q) 0).1
  | k =>
    let z := k == .getMZ
    let dest := { h with st := .X, owner := r, sh := 0, busy := .bw q }
    let others := shDel h.sh r
    match h.st with
    | .I => if z then (s.setHome line dest).send [{ kind := .grant, agent := r, line := line, req := r, n := 0 }]
            else s.setHome line { h with busy := .bm q .I }
    | .S =>
      let n := shCount others
      let ans : MsgKind := if h.sh.getLsbD r || z then .grant else .data
      ((if ans = .data then s.homeRead line 0 else s).setHome line dest).send
        ({ kind := ans, agent := r, line := line, req := r, n := n, grant := .M } :: invAll others line r false)
    | .X => (s.setHome line dest).send [fwd (if z then .fwdGetMZ else .fwdGetM) 0]
    | .O =>
      if h.owner = r then
        (s.setHome line dest).send
          ({ kind := .grant, agent := r, line := line, req := r, n := shCount h.sh } :: invAll h.sh line r false)
      else
        (s.setHome line dest).send
          (fwd (if z then .fwdGetMZ else .fwdGetM) (shCount others) :: invAll others line r false)

/-- R216, R226: a home takes a request; a request that needs a new entry in a full set waits for a recall, or until an entry of the set is
idle. -/
def State.homeTake (s : State) (line : Nat) (q : HReq) : State :=
  let needs := (s.home line).st == .I && (q.kind == .getS || q.kind == .getM || q.kind == .getMZ)
  match if needs then s.dirNeed line else .room with
  | .recall v =>
    let s := s.setHome line { s.home line with busy := .full q }
    (s.startRecall v none line).1
  | .wait => s.setHome line { s.home line with queue := q :: (s.home line).queue }
  | .room => s.homeAct line q

/-- R226: a request reaches its home: it is taken, or joins the busy queue. -/
def State.homeArrive (s : State) (line : Nat) (q : HReq) : State :=
  let h := s.home line
  if h.busy = .idle ∧ h.queue = [] then s.homeTake line q
  else (s.setHome line { h with queue := h.queue ++ [q] }).slcPerf line 0x203

/-- R226: the oldest queued request of an idle line is taken. -/
def State.busyTake (s : State) (line : Nat) : State :=
  let h := s.home line
  match h.busy, h.queue with
  | .idle, q :: r => (s.setHome line { h with queue := r }).homeTake line q
  | _, _ => s

/-- Goes on with what a finished BR lets go on. -/
def State.goOn (r : State × Option Nat) : State :=
  match r with
  | (s, some l) =>
    match (s.home l).busy with
    | .full q => (s.setHome l { s.home l with busy := .idle }).homeTake l q
    | _ => s
  | (s, none) => s

/-- R224, R226: the home's read returns: Data goes out as the record stood when the request was taken, the line waits for Unblock, and
the SLC allocates (R195). -/
def State.homeReadDone (s : State) (line : Nat) : State :=
  let h := s.home line
  match h.busy with
  | .bm q st =>
    let r := q.agent
    let s := s.slcPerf line 0x201
    let s := (if s.slcOf line = .absent then s.slcPerf line 0x202 else s).homeRead line 0
    let data (g : LSt) : Msg := { kind := .data, agent := r, line := line, req := r, grant := g, old := s.staleOf 15 line }
    match q.kind, st with
    | .getS, .I => (s.setHome line { h with st := .X, owner := r, busy := .bw q }).send [data .E]
    | .getS, _ => (s.setHome line { h with st := .S, sh := shAdd h.sh r, busy := .bw q }).send [data .S]
    | .rdOnce, _ => (s.setHome line { h with busy := .bw q }).send [data .S]
    | _, _ => (s.setHome line { h with st := .X, owner := r, sh := 0, busy := .bw q }).send [data .M]
  | _ => s

/-- R225: a home evaluates a Put against the record as it stands. -/
def State.homePut (s : State) (k : MsgKind) (a line : Nat) : State :=
  let h := s.home line
  let owner := (h.st == .X || h.st == .O) && h.owner == a
  let sharer := (h.st == .S || h.st == .O) && h.sh.getLsbD a
  let answer (ack : Bool) : Msg := { kind := if ack then .putAck else .putStale, agent := a, line := line, req := a }
  let stale := (s.send [answer false]).slcPerf line 0x204
  let without := { h with sh := shDel h.sh a, st := if h.st == .S && shDel h.sh a == 0 then .I else h.st }
  if k = .putS then
    if owner then stale
    else if sharer then (s.setHome line without).send [answer true]
    else stale
  else if owner then
    let h' := if h.st = .X then { h with st := .I } else { h with st := if h.sh = 0 then .I else .S }
    let s := if k = .putE then s else s.setSlc line .dirty
    (s.setHome line h').send [answer true]
  else if sharer then ((s.setHome line without).send [answer false]).slcPerf line 0x204
  else stale

/-- R214, R127: a line that prefetches asked for has come to an L2: CL.PREF fills the L1D, CL.PREFW, once the line is in M, clears the links
of the cluster's other threads to it. -/
def State.prefArrive (s : State) (a line : Nat) : State :=
  let mine (p : Pref) : Bool := p.gtn / 128 == a && p.line == line && (!p.w || (s.aline a line).st == .M)
  let l := s.coh.prefs.filter mine
  if l = [] then s
  else
    let s := s.modCoh (fun h => { h with prefs := h.prefs.filter (fun p => !mine p) })
    l.foldl (fun s p =>
      if p.w then (s.thr.map Prod.fst).foldl (fun s t =>
        if t / 128 = a ∧ t ≠ p.gtn then s.modTh t (fun x => x.unlinkFrom line) else s) s
      else s.fillL1d (coreOf p.gtn) line) s

/-- R221: an agent that has counted every acknowledgement moves to M and unblocks its home. -/
def State.settleM (s : State) (a line : Nat) (x : ALine) : State :=
  if x.n = some x.acks then
    ((s.setAline a line { st := .M, due := decide (a < 8) }).prefArrive a line).send
      [{ kind := .unblock, agent := a, line := line, req := a }]
  else s.setAline a line x

/-- R128: does a link's delay window at an L2 hold back a request that would take the line. -/
def State.linkHolds (s : State) (a line : Nat) : Bool :=
  decide (a < 8) &&
  (s.thr.any (fun e => e.1 / 128 == a &&
    (match e.2.link with
     | some l => l.pa / 64 == line && l.window
     | none => false)) ||
   s.cores.any (fun e => e.1 / 4 == a && e.2.sb.any (fun x => x.stc && x.pa / 64 == line)))

/-- R222: does the access that an L2 obtained a line for still wait to be performed: a store in a store buffer, or an LDL or AMO. -/
def State.owesAccess (s : State) (a line : Nat) : Bool :=
  (s.aline a line).due &&
  (s.cores.any (fun k => k.1 / 4 == a && k.2.sb.any (fun e => (e.op == .store || e.op == .zero) && e.pa / 64 == line)) ||
   s.thr.any (fun e => e.1 / 128 == a && (match e.2.mem with
     | .line r => r.found.any (fun p => p.pa / 64 == line) && (match r.op with
        | .loadLink _ _ => true
        | .amo _ _ _ _ _ => true
        | _ => false)
     | _ => false)))

/-- R221: an owner's answer to Fwd-GetS or Fwd-RdOnce. -/
def State.fwdRead (s : State) (m : Msg) : State :=
  let s := (s.l2Perf m.agent 0x104).l2Out m.agent m.line
  let x := s.aline m.agent m.line
  let data : List Msg := [{ kind := .data, agent := m.req, line := m.line, req := m.req, grant := .S, old := s.staleOf m.agent m.line }]
  let dest (st : LSt) : State := (s.setAline m.agent m.line { x with st := st }).send data
  let share := m.kind == .fwdGetS
  match x.st with
  | .E => dest (if share then .O else .E)
  | .M => dest (if share then .O else .M)
  | .O => dest .O
  | .OMa => dest .OMa
  | .MIa => dest .MIa
  | .OIa => dest .OIa
  | .EIa => dest .EIa
  | _ => s.badCombination m.kind m.agent m.line

/-- R221: an owner's answer to Fwd-GetM or Fwd-GetMZ. -/
def State.fwdWrite (s : State) (m : Msg) : State :=
  let s := (s.l2Perf m.agent 0x104).l2Out m.agent m.line
  let x := s.aline m.agent m.line
  let ans : List Msg := [{ kind := if m.kind = .fwdGetMZ then .grant else .data, agent := m.req, line := m.line, req := m.req,
                           n := m.n, grant := .M }]
  let dest (st : LSt) : State := ((s.setAline m.agent m.line { x with st := st, due := false }).leaveL2 m.agent m.line).send ans
  match x.st with
  | .E => dest .I
  | .M => dest .I
  | .O => dest .I
  | .OMa => dest .IMad
  | .MIa => dest .IIa
  | .OIa => dest .IIa
  | .EIa => dest .IIa
  | _ => s.badCombination m.kind m.agent m.line

/-- R221: an owner's answer to Recall or Downgrade. -/
def State.recalled (s : State) (m : Msg) : State :=
  let s := s.l2Out m.agent m.line
  let x := s.aline m.agent m.line
  let ans : List Msg := [{ kind := .recallData, agent := m.agent, line := m.line, req := m.agent }]
  let dest (st : LSt) : State :=
    let s := (s.setAline m.agent m.line { x with st := st, due := false }).send ans
    if st = .S ∨ st = .SMad then s else s.leaveL2 m.agent m.line
  let down := m.kind == .downgrade
  match x.st with
  | .E => dest (if down then .S else .I)
  | .M => dest (if down then .S else .I)
  | .O => dest (if down then .S else .I)
  | .OMa => dest (if down then .SMad else .IMad)
  | .MIa => dest .IIa
  | .OIa => dest .IIa
  | .EIa => dest .IIa
  | _ => s.badCombination m.kind m.agent m.line

/-- R221: a sharer's answer to Inv. -/
def State.invalidated (s : State) (m : Msg) : State :=
  let x := s.aline m.agent m.line
  let ans : List Msg := [{ kind := .invAck, agent := m.req, line := m.line, req := m.req, toHome := m.toHome }]
  let dest (st : LSt) : State :=
    ((s.setAline m.agent m.line { x with st := st }).leaveL2 m.agent m.line).send ans
  match x.st with
  | .I => s.send ans
  | .S => dest .I
  | .SMad => dest .IMad
  | .SIa => dest .IIa
  | .IIa => dest .IIa
  | _ => s.badCombination m.kind m.agent m.line

/-- R221: a requester receives Data. -/
def State.gotData (s : State) (m : Msg) : State :=
  let x := s.aline m.agent m.line
  match x.st with
  | .ISd =>
    (((s.setAline m.agent m.line { st := if x.once then .I else if m.grant = .E then .E else .S }).setStale m.agent m.line
      (if x.once then [] else m.old)).prefArrive m.agent m.line).send
      [{ kind := .unblock, agent := m.agent, line := m.line, req := m.agent }]
  | .IMad => s.settleM m.agent m.line { x with st := .IMa, n := some m.n }
  | .SMad => s.settleM m.agent m.line { x with st := .SMa, n := some m.n }
  | _ => s.badCombination m.kind m.agent m.line

/-- R221: a requester receives Grant. -/
def State.gotGrant (s : State) (m : Msg) : State :=
  let x := s.aline m.agent m.line
  match x.st with
  | .IMad => s.settleM m.agent m.line { x with st := .IMa, n := some m.n }
  | .SMad => s.settleM m.agent m.line { x with st := .SMa, n := some m.n }
  | .OMa => s.settleM m.agent m.line { x with n := some m.n }
  | _ => s.badCombination m.kind m.agent m.line

/-- R221, R224: an Inv-Ack is counted by an agent, or by a home in BR. -/
def State.gotInvAck (s : State) (m : Msg) : State :=
  if m.toHome then
    let h := s.home m.line
    match h.busy with
    | .br q f =>
      if h.owed ≤ 1 then State.goOn (s.finishBr m.line q f) else s.setHome m.line { h with owed := h.owed - 1 }
    | _ => s
  else
    let x := s.aline m.agent m.line
    match x.st with
    | .IMad => s.setAline m.agent m.line { x with acks := x.acks + 1 }
    | .SMad => s.setAline m.agent m.line { x with acks := x.acks + 1 }
    | .IMa => s.settleM m.agent m.line { x with acks := x.acks + 1 }
    | .SMa => s.settleM m.agent m.line { x with acks := x.acks + 1 }
    | .OMa => s.settleM m.agent m.line { x with acks := x.acks + 1 }
    | _ => s.badCombination m.kind m.agent m.line

/-- R224: a home in BR writes a Recall-Data to the SLC or to quay SRAM. -/
def State.gotRecallData (s : State) (m : Msg) : State :=
  let h := s.home m.line
  match h.busy with
  | .br q f =>
    let s := s.setSlc m.line .dirty
    let h := s.home m.line
    if h.owed ≤ 1 then State.goOn (s.finishBr m.line q f) else s.setHome m.line { h with owed := h.owed - 1 }
  | _ => s

/-- R221: a Put is answered. -/
def State.putAnswered (s : State) (m : Msg) : State :=
  let x := s.aline m.agent m.line
  let stale := m.kind == .putStale
  match x.st with
  | .IIa => s.setAline m.agent m.line {}
  | .MIa => if stale then s.badCombination m.kind m.agent m.line else s.setAline m.agent m.line {}
  | .OIa => if stale then s.badCombination m.kind m.agent m.line else s.setAline m.agent m.line {}
  | .EIa => if stale then s.badCombination m.kind m.agent m.line else s.setAline m.agent m.line {}
  | .SIa => if stale then s.badCombination m.kind m.agent m.line else s.setAline m.agent m.line {}
  | _ => s.badCombination m.kind m.agent m.line

/-- R224: Unblock ends BW. -/
def State.unblocked (s : State) (m : Msg) : State :=
  let h := s.home m.line
  match h.busy with
  | .bw q => if q.agent = m.agent then s.setHome m.line { h with busy := .idle } else s
  | _ => s

/-- The store buffer without the FENCE.SS markers that no older entry of their thread stands before (R197). -/
def sbTrim : List SbEntry → List SbEntry → List SbEntry
  | done, [] => done
  | done, e :: r =>
    if e.op = .marker ∧ !done.any (fun d => d.gtn == e.gtn) then sbTrim done r else sbTrim (done ++ [e]) r

/-- R132: the stores of a thread that waits at a FENCE are performed. -/
def State.fenceEnds (s : State) (t : Nat) : State :=
  let x := s.th t
  if x.stall = .fence ∧ !(s.core (coreOf t)).sb.any (fun e => e.gtn == t && e.op != .marker) then
    s.setTh t { x with stall := .none }
  else s

/-- An entry leaves a store buffer; a thread that waits at a FENCE for it goes on. -/
def State.sbFree (s : State) (core : Nat) (e : SbEntry) : State :=
  (s.modCore core (fun k => { k with sb := sbTrim [] (k.sb.erase e) })).fenceEnds e.gtn

/-- R213, R224: Done frees the store buffer entry of the Clean or Flush of the requesting cluster. -/
def State.gotDone (s : State) (m : Msg) : State :=
  let mine (c : Nat) : Option (Nat × SbEntry) :=
    ((s.core (4 * m.agent + c)).sb.find? (fun e => e.sent && e.pa / 64 == m.line)).map (fun e => (4 * m.agent + c, e))
  if m.agent < 8 then
    match [0, 1, 2, 3].findSome? mine with
    | some (c, e) => s.sbFree c e
    | none => s
  else s

/-! ## Dead agents (R232, R233) -/

/-- R232: a line becomes poisoned by the reclaim of an agent: counted in FAB_DEAD_SRC.LINES, while it names the agent and is not DONE, and
in the totals (R342, r4). -/
def State.reclaimLine (s : State) (a line : Nat) : State :=
  let s := (s.poisonLine line a (2 ^ 18)).count 0x40 4
  let v := s.reg (fabDirPage + 0xC)
  let s := if bits v 31 28 = a ∧ !bit v 23 then s.setReg (fabDirPage + 0xC) (putBits v 0 23 (satInc 0x7FFFFF (bits v 22 0))) else s
  s.modCoh (fun c => { c with reclaim := c.reclaim.map (fun e => if e.1 = a then (a, e.2.1, satInc 0x7FFFFF e.2.2) else e) })

/-- R232: the homes answer a message that was on its way to a dead agent. -/
def State.answerFor (s : State) (m : Msg) : State :=
  match m.kind with
  | .fwdGetS => (s.reclaimLine m.agent m.line).send [{ kind := .data, agent := m.req, line := m.line, req := m.req }]
  | .fwdRdOnce => (s.reclaimLine m.agent m.line).send [{ kind := .data, agent := m.req, line := m.line, req := m.req }]
  | .fwdGetM => (s.reclaimLine m.agent m.line).send
      [{ kind := .data, agent := m.req, line := m.line, req := m.req, n := m.n, grant := .M }]
  | .fwdGetMZ => (s.reclaimLine m.agent m.line).send
      [{ kind := .grant, agent := m.req, line := m.line, req := m.req, n := m.n, grant := .M }]
  | .inv => s.send [{ kind := .invAck, agent := m.req, line := m.line, req := m.req, toHome := m.toHome }]
  | .recall => (s.reclaimLine m.agent m.line).send [{ kind := .recallData, agent := m.agent, line := m.line }]
  | .downgrade => (s.reclaimLine m.agent m.line).send [{ kind := .recallData, agent := m.agent, line := m.line }]
  | _ => s

/-- R232: a home reclaims a dead agent's entry of one line; `done` are the lines that its unanswered messages have poisoned already. -/
def State.reclaimEntry (s : State) (a : Nat) (done : List Nat) (line : Nat) : State :=
  let h := s.home line
  let h := { h with queue := h.queue.filter (fun q => q.agent != a) }
  let mine : Bool := match h.busy with
    | .bw q => q.agent == a
    | .bm q _ => q.agent == a
    | .full q => q.agent == a
    | _ => false
  let h := if mine then { h with busy := .idle } else h
  let own := (h.st == .X || h.st == .O) && h.owner == a
  if own then
    let s := if done.contains line then s else s.reclaimLine a line
    if h.st = .X ∨ h.sh = 0 then s.setHome line { h with st := .I, sh := 0 }
    else match h.busy with
      | .bw q =>
        let keep := if h.sh.getLsbD q.agent then shAdd 0 q.agent else 0
        (s.setHome line { h with st := if keep = 0 then .I else .S, sh := keep }).send (invAll (shDel h.sh q.agent) line 0 true)
      | .idle =>
        (s.setHome line { h with st := .I, sh := 0, busy := .br none line, owed := shCount h.sh }).send (invAll h.sh line 0 true)
      | _ => (s.setHome line { h with st := .I, sh := 0 }).send (invAll h.sh line 0 true)
  else
    let sh := shDel h.sh a
    s.setHome line { h with sh := sh, st := if h.st = .S ∧ sh = 0 then .I else h.st }

/-- The cache of an agent is empty: no line, no set in use, no stored error. -/
def State.emptyAgent (s : State) (a : Nat) : State :=
  let s := s.modCoh (fun c => { c with
    agents := c.agents.filter (fun e => e.1 / 2 ^ 34 != a),
    flashOld := c.flashOld.filter (fun e => e.1 / 2 ^ 34 != a),
    sets := c.sets.filter (fun e => e.1 / 4096 != (agentCache a).key 0 / 4096) })
  if a < 8 then { s with dram := { s.dram with flips := s.dram.flips.filter (fun e => e.1 / 2 ^ 40 != 1 + a) } } else s

/-- The L1s of a cluster are empty. -/
def State.emptyL1s (s : State) (n : Nat) : State :=
  s.modCoh (fun c => { c with
    l1d := c.l1d.filter (fun e => e.1 / 2 ^ 34 / 4 != n), l1i := c.l1i.filter (fun e => e.1 / 2 ^ 34 / 4 != n),
    l1dBad := c.l1dBad.filter (fun e => e.1 / 2 ^ 34 / 4 != n), l1iBad := c.l1iBad.filter (fun e => e.1 / 2 ^ 34 / 4 != n),
    sets := c.sets.filter (fun e => e.1 / 4096 % 32 / 4 != n || decide (64 ≤ e.1 / 4096)) })

/-- R195, R396: an agent's cache is flushed: what it holds in M or O goes to the SLC, it holds no line, and no home records it. -/
def State.flushAgent (s : State) (a : Nat) : State :=
  let mine := (s.coh.agents.filter (fun e => e.1 / 2 ^ 34 == a)).map (fun e => (e.1 % 2 ^ 34, e.2.st))
  let s := mine.foldl (fun s e => (if e.2.only then (s.l2Out a e.1).setSlc e.1 .dirty else s).leaveL2 a e.1) s
  let s := s.emptyAgent a
  s.modCoh (fun c => { c with
    homes := (c.homes.map (fun e =>
      let h := e.2
      let sh := shDel h.sh a
      let own := (h.st == .X || h.st == .O) && h.owner == a
      let st := if own then (if sh = 0 then HSt.I else .S) else if h.st = .S ∧ sh = 0 then .I else h.st
      (e.1, { h with st := st, sh := sh, owner := if own then 0 else h.owner }))).filter (fun e => e.2 != {}) })

/-- R195: every agent's cache and every slice is flushed to memory. -/
def State.flushAll (s : State) : State :=
  let s := (List.range 13).foldl State.flushAgent s
  s.coh.slc.foldl (fun s e => if e.2 = .dirty then s.slcMove e.1 .clean else s) s

/-- R232: an agent is declared dead: its bit in FAB_COH_LIVE, the record, the reclaim of its entries, the transactions that
wait on it. `flag` is the record's flag, `cause` its number in the error log, `hm` the home that found a TMO. -/
def State.declareDead (s : State) (a flag hm : Nat) : State :=
  if s.agentDead a then s
  else
    let s := s.modCoh (fun c => { c with dead := putBit c.dead a true, reclaim := c.reclaim ++ [(a, 18 - flag.log2, 0)] })
    let s := s.recordCap (fabDirPage + 8) flag (some 128)
      [(fabDirPage + 0xC, BitVec.ofNat 32 (a * 2 ^ 28 + hm * 2 ^ 24))]
    let lost := s.coh.msgs.filter (fun m => m.agent == a && m.kind.forward)
    let s := (s.modCoh (fun c => { c with
      msgs := c.msgs.filter (fun m => m.agent != a || m.kind == .recallData || (m.kind == .invAck && m.toHome)) })).emptyAgent a
    let s := lost.foldl State.answerFor s
    let done := (lost.filter (fun m => m.kind != .inv && m.kind != .putAck && m.kind != .putStale && m.kind != .done)).map Msg.line
    (s.coh.homes.map Prod.fst).foldl (fun s l => s.reclaimEntry a done l) s

/-! ## What the agents' accesses ask for -/

/-- Does an agent hold a line readable (R221: Load hits). -/
def State.readable (s : State) (a line : Nat) : Bool :=
  match (s.aline a line).st with
  | .S => true | .E => true | .O => true | .M => true | .SMad => true | .SMa => true | .OMa => true
  | _ => false

/-- Does an agent hold a line in M or E, so that a write needs no message. -/
def State.writable (s : State) (a line : Nat) : Bool :=
  (s.aline a line).st == .M || (s.aline a line).st == .E

/-- A use of a line that an agent holds (R189). -/
def State.agentUse (s : State) (a line : Nat) : State :=
  let c := agentCache a
  match c.touch (s.cset c line) line (fun l => let x := (s.aline a l).st; x != .I && !x.leaving) (fun l => (s.aline a l).st.holds) with
  | .hit x => s.setCset c line x
  | .fill x none => s.setCset c line x
  | _ => s

/-- A line an agent wants to read: GetS where it is not held (R221). -/
def State.wantRead (s : State) (a line : Nat) : State := if s.readable a line then s.agentUse a line else s.agentSend .getS a line

/-- A line an agent wants to write: GetM where it is not held in M or E. -/
def State.wantWrite (s : State) (a line : Nat) : State := if s.writable a line then s.agentUse a line else s.agentSend .getM a line

/-- A whole line that an agent wants to write: GetMZ where it holds no copy, GetM where it holds one (R218, R221). -/
def State.wantWhole (s : State) (a line : Nat) : State :=
  if s.writable a line then s.agentUse a line else if s.readable a line then s.agentSend .getM a line else s.agentSend .getMZ a line

/-- A write makes E into M without a message (R221); the access that a GetM was sent for has been performed (R222). -/
def State.markM (s : State) (a line : Nat) : State :=
  if s.writable a line then (s.setAline a line { s.aline a line with st := .M, due := false }).agentUse a line else s

/-! ## The commands of chapter 09 -/

/-- A request: the one on its way reaches its home; where none is, the agent sends it (log 11). -/
def State.reqCommand (s : State) (k : MsgKind) (a line : Nat) : State :=
  match s.arrival k a line false with
  | some (_, s') => s'.homeArrive line { kind := k, agent := a }
  | none => if k.maint then (s.sendMaint k a line).2 else s.agentSend k a line

/-- R224. -/
def execGets (agent : Fin 13) (line : Nat) (s : State) : Out := ok (s.reqCommand .getS agent line)
/-- R224. -/
def execGetm (agent : Fin 13) (line : Nat) (s : State) : Out := ok (s.reqCommand .getM agent line)
/-- R224. -/
def execGetmz (agent : Fin 13) (line : Nat) (s : State) : Out := ok (s.reqCommand .getMZ agent line)
/-- R224. -/
def execRdonce (agent : Fin 13) (line : Nat) (s : State) : Out := ok (s.reqCommand .rdOnce agent line)
/-- R224. -/
def execClean (agent : Fin 13) (line : Nat) (s : State) : Out := ok (s.reqCommand .clean agent line)
/-- R224. -/
def execFlush (agent : Fin 13) (line : Nat) (s : State) : Out := ok (s.reqCommand .flush agent line)

/-- R226. -/
def execBusyQueueTake (line : Nat) (s : State) : Out := ok (s.busyTake line)
/-- R224. -/
def execHomeMemoryReadDone (line : Nat) (s : State) : Out := ok (s.homeReadDone line)

/-- A Put: the one on its way reaches its home; where none is, the agent evicts the line (log 11). -/
def State.putCommand (s : State) (k : MsgKind) (st : LSt) (a line : Nat) : State :=
  match s.arrival k a line false with
  | some (_, s') => s'.homePut k a line
  | none => if (s.aline a line).st = st then s.evict a line else s

/-- R225. -/
def execPuts (agent : Fin 13) (line : Nat) (s : State) : Out := ok (s.putCommand .putS .S agent line)
/-- R225. -/
def execPute (agent : Fin 13) (line : Nat) (s : State) : Out := ok (s.putCommand .putE .E agent line)
/-- R225. -/
def execPutm (agent : Fin 13) (line : Nat) (s : State) : Out := ok (s.putCommand .putM .M agent line)
/-- R225. -/
def execPuto (agent : Fin 13) (line : Nat) (s : State) : Out := ok (s.putCommand .putO .O agent line)

/-- A message on its way to or from an agent is delivered; where none is, nothing happens (log 8). -/
def State.deliver (s : State) (k : MsgKind) (a line : Nat) (toHome : Bool) (f : State → Msg → State) : State :=
  match s.arrival k a line toHome with
  | some (m, s') => f s' m
  | none => s

/-- As `deliver`, unless a link's delay window holds the line at the agent (R128), or the access it was obtained for is still to be performed
(R222). -/
def State.deliverHeld (s : State) (k : MsgKind) (a line : Nat) (f : State → Msg → State) : State :=
  if s.linkHolds a line then s.l2Perf a 0x107
  else if s.owesAccess a line then s
  else s.deliver k a line false f

/-- R224. -/
def execUnblock (agent : Fin 13) (line : Nat) (s : State) : Out := ok (s.deliver .unblock agent line false State.unblocked)
/-- R221. -/
def execFwdGets (agent : Fin 13) (line : Nat) (s : State) : Out := ok (s.deliverHeld .fwdGetS agent line State.fwdRead)
/-- R221. -/
def execFwdRdonce (agent : Fin 13) (line : Nat) (s : State) : Out := ok (if s.owesAccess agent line then s else s.deliver .fwdRdOnce agent line false State.fwdRead)
/-- R221, R128. -/
def execFwdGetm (agent : Fin 13) (line : Nat) (s : State) : Out := ok (s.deliverHeld .fwdGetM agent line State.fwdWrite)
/-- R221, R128. -/
def execFwdGetmz (agent : Fin 13) (line : Nat) (s : State) : Out := ok (s.deliverHeld .fwdGetMZ agent line State.fwdWrite)
/-- R221, R128. -/
def execInv (agent : Fin 13) (line : Nat) (s : State) : Out := ok (s.deliverHeld .inv agent line State.invalidated)
/-- R221, R128. -/
def execRecall (agent : Fin 13) (line : Nat) (s : State) : Out := ok (s.deliverHeld .recall agent line State.recalled)
/-- R221, R128. -/
def execDowngrade (agent : Fin 13) (line : Nat) (s : State) : Out := ok (s.deliverHeld .downgrade agent line State.recalled)
/-- R221. -/
def execData (agent : Fin 13) (line : Nat) (s : State) : Out := ok (s.deliver .data agent line false State.gotData)
/-- R221. -/
def execGrant (agent : Fin 13) (line : Nat) (s : State) : Out := ok (s.deliver .grant agent line false State.gotGrant)
/-- R221. -/
def execInvAck (agent : Fin 13) (line : Nat) (toHome : Bool) (s : State) : Out :=
  ok (s.deliver .invAck agent line toHome State.gotInvAck)
/-- R224. -/
def execRecallData (agent : Fin 13) (line : Nat) (s : State) : Out :=
  ok (s.deliver .recallData agent line false State.gotRecallData)
/-- R221. -/
def execPutAck (agent : Fin 13) (line : Nat) (s : State) : Out := ok (s.deliver .putAck agent line false State.putAnswered)
/-- R221. -/
def execPutStale (agent : Fin 13) (line : Nat) (s : State) : Out := ok (s.deliver .putStale agent line false State.putAnswered)
/-- R224. -/
def execDone (agent : Fin 13) (line : Nat) (s : State) : Out := ok (s.deliver .done agent line false State.gotDone)

/-- R232: a forward, Recall, Downgrade or Inv to the agent about the line is unanswered for 100 µs; none is declared dead while the device is
frozen (R461). -/
def execCoherenceTimeout (agent : Fin 13) (line : Nat) (s : State) : Out :=
  let unanswered := s.coh.msgs.any (fun m => m.agent == agent.val && m.line == line && m.kind.forward &&
    m.kind != .putAck && m.kind != .putStale && m.kind != .done)
  whenOk (unanswered && !s.frozen) s (s.declareDead agent (2 ^ 18) (sliceOf line))

/-- R232: an uncorrectable error in an agent's tag or state arrays. -/
def execAgentFatalError (agent : Fin 13) (s : State) : Out := whenOk (!s.frozen) s (s.declareDead agent (2 ^ 17) 0)

end Sys2Proof.Machine
end

