-- ==== Sys2Proof/Machine/Frame.lean ====
section
/-! DEFINITION. The framing of a bundle (R66 to R72, R88): what ISSUE_SELECT reads of the syllables. -/

namespace Sys2Proof.Machine

/-- The unit of a syllable (R66): 0 A, 1 B, 2 M, 3 X. -/
def sylUnit (w : W32) : Nat := bits w 30 29

/-- Is a syllable a LIM (R68). -/
def sylLim (w : W32) : Bool := sylUnit w == 3 && bit w 24

/-- The format of a syllable (R66). -/
def sylFmt (w : W32) : Nat := bits w 24 22

/-- Is a syllable an immediate consumer (R69). -/
def sylConsumer (w : W32) : Bool :=
  !sylLim w && ((decide (sylUnit w < 3) && sylFmt w == 1) || (decide (sylUnit w < 2) && sylFmt w == 2 && bit w 17))

/-- Is a syllable pattern-implemented (R70). A SYS syllable of the UCALL opcode counts whatever its ARG, although one whose unused ARG
bits are not zero is itself a reserved encoding (R119): the spec does not say (log 104). -/
def sylPattern (w : W32) : Bool :=
  let opc := bits w 21 15
  !sylLim w &&
  ((sylUnit w == 1 && sylFmt w == 0 && decide (0x48 ≤ opc ∧ opc ≤ 0x4B)) ||
   (sylUnit w == 2 && sylFmt w == 0 &&
     (opc == 0x34 || opc == 0x35 || decide (0x38 ≤ opc ∧ opc ≤ 0x3A) || decide (0x3C ≤ opc ∧ opc ≤ 0x3F))) ||
   (sylUnit w == 3 && sylFmt w == 1 && bits w 21 16 == 7))

/-- R78: does a register field name a pair. -/
def isPair (r : Nat) : Bool := r % 2 == 0 && r != 0

/-- Is a system register number assigned (R83, R167). -/
def srnAssigned (n : Nat) : Bool :=
  decide (n ≤ 2) || decide (8 ≤ n ∧ n ≤ 0xA) || decide (0x10 ≤ n ∧ n ≤ 0x15) || decide (0x18 ≤ n ∧ n ≤ 0x1B) ||
  decide (0x20 ≤ n ∧ n ≤ 0x25) || decide (0x28 ≤ n ∧ n ≤ 0x2B) || n == 0x40 || n == 0x41 || n == 0x48 || n == 0x49 ||
  n == 0x4C

/-- R93: is an A- or B-unit TRI syllable assigned, its zero fields zero and its pairs pairs. -/
def triAB (b : Bool) (opc rd ra rb : Nat) : Bool :=
  if opc ≤ 0x0C then true
  else if opc ≤ 0x12 then rb == 0
  else if opc ≤ 0x16 then isPair rd && isPair ra && isPair rb
  else if b then
    if opc == 0x40 then true
    else if opc == 0x41 || opc == 0x42 then isPair rd
    else if opc == 0x44 || opc == 0x45 then true
    else if opc == 0x46 then isPair rd
    else if 0x48 ≤ opc ∧ opc ≤ 0x4B then true
    else if 0x50 ≤ opc ∧ opc ≤ 0x5F then opc % 8 < 6 || rb == 0
    else if 0x60 ≤ opc ∧ opc ≤ 0x68 then rb == 0
    else false
  else if 0x20 ≤ opc ∧ opc ≤ 0x25 then rb == 0
  else if opc == 0x26 then rb == 0 && isPair rd && isPair ra
  else if 0x28 ≤ opc ∧ opc ≤ 0x2A then rb == 0
  else opc == 0x2C

/-- R118, R181, R212: is an M-unit TRI syllable assigned. -/
def triM (opc rd ra rb : Nat) : Bool :=
  if opc ≤ 0x0C then (opc != 7 && opc != 0xC) || isPair rd
  else if 0x10 ≤ opc ∧ opc ≤ 0x15 then true
  else if 0x20 ≤ opc ∧ opc ≤ 0x23 then true
  else if opc == 0x28 || opc == 0x29 then rd == 0 && ra == 0 && rb == 0
  else if opc == 0x30 || opc == 0x31 then rb == 0
  else if 0x32 ≤ opc ∧ opc ≤ 0x35 then true
  else if 0x38 ≤ opc ∧ opc ≤ 0x3A then true
  else if 0x3C ≤ opc ∧ opc ≤ 0x3F then true
  else if 0x40 ≤ opc ∧ opc ≤ 0x49 then true
  else if 0x4C ≤ opc ∧ opc ≤ 0x4E then true
  else if 0x60 ≤ opc ∧ opc ≤ 0x65 then rd == 0 && rb == 0
  else if 0x70 ≤ opc ∧ opc ≤ 0x72 then rd == 0 && rb == 0
  else if opc == 0x73 || opc == 0x7A then rd == 0 && ra == 0 && rb == 0
  else if opc == 0x78 then rd == 0
  else if opc == 0x79 then rd == 0 && ra == 0
  else false

/-- R119: is an X-unit TRI syllable assigned. -/
def triX (opc rd rb srn : Nat) : Bool :=
  if opc ≤ 1 then srnAssigned srn
  else if opc == 2 || opc == 4 then rd == 0 && rb == 0
  else if opc == 3 then rb == 0
  else opc == 5 && rd == 0

/-- R119: is an X-unit SYS syllable assigned. -/
def sysX (opc arg : Nat) : Bool :=
  if opc == 0 then decide (arg < 256)
  else if opc ≤ 2 then true
  else if opc ≤ 6 then arg == 0
  else opc == 7 && decide (arg < 64)

/-- R88: is a syllable a reserved encoding. -/
def sylReserved (w : W32) : Bool :=
  if sylLim w then false
  else
    let u := sylUnit w
    let opc := bits w 21 15
    let rd := bits w 14 10
    let ra := bits w 9 5
    let rb := bits w 4 0
    let cond := bits w 21 18
    !(match sylFmt w with
      | 0 => if u < 2 then triAB (u == 1) opc rd ra rb else if u = 2 then triM opc rd ra rb
             else triX opc rd rb (bits w 9 0)
      | 1 => if u < 2 then decide (cond ≤ 0xB + u)
             else if u = 2 then decide (cond ≤ 0xC) && ((cond != 7 && cond != 0xC) || isPair (bits w 17 13))
             else sysX (bits w 21 16) (bits w 15 0)
      | 2 => if u < 2 then
               (if u = 0 then decide (cond ≤ 0xB) else decide (cond % 8 < 4)) && (bit w 17 || bits w 7 5 == 0)
             else u == 3
      | 3 => u == 0 && decide (bits w 10 5 < 36)
      | _ => false)

/-- The registers that a syllable which executes at level `pl` reads (R79): general registers, 0x100 + SRN. -/
def sylSources (pl : Nat) (w : W32) : List Nat :=
  let u := sylUnit w
  let opc := bits w 21 15
  let rd := bits w 14 10
  let ra := bits w 9 5
  let rb := bits w 4 0
  let pair (r : Nat) : List Nat := [r, r + 1]
  match sylFmt w with
  | 0 =>
    if u = 3 then
      (if opc = 0 then [0x100 + bits w 9 0] else if opc = 1 then [rd] else [ra])
    else if u = 2 then
      (if opc = 0xC then [ra, rb] ++ pair rd
       else if opc = 0x32 ∨ opc = 0x33 then [ra, rd]
       else if (8 ≤ opc ∧ opc ≤ 0x15) ∨ opc = 0x22 ∨ opc = 0x23 ∨ (0x35 ≤ opc ∧ opc ≤ 0x3F) ∨ opc = 0x49 ∨ opc = 0x4E then
         [ra, rb, rd]
       else [ra, rb])
    else if 0x13 ≤ opc ∧ opc ≤ 0x16 then pair ra ++ pair rb
    else if u = 0 ∧ opc = 0x26 then pair ra
    else if u = 1 ∧ opc = 0x46 then [ra, rb] ++ pair rd
    else if opc = 0x2C ∨ opc = 0x44 ∨ opc = 0x45 ∨ opc = 0x53 ∨ opc = 0x5B then [ra, rb, rd]
    else [ra, rb]
  | 1 =>
    if u = 3 then (if bits w 21 16 = 3 then [0x100 + xReg pl 0, 0x100 + xReg pl 1] else [])
    else if u = 2 ∧ bits w 21 18 = 0xC then bits w 12 8 :: pair (bits w 17 13)
    else if u = 2 ∧ 8 ≤ bits w 21 18 then [bits w 12 8, bits w 17 13]
    else [bits w 12 8]
  | 2 => if u = 3 then [] else if bit w 17 then [bits w 12 8] else [bits w 12 8, rb]
  | _ => if bit w 21 then [bits w 15 11, bits w 20 16] else [bits w 15 11]

/-- The registers a syllable reads (R67, R79): 32 for the predicates; a syllable whose predicate is false, a reserved one and a LIM
read no other. -/
def Ctx.sylReads (c : Ctx) (w : W32) : List Nat :=
  if sylLim w then []
  else
    (if bits w 28 26 = 0 then [] else [32]) ++
    (if (c.rdP (bits w 28 26) != bit w 25) && !sylReserved w then (sylSources (stPl c.st) w).filter (fun r => r != 0) else [])

/-- The general registers that a syllable names as destinations (R68, R73, R89, R93, R118, R119), whether or not it executes. -/
def sylDests (w : W32) : List Nat :=
  let u := sylUnit w
  let opc := bits w 21 15
  let rd := bits w 14 10
  let pair (r : Nat) : List Nat := [r, r + 1]
  if sylLim w then []
  else if sylReserved w then [rd, bits w 17 13]
  else match sylFmt w with
    | 0 =>
      if u = 3 then (if opc = 0 ∨ opc = 3 then [rd] else [])
      else if u = 2 then
        (if opc = 7 then pair rd
         else if opc < 7 ∨ opc = 0x20 ∨ opc = 0x21 ∨ opc = 0x30 ∨ opc = 0x31 ∨ opc = 0x34 ∨ (0x40 ≤ opc ∧ opc ≤ 0x4E) then [rd]
         else if opc = 0x32 ∨ opc = 0x33 then [bits w 4 0]
         else if 0x38 ≤ opc ∧ opc ≤ 0x3F then [rd, bits w 9 5, bits w 4 0]
         else [])
      else if (0x13 ≤ opc ∧ opc ≤ 0x16) ∨ (u = 0 ∧ opc = 0x26) ∨ (u = 1 ∧ (opc = 0x41 ∨ opc = 0x42 ∨ opc = 0x46)) then pair rd
      else [rd]
    | 1 =>
      if u < 2 then [bits w 17 13]
      else if u = 2 then
        (if bits w 21 18 = 7 then pair (bits w 17 13) else if bits w 21 18 < 7 then [bits w 17 13] else [])
      else []
    | 2 => if u = 3 ∧ bit w 21 then [31] else []
    | _ => [bits w 20 16]

/-- Entries a syllable's store needs in the store buffer (R40): none for anything but a store. -/
def sylStores (w : W32) : Bool :=
  !sylLim w && sylUnit w == 2 &&
  ((sylFmt w == 1 && decide (8 ≤ bits w 21 18 ∧ bits w 21 18 ≤ 0xC)) ||
   (sylFmt w == 0 && (let opc := bits w 21 15
     decide (8 ≤ opc ∧ opc ≤ 0xC) || decide (0x10 ≤ opc ∧ opc ≤ 0x15) || decide (0x60 ≤ opc ∧ opc ≤ 0x63))))

/-- The outcome of framing (R71): the syllables, or the KIND and POS of R72. -/
inductive Framed where
  | good (ws : List W32)
  | bad (kind pos : Nat)
deriving DecidableEq, Repr

/-- Reads syllables from the rest of a line until the first stop (R70, R71); `n` is how many may still be read. -/
def frameRead : Nat → Nat → List Byte → List W32 → Framed
  | 0, k, _, _ => .bad 1 (k - 1)
  | n + 1, k, b0 :: b1 :: b2 :: b3 :: r, acc =>
    let w : W32 := BitVec.ofNat 32 (leNat [b0, b1, b2, b3])
    if bit w 31 then .good (acc ++ [w]) else frameRead n (k + 1) r (acc ++ [w])
  | _ + 1, k, _, _ => .bad 2 (k - 1)

/-- The first position where the units do not strictly increase (R70.3). -/
def unitOrder : Nat → Option Nat → List W32 → Option Nat
  | _, _, [] => none
  | k, prev, w :: r =>
    match prev with
    | some u => if sylUnit w ≤ u then some k else unitOrder (k + 1) (some (sylUnit w)) r
    | none => unitOrder (k + 1) (some (sylUnit w)) r

/-- The positions of the syllables that satisfy a test. -/
def positions (f : W32 → Bool) : Nat → List W32 → List Nat
  | _, [] => []
  | k, w :: r => if f w then k :: positions f (k + 1) r else positions f (k + 1) r

/-- R70 to R72, R90: the checks in their order; `strict` adds the reserved encodings of ST.STRICT = 1. -/
def frameBundle (strict : Bool) (bytes : List Byte) : Framed :=
  match frameRead 4 0 bytes [] with
  | .bad k p => .bad k p
  | .good ws =>
    match unitOrder 0 none ws with
    | some p => .bad 3 p
    | none =>
      match positions sylLim 0 ws with
      | p :: _ =>
        if (positions sylConsumer 0 ws).length ≠ 1 then .bad 4 p
        else framePats strict ws
      | [] => framePats strict ws
where
  /-- Checks 5 of R70 and the strict check of R90. -/
  framePats (strict : Bool) (ws : List W32) : Framed :=
    match positions sylPattern 0 ws with
    | _ :: p :: _ => .bad 5 p
    | _ =>
      match positions sylReserved 0 ws with
      | p :: _ => if strict then .bad 8 p else .good ws
      | [] => .good ws

end Sys2Proof.Machine
end

