-- ==== Sys2Proof/Machine/Encode.lean ====
section
/-! DEFINITION. The encoding of the syllables (R66 to R69, R93, R94, R105, R108, R110, R117 to R119, R181, R212): the unit, the
predicate, bits [24:0] and the immediate of each command that is a syllable, and whether a fetched syllable is that command. -/

namespace Sys2Proof.Machine

/-- Bits [24:0] of a TRI syllable (R68). -/
def triBody (opc rd ra rb : Nat) : Nat := opc * 2 ^ 15 + rd * 2 ^ 10 + ra * 2 ^ 5 + rb

/-- Bits [24:0] of an IMM syllable with the low byte of its immediate (R68, R69). -/
def immBody (opc rd ra : Nat) (i : Word) : Nat := 2 ^ 22 + opc * 2 ^ 18 + rd * 2 ^ 13 + ra * 2 ^ 8 + i.toNat % 256

/-- Bits [24:0] of a CMP syllable (R68). -/
def cmpBody (cond : Nat) (c : Bool) (pd : PReg) (ra : Reg) (b : Opnd) : Nat :=
  2 * 2 ^ 22 + cond * 2 ^ 18 + b2n c * 2 ^ 16 + pd.val * 2 ^ 13 + ra.val * 2 ^ 8 + (match b with
    | .reg r => r.val
    | .imm i => 2 ^ 17 + i.toNat % 256)

/-- Bits [24:0] of a BFD syllable (R68): OP 0 BFX, 1 BFI. -/
def bfdBody (op : Nat) (rd ra : Reg) (pos : Nat) (wm1 : Fin 32) : Nat :=
  3 * 2 ^ 22 + op * 2 ^ 21 + rd.val * 2 ^ 16 + ra.val * 2 ^ 11 + pos % 64 * 2 ^ 5 + wm1.val

/-- Bits [24:0] of an M-unit syllable with address form `a`: IMM or TRI (R116). -/
def memBody (opc rd : Nat) (a : Addr) : Nat :=
  match a with
  | .imm ra i => immBody opc rd ra.val i
  | .idx ra rb => triBody opc rd ra.val rb.val

/-- Bits [24:0] of a SYS syllable (R68). -/
def sysBody (opc arg : Nat) : Nat := 2 ^ 22 + opc * 2 ^ 16 + arg

/-- Bits [24:0] of a BRA syllable (R68). -/
def braBody (link hint : Bool) (disp : BitVec 20) : Nat := 2 * 2 ^ 22 + b2n link * 2 ^ 21 + b2n hint * 2 ^ 20 + disp.toNat

/-- The immediate of a second operand, where it is one. -/
def opndImm : Opnd → Option Word
  | .reg _ => none
  | .imm i => some i

/-- The immediate of an address, where it has one. -/
def addrImm : Addr → Option Word
  | .imm _ i => some i
  | .idx _ _ => none

/-- What a command that is a syllable is encoded as: the units it may run on (0 A, 1 B, 2 M, 3 X), its predicate, bits [24:0], its
immediate, and whether it stands for any reserved encoding of its unit. -/
structure SylCode where
  units : List Nat
  pred : Pred
  body : Nat
  imm : Option Word := none
  reserved : Bool := false
deriving DecidableEq, Repr

/-- The thread and the encoding of a command; none for one that is no syllable. -/
def sylCode : Instr → Option (Gtn × SylCode)
  | .add t q rd ra rb => some (t, ⟨[0, 1], q, triBody 0x0 rd ra rb, none, false⟩)
  | .sub t q rd ra rb => some (t, ⟨[0, 1], q, triBody 0x1 rd ra rb, none, false⟩)
  | .and t q rd ra rb => some (t, ⟨[0, 1], q, triBody 0x2 rd ra rb, none, false⟩)
  | .or t q rd ra rb => some (t, ⟨[0, 1], q, triBody 0x3 rd ra rb, none, false⟩)
  | .xor t q rd ra rb => some (t, ⟨[0, 1], q, triBody 0x4 rd ra rb, none, false⟩)
  | .andn t q rd ra rb => some (t, ⟨[0, 1], q, triBody 0x5 rd ra rb, none, false⟩)
  | .shl t q rd ra rb => some (t, ⟨[0, 1], q, triBody 0x6 rd ra rb, none, false⟩)
  | .shr t q rd ra rb => some (t, ⟨[0, 1], q, triBody 0x7 rd ra rb, none, false⟩)
  | .sra t q rd ra rb => some (t, ⟨[0, 1], q, triBody 0x8 rd ra rb, none, false⟩)
  | .min t q rd ra rb => some (t, ⟨[0, 1], q, triBody 0x9 rd ra rb, none, false⟩)
  | .max t q rd ra rb => some (t, ⟨[0, 1], q, triBody 0xa rd ra rb, none, false⟩)
  | .minu t q rd ra rb => some (t, ⟨[0, 1], q, triBody 0xb rd ra rb, none, false⟩)
  | .maxu t q rd ra rb => some (t, ⟨[0, 1], q, triBody 0xc rd ra rb, none, false⟩)
  | .sxB t q rd ra => some (t, ⟨[0, 1], q, triBody 0xd rd ra 0, none, false⟩)
  | .sxH t q rd ra => some (t, ⟨[0, 1], q, triBody 0xe rd ra 0, none, false⟩)
  | .sxW t q rd ra => some (t, ⟨[0, 1], q, triBody 0xf rd ra 0, none, false⟩)
  | .zxB t q rd ra => some (t, ⟨[0, 1], q, triBody 0x10 rd ra 0, none, false⟩)
  | .zxH t q rd ra => some (t, ⟨[0, 1], q, triBody 0x11 rd ra 0, none, false⟩)
  | .zxW t q rd ra => some (t, ⟨[0, 1], q, triBody 0x12 rd ra 0, none, false⟩)
  | .addP t q rd ra rb => some (t, ⟨[0, 1], q, triBody 0x13 rd ra rb, none, false⟩)
  | .subP t q rd ra rb => some (t, ⟨[0, 1], q, triBody 0x14 rd ra rb, none, false⟩)
  | .addPu t q rd ra rb => some (t, ⟨[0, 1], q, triBody 0x15 rd ra rb, none, false⟩)
  | .subPu t q rd ra rb => some (t, ⟨[0, 1], q, triBody 0x16 rd ra rb, none, false⟩)
  | .satB t q rd ra => some (t, ⟨[0], q, triBody 0x20 rd ra 0, none, false⟩)
  | .satBu t q rd ra => some (t, ⟨[0], q, triBody 0x21 rd ra 0, none, false⟩)
  | .satH t q rd ra => some (t, ⟨[0], q, triBody 0x22 rd ra 0, none, false⟩)
  | .satHu t q rd ra => some (t, ⟨[0], q, triBody 0x23 rd ra 0, none, false⟩)
  | .satW t q rd ra => some (t, ⟨[0], q, triBody 0x24 rd ra 0, none, false⟩)
  | .satWu t q rd ra => some (t, ⟨[0], q, triBody 0x25 rd ra 0, none, false⟩)
  | .satP t q rd ra => some (t, ⟨[0], q, triBody 0x26 rd ra 0, none, false⟩)
  | .clz t q rd ra => some (t, ⟨[0], q, triBody 0x28 rd ra 0, none, false⟩)
  | .clzW t q rd ra => some (t, ⟨[0], q, triBody 0x29 rd ra 0, none, false⟩)
  | .cls t q rd ra => some (t, ⟨[0], q, triBody 0x2a rd ra 0, none, false⟩)
  | .bperm t q rd ra rb => some (t, ⟨[0], q, triBody 0x2c rd ra rb, none, false⟩)
  | .mul t q rd ra rb => some (t, ⟨[1], q, triBody 0x40 rd ra rb, none, false⟩)
  | .mulWp t q rd ra rb => some (t, ⟨[1], q, triBody 0x41 rd ra rb, none, false⟩)
  | .mulWpu t q rd ra rb => some (t, ⟨[1], q, triBody 0x42 rd ra rb, none, false⟩)
  | .macH t q rd ra rb => some (t, ⟨[1], q, triBody 0x44 rd ra rb, none, false⟩)
  | .macHu t q rd ra rb => some (t, ⟨[1], q, triBody 0x45 rd ra rb, none, false⟩)
  | .macP t q rd ra rb => some (t, ⟨[1], q, triBody 0x46 rd ra rb, none, false⟩)
  | .div t q rd ra rb => some (t, ⟨[1], q, triBody 0x48 rd ra rb, none, false⟩)
  | .divu t q rd ra rb => some (t, ⟨[1], q, triBody 0x49 rd ra rb, none, false⟩)
  | .rem t q rd ra rb => some (t, ⟨[1], q, triBody 0x4a rd ra rb, none, false⟩)
  | .remu t q rd ra rb => some (t, ⟨[1], q, triBody 0x4b rd ra rb, none, false⟩)
  | .faddS t q rd ra rb => some (t, ⟨[1], q, triBody 0x50 rd ra rb, none, false⟩)
  | .fsubS t q rd ra rb => some (t, ⟨[1], q, triBody 0x51 rd ra rb, none, false⟩)
  | .fmulS t q rd ra rb => some (t, ⟨[1], q, triBody 0x52 rd ra rb, none, false⟩)
  | .fmaS t q rd ra rb => some (t, ⟨[1], q, triBody 0x53 rd ra rb, none, false⟩)
  | .fminS t q rd ra rb => some (t, ⟨[1], q, triBody 0x54 rd ra rb, none, false⟩)
  | .fmaxS t q rd ra rb => some (t, ⟨[1], q, triBody 0x55 rd ra rb, none, false⟩)
  | .fabsS t q rd ra => some (t, ⟨[1], q, triBody 0x56 rd ra 0, none, false⟩)
  | .fnegS t q rd ra => some (t, ⟨[1], q, triBody 0x57 rd ra 0, none, false⟩)
  | .faddH t q rd ra rb => some (t, ⟨[1], q, triBody 0x58 rd ra rb, none, false⟩)
  | .fsubH t q rd ra rb => some (t, ⟨[1], q, triBody 0x59 rd ra rb, none, false⟩)
  | .fmulH t q rd ra rb => some (t, ⟨[1], q, triBody 0x5a rd ra rb, none, false⟩)
  | .fmaH t q rd ra rb => some (t, ⟨[1], q, triBody 0x5b rd ra rb, none, false⟩)
  | .fminH t q rd ra rb => some (t, ⟨[1], q, triBody 0x5c rd ra rb, none, false⟩)
  | .fmaxH t q rd ra rb => some (t, ⟨[1], q, triBody 0x5d rd ra rb, none, false⟩)
  | .fabsH t q rd ra => some (t, ⟨[1], q, triBody 0x5e rd ra 0, none, false⟩)
  | .fnegH t q rd ra => some (t, ⟨[1], q, triBody 0x5f rd ra 0, none, false⟩)
  | .fcvtSH t q rd ra => some (t, ⟨[1], q, triBody 0x60 rd ra 0, none, false⟩)
  | .fcvtHS t q rd ra => some (t, ⟨[1], q, triBody 0x61 rd ra 0, none, false⟩)
  | .fcvtSW t q rd ra => some (t, ⟨[1], q, triBody 0x62 rd ra 0, none, false⟩)
  | .fcvtSWu t q rd ra => some (t, ⟨[1], q, triBody 0x63 rd ra 0, none, false⟩)
  | .fcvtWS t q rd ra => some (t, ⟨[1], q, triBody 0x64 rd ra 0, none, false⟩)
  | .fcvtWSN t q rd ra => some (t, ⟨[1], q, triBody 0x65 rd ra 0, none, false⟩)
  | .fcvtWuS t q rd ra => some (t, ⟨[1], q, triBody 0x66 rd ra 0, none, false⟩)
  | .fclassS t q rd ra => some (t, ⟨[1], q, triBody 0x67 rd ra 0, none, false⟩)
  | .fclassH t q rd ra => some (t, ⟨[1], q, triBody 0x68 rd ra 0, none, false⟩)
  | .addi t q rd ra i => some (t, ⟨[0, 1], q, immBody 0x0 rd ra i, (some i), false⟩)
  | .andi t q rd ra i => some (t, ⟨[0, 1], q, immBody 0x1 rd ra i, (some i), false⟩)
  | .ori t q rd ra i => some (t, ⟨[0, 1], q, immBody 0x2 rd ra i, (some i), false⟩)
  | .xori t q rd ra i => some (t, ⟨[0, 1], q, immBody 0x3 rd ra i, (some i), false⟩)
  | .shli t q rd ra i => some (t, ⟨[0, 1], q, immBody 0x4 rd ra i, (some i), false⟩)
  | .shri t q rd ra i => some (t, ⟨[0, 1], q, immBody 0x5 rd ra i, (some i), false⟩)
  | .srai t q rd ra i => some (t, ⟨[0, 1], q, immBody 0x6 rd ra i, (some i), false⟩)
  | .rsubi t q rd ra i => some (t, ⟨[0, 1], q, immBody 0x7 rd ra i, (some i), false⟩)
  | .mini t q rd ra i => some (t, ⟨[0, 1], q, immBody 0x8 rd ra i, (some i), false⟩)
  | .maxi t q rd ra i => some (t, ⟨[0, 1], q, immBody 0x9 rd ra i, (some i), false⟩)
  | .minui t q rd ra i => some (t, ⟨[0, 1], q, immBody 0xa rd ra i, (some i), false⟩)
  | .maxui t q rd ra i => some (t, ⟨[0, 1], q, immBody 0xb rd ra i, (some i), false⟩)
  | .muli t q rd ra i => some (t, ⟨[1], q, immBody 0xc rd ra i, (some i), false⟩)
  | .bfx t q rd ra pos wm1 => some (t, ⟨[0], q, bfdBody 0 rd ra pos wm1, none, false⟩)
  | .bfi t q rd ra pos wm1 => some (t, ⟨[0], q, bfdBody 1 rd ra pos wm1, none, false⟩)
  | .eq t q c pd ra b => some (t, ⟨[0], q, cmpBody 0x0 c pd ra b, (opndImm b), false⟩)
  | .ne t q c pd ra b => some (t, ⟨[0], q, cmpBody 0x1 c pd ra b, (opndImm b), false⟩)
  | .lt t q c pd ra b => some (t, ⟨[0], q, cmpBody 0x2 c pd ra b, (opndImm b), false⟩)
  | .ge t q c pd ra b => some (t, ⟨[0], q, cmpBody 0x3 c pd ra b, (opndImm b), false⟩)
  | .le t q c pd ra b => some (t, ⟨[0], q, cmpBody 0x4 c pd ra b, (opndImm b), false⟩)
  | .gt t q c pd ra b => some (t, ⟨[0], q, cmpBody 0x5 c pd ra b, (opndImm b), false⟩)
  | .ltu t q c pd ra b => some (t, ⟨[0], q, cmpBody 0x6 c pd ra b, (opndImm b), false⟩)
  | .geu t q c pd ra b => some (t, ⟨[0], q, cmpBody 0x7 c pd ra b, (opndImm b), false⟩)
  | .leu t q c pd ra b => some (t, ⟨[0], q, cmpBody 0x8 c pd ra b, (opndImm b), false⟩)
  | .gtu t q c pd ra b => some (t, ⟨[0], q, cmpBody 0x9 c pd ra b, (opndImm b), false⟩)
  | .tst t q c pd ra b => some (t, ⟨[0], q, cmpBody 0xa c pd ra b, (opndImm b), false⟩)
  | .ntst t q c pd ra b => some (t, ⟨[0], q, cmpBody 0xb c pd ra b, (opndImm b), false⟩)
  | .feqS t q c pd ra b => some (t, ⟨[1], q, cmpBody 0x0 c pd ra b, (opndImm b), false⟩)
  | .fltS t q c pd ra b => some (t, ⟨[1], q, cmpBody 0x1 c pd ra b, (opndImm b), false⟩)
  | .fleS t q c pd ra b => some (t, ⟨[1], q, cmpBody 0x2 c pd ra b, (opndImm b), false⟩)
  | .funS t q c pd ra b => some (t, ⟨[1], q, cmpBody 0x3 c pd ra b, (opndImm b), false⟩)
  | .feqH t q c pd ra b => some (t, ⟨[1], q, cmpBody 0x8 c pd ra b, (opndImm b), false⟩)
  | .fltH t q c pd ra b => some (t, ⟨[1], q, cmpBody 0x9 c pd ra b, (opndImm b), false⟩)
  | .fleH t q c pd ra b => some (t, ⟨[1], q, cmpBody 0xa c pd ra b, (opndImm b), false⟩)
  | .funH t q c pd ra b => some (t, ⟨[1], q, cmpBody 0xb c pd ra b, (opndImm b), false⟩)
  | .reservedEncoding t q body => some (t, ⟨[body.unit.val], q, body.bits.toNat, none, true⟩)
  | .ldB t q rd a => some (t, ⟨[2], q, memBody 0x0 rd a, (addrImm a), false⟩)
  | .ldH t q rd a => some (t, ⟨[2], q, memBody 0x1 rd a, (addrImm a), false⟩)
  | .ldW t q rd a => some (t, ⟨[2], q, memBody 0x2 rd a, (addrImm a), false⟩)
  | .ldX t q rd a => some (t, ⟨[2], q, memBody 0x3 rd a, (addrImm a), false⟩)
  | .ldBu t q rd a => some (t, ⟨[2], q, memBody 0x4 rd a, (addrImm a), false⟩)
  | .ldHu t q rd a => some (t, ⟨[2], q, memBody 0x5 rd a, (addrImm a), false⟩)
  | .ldWu t q rd a => some (t, ⟨[2], q, memBody 0x6 rd a, (addrImm a), false⟩)
  | .ldD t q rd a => some (t, ⟨[2], q, memBody 0x7 rd a, (addrImm a), false⟩)
  | .stB t q rd a => some (t, ⟨[2], q, memBody 0x8 rd a, (addrImm a), false⟩)
  | .stH t q rd a => some (t, ⟨[2], q, memBody 0x9 rd a, (addrImm a), false⟩)
  | .stW t q rd a => some (t, ⟨[2], q, memBody 0xa rd a, (addrImm a), false⟩)
  | .stX t q rd a => some (t, ⟨[2], q, memBody 0xb rd a, (addrImm a), false⟩)
  | .stD t q rd a => some (t, ⟨[2], q, memBody 0xc rd a, (addrImm a), false⟩)
  | .ssB t q rd ra rb => some (t, ⟨[2], q, triBody 0x10 rd ra rb, none, false⟩)
  | .ssBu t q rd ra rb => some (t, ⟨[2], q, triBody 0x11 rd ra rb, none, false⟩)
  | .ssH t q rd ra rb => some (t, ⟨[2], q, triBody 0x12 rd ra rb, none, false⟩)
  | .ssHu t q rd ra rb => some (t, ⟨[2], q, triBody 0x13 rd ra rb, none, false⟩)
  | .ssW t q rd ra rb => some (t, ⟨[2], q, triBody 0x14 rd ra rb, none, false⟩)
  | .ssWu t q rd ra rb => some (t, ⟨[2], q, triBody 0x15 rd ra rb, none, false⟩)
  | .ldAqW t q rd ra rb => some (t, ⟨[2], q, triBody 0x20 rd ra rb, none, false⟩)
  | .ldAqX t q rd ra rb => some (t, ⟨[2], q, triBody 0x21 rd ra rb, none, false⟩)
  | .stRlW t q rd ra rb => some (t, ⟨[2], q, triBody 0x22 rd ra rb, none, false⟩)
  | .stRlX t q rd ra rb => some (t, ⟨[2], q, triBody 0x23 rd ra rb, none, false⟩)
  | .fence t q => some (t, ⟨[2], q, triBody 0x28 0 0 0, none, false⟩)
  | .fenceSs t q => some (t, ⟨[2], q, triBody 0x29 0 0 0, none, false⟩)
  | .ldlW t q rd ra => some (t, ⟨[2], q, triBody 0x30 rd ra 0, none, false⟩)
  | .ldlX t q rd ra => some (t, ⟨[2], q, triBody 0x31 rd ra 0, none, false⟩)
  | .stcW t q rd ra rb => some (t, ⟨[2], q, triBody 0x32 rd ra rb, none, false⟩)
  | .stcX t q rd ra rb => some (t, ⟨[2], q, triBody 0x33 rd ra rb, none, false⟩)
  | .sunpk t q rd ra rb => some (t, ⟨[2], q, triBody 0x34 rd ra rb, none, false⟩)
  | .spack t q rd ra rb => some (t, ⟨[2], q, triBody 0x35 rd ra rb, none, false⟩)
  | .copy t q rd ra rb => some (t, ⟨[2], q, triBody 0x38 rd ra rb, none, false⟩)
  | .fill t q rd ra rb => some (t, ⟨[2], q, triBody 0x39 rd ra rb, none, false⟩)
  | .cmpb t q rd ra rb => some (t, ⟨[2], q, triBody 0x3a rd ra rb, none, false⟩)
  | .crc32c t q rd ra rb => some (t, ⟨[2], q, triBody 0x3c rd ra rb, none, false⟩)
  | .crc16 t q rd ra rb => some (t, ⟨[2], q, triBody 0x3d rd ra rb, none, false⟩)
  | .crc8 t q rd ra rb => some (t, ⟨[2], q, triBody 0x3e rd ra rb, none, false⟩)
  | .crc8h t q rd ra rb => some (t, ⟨[2], q, triBody 0x3f rd ra rb, none, false⟩)
  | .amoSwapW t q rd ra rb => some (t, ⟨[2], q, triBody 0x40 rd ra rb, none, false⟩)
  | .amoAddW t q rd ra rb => some (t, ⟨[2], q, triBody 0x41 rd ra rb, none, false⟩)
  | .amoAndW t q rd ra rb => some (t, ⟨[2], q, triBody 0x42 rd ra rb, none, false⟩)
  | .amoOrW t q rd ra rb => some (t, ⟨[2], q, triBody 0x43 rd ra rb, none, false⟩)
  | .amoXorW t q rd ra rb => some (t, ⟨[2], q, triBody 0x44 rd ra rb, none, false⟩)
  | .amoMinW t q rd ra rb => some (t, ⟨[2], q, triBody 0x45 rd ra rb, none, false⟩)
  | .amoMaxW t q rd ra rb => some (t, ⟨[2], q, triBody 0x46 rd ra rb, none, false⟩)
  | .amoMinuW t q rd ra rb => some (t, ⟨[2], q, triBody 0x47 rd ra rb, none, false⟩)
  | .amoMaxuW t q rd ra rb => some (t, ⟨[2], q, triBody 0x48 rd ra rb, none, false⟩)
  | .amoCasW t q rd ra rb => some (t, ⟨[2], q, triBody 0x49 rd ra rb, none, false⟩)
  | .amoSwapX t q rd ra rb => some (t, ⟨[2], q, triBody 0x4c rd ra rb, none, false⟩)
  | .amoAddX t q rd ra rb => some (t, ⟨[2], q, triBody 0x4d rd ra rb, none, false⟩)
  | .amoCasX t q rd ra rb => some (t, ⟨[2], q, triBody 0x4e rd ra rb, none, false⟩)
  | .clClean t q ra => some (t, ⟨[2], q, triBody 0x60 0 ra 0, none, false⟩)
  | .clFlush t q ra => some (t, ⟨[2], q, triBody 0x61 0 ra 0, none, false⟩)
  | .clInv t q ra => some (t, ⟨[2], q, triBody 0x62 0 ra 0, none, false⟩)
  | .clZero t q ra => some (t, ⟨[2], q, triBody 0x63 0 ra 0, none, false⟩)
  | .clPref t q ra => some (t, ⟨[2], q, triBody 0x64 0 ra 0, none, false⟩)
  | .clPrefw t q ra => some (t, ⟨[2], q, triBody 0x65 0 ra 0, none, false⟩)
  | .tlbiVa t q ra => some (t, ⟨[2], q, triBody 0x70 0 ra 0, none, false⟩)
  | .tlbiVaa t q ra => some (t, ⟨[2], q, triBody 0x71 0 ra 0, none, false⟩)
  | .tlbiAsid t q ra => some (t, ⟨[2], q, triBody 0x72 0 ra 0, none, false⟩)
  | .tlbiOwn t q => some (t, ⟨[2], q, triBody 0x73 0 0 0, none, false⟩)
  | .tlbiIpa t q ra rb => some (t, ⟨[2], q, triBody 0x78 0 ra rb, none, false⟩)
  | .tlbiB t q rb => some (t, ⟨[2], q, triBody 0x79 0 0 rb, none, false⟩)
  | .tlbiAll t q => some (t, ⟨[2], q, triBody 0x7a 0 0 0, none, false⟩)
  | .mfsr t q rd srn => some (t, ⟨[3], q, rd.val * 2 ^ 10 + srn.toNat, none, false⟩)
  | .mtsr t q srn rd => some (t, ⟨[3], q, 2 ^ 15 + rd.val * 2 ^ 10 + srn.toNat, none, false⟩)
  | .jmp t q ra => some (t, ⟨[3], q, triBody 0x2 0 ra 0, none, false⟩)
  | .jmpl t q rd ra => some (t, ⟨[3], q, triBody 0x3 rd ra 0, none, false⟩)
  | .iflush t q ra => some (t, ⟨[3], q, triBody 0x4 0 ra 0, none, false⟩)
  | .tnote t q ra tag => some (t, ⟨[3], q, triBody 5 0 ra tag, none, false⟩)
  | .bra t q link hint disp => some (t, ⟨[3], q, braBody link hint disp, none, false⟩)
  | .wait t q mask => some (t, ⟨[3], q, sysBody 0 mask.toNat, none, false⟩)
  | .sysc t q arg => some (t, ⟨[3], q, sysBody 1 arg.toNat, none, false⟩)
  | .hypc t q arg => some (t, ⟨[3], q, sysBody 2 arg.toNat, none, false⟩)
  | .rfx t q => some (t, ⟨[3], q, sysBody 3 0, none, false⟩)
  | .syncC t q => some (t, ⟨[3], q, sysBody 4 0, none, false⟩)
  | .pflush t q => some (t, ⟨[3], q, sysBody 5 0, none, false⟩)
  | .pbar t q => some (t, ⟨[3], q, sysBody 6 0, none, false⟩)
  | .ucall t q i => some (t, ⟨[3], q, sysBody 7 i.val, none, false⟩)
  | _ => none

/-- R69: the immediate that a syllable forms from its low byte and the bundle's LIM payload. -/
def formImm (lim : Option Nat) (low : Nat) : Word :=
  match lim with
  | some k => BitVec.ofNat 36 (k * 256 + low)
  | none => signExtFrom 8 (BitVec.ofNat 36 low)

/-- The payload K of the LIM of a bundle, if it has one (R68). -/
def limOf (ws : List W32) : Option Nat := (ws.find? sylLim).map (fun l => bits l 28 25 * 2 ^ 24 + bits l 23 0)

/-- Is a fetched syllable the encoding of a command (R66 to R69, R88): unit, predicate, bits [24:0] and immediate. -/
def SylCode.isWord (c : SylCode) (lim : Option Nat) (w : W32) : Bool :=
  c.units.contains (sylUnit w) && bits w 28 26 == c.pred.reg.val && bit w 25 == c.pred.neg && bits w 24 0 == c.body &&
  (match c.imm with
   | some i => formImm lim (bits w 7 0) == i
   | none => true) &&
  (!c.reserved || sylReserved w)

/-- Is a command the next syllable of the thread's bundle. A bundle that ISSUE_SELECT framed says which syllables it has; one of
which only the command is known (log 12) has that one. A command that is no syllable is none of a bundle's. -/
def State.spells (s : State) (i : Instr) : Bool :=
  match sylCode i with
  | none => true
  | some (t, c) =>
    match (s.th t).bun with
    | some b =>
      (match b.code[b.pos]? with
       | some w => c.isWord b.lim w
       | none => b.code.isEmpty)
    | none => true

/-- R66: a syllable's effect, where the thread's bundle holds that syllable next; otherwise nothing happens (log 8). -/
def State.ask (s : State) (i : Instr) (o : Out) : Out := if s.spells i then o else ok s

end Sys2Proof.Machine
end

