-- ==== Sys2Proof/Machine/Flags.lean ====
section
/-! DEFINITION. The sticky overflow flag ST.SOV (R98) and the fields of ST that MTSR writes (R84, R85). -/

namespace Sys2Proof.Machine

/-- ST.SOV set by a syllable of the bundle in execution (R98). -/
def Thread.setSov (x : Thread) (b : Bool) : Thread :=
  if b then
    { x with ctx := { x.ctx with st := putBit x.ctx.st 9 true },
             bun := match x.bun with
               | some k => some { k with sov := true }
               | none => none }
  else x

/-- The bits of ST that MTSR writes at a privilege level (R84). -/
def stMask (pl : Nat) : Nat := if pl = 0 then 0x200 else 0xFFFEFC

/-- R84, R98: ST after an MTSR to ST of value `v` at level `pl`; a syllable of the same bundle may have set SOV. -/
def stWritten (st v : Word) (pl : Nat) (sov : Bool) : Word :=
  let m : Word := BitVec.ofNat 36 (stMask pl)
  let r := (st &&& ~~~m) ||| (v &&& m)
  if sov then putBit r 9 true else r

/-- R85: the value an MTSR to XST of a level stores; the STRICT field stays the berth's. -/
def xstWritten (level : Nat) (strict : Bool) (v : Word) : Word :=
  let pl := if level = 1 then (if bits v 1 0 ≥ 2 then 1 else bits v 1 0) else (if bits v 1 0 = 3 then 2 else bits v 1 0)
  putBit (putBits (BitVec.ofNat 36 (bits v 23 0)) 0 2 pl) 8 strict

/-- The lowest level at which a system register can be read (R83, R167). -/
def srnReadAt (n : Nat) : Nat :=
  if n ≤ 2 ∨ n = 8 then 0
  else if n = 9 ∨ n = 0xA ∨ (0x10 ≤ n ∧ n ≤ 0x1B) ∨ n = 0x40 ∨ n = 0x41 then 1
  else 2

/-- Is a system register writable at no level (R84). -/
def srnReadOnly (n : Nat) : Bool := n == 8 || n == 9 || n == 0x48 || n == 0x49

/-- The lowest level at which a writable system register can be written (R83, R167). -/
def srnWriteAt (n : Nat) : Nat := if n = 0 then 0 else if n = 0xA then 2 else if n ≤ 2 then 1 else srnReadAt n

/-- The bits that a write of a system register stores (R83, R85 to R87, R167, R43). -/
def srnMask (n : Nat) : Nat :=
  if n = 0x10 ∨ n = 0x20 then 0xF_FFFF_FFFC
  else if n = 0x12 ∨ n = 0x22 then 0xFFFFFFFF
  else if n = 0x14 ∨ n = 0x24 then 0xF_FFFF_F000
  else if n = 0x40 then 0x7FFFFFFF
  else if n = 0x41 then 3
  else if n = 0x4C then 0x1FFFFFFF
  else if n = 0xA then 0x7F7F7F7F
  else 0xF_FFFF_FFFF

end Sys2Proof.Machine
end

