-- ==== Sys2Proof/Machine/Operands.lean ====
section
/-! DEFINITION. The frame of a syllable: the bundle it belongs to, what it reads (R73), what it writes, its interval (R41),
its operand forms, its fault (R74), and the confined result of a reserved encoding (R89). -/

namespace Sys2Proof.Machine

/-- Is a core the checker of a paired cluster (R60): its numbers name no thread. -/
def State.checker (s : State) (c : Nat) : Bool := s.paired.getLsbD (c / 4) && c % 2 == 1

/-- The state of a power domain (R395): PD00 is always on. -/
def State.domain (s : State) (d : Nat) : Dom := Tbl.get (fun k => if k = 0 then Dom.on else Dom.off) s.dom d

/-- Does a core run: its cluster's domain is on, the device is not frozen, and it is no checker. -/
def State.coreRuns (s : State) (c : Nat) : Bool :=
  s.domain (2 + c / 4) == .on && !s.frozen && !s.checker c

/-- The cycle count of a thread's core. -/
def State.cycleOf (s : State) (t : Nat) : Nat := (s.core (coreOf t)).cycle

/-- The bundle that the thread's next syllable belongs to: the one in execution while it has syllables left and none of
them waits or has faulted, else a bundle of one syllable at the program counter of a running thread (log 12). -/
def State.openSyl (s : State) (t : Nat) : Option Bundle :=
  let x := s.th t
  if s.coreRuns (coreOf t) && x.state == .run && x.pend.isNone && x.mem == .idle && x.pat.isNone && x.stall == .none &&
     !x.resetting && !x.resuming && !x.bnd then
    match x.bun with
    | some b => if b.pos < b.len then some b else none
    | none =>
      if s.queued t then none
      else some { addr := x.ctx.pc, len := 1, old := x.ctx, next := x.ctx.pc + 4, issued := s.cycleOf t,
                  ready := s.cycleOf t + 4, sbMark := x.sbOrder }
  else none

/-- Does a syllable with a predicate execute in a bundle (R67, R73). -/
def Bundle.holds (b : Bundle) (q : Pred) : Bool := b.old.rdP q.reg != q.neg

/-- A syllable of a thread's bundle: it takes the next place in it, and when its predicate holds it has its effect and the
bundle's ready time is not before its interval `iv` (R41); one whose predicate is false takes the least interval, 4 (log 104). Where the
thread can execute no syllable nothing happens (log 8). -/
def State.syl (s : State) (t : Nat) (q : Pred) (iv : Nat) (f : State → State) : State :=
  match s.openSyl t with
  | none => s
  | some b =>
    let run := b.holds q
    let b' := { b with pos := b.pos + 1, ready := Nat.max b.ready (b.issued + (if run then iv else 4)) }
    let s := s.modTh t (fun x => { x with bun := some b' })
    if run then f s else s

/-- The bundle of a thread, once a syllable runs. -/
def State.bunOf (s : State) (t : Nat) : Bundle :=
  match (s.th t).bun with
  | some b => b
  | none => { addr := (s.th t).ctx.pc, len := 1, old := (s.th t).ctx, next := (s.th t).ctx.pc }

/-- The bundle's ready time is not before `n` (R41). -/
def State.readyBy (s : State) (t n : Nat) : State :=
  s.modTh t (fun x => match x.bun with
    | some b => { x with bun := some { b with ready := Nat.max b.ready n } }
    | none => x)

/-- A general register as it stood before the bundle (R73). -/
def State.src (s : State) (t : Nat) (r : Reg) : Word := (s.bunOf t).old.rd r

/-- The second source of a compare (R68). -/
def State.opnd (s : State) (t : Nat) (b : Opnd) : Word :=
  match b with
  | .reg r => s.src t r
  | .imm i => i

/-- The effective address of an M-unit syllable, modulo 2^36 (R77, R116). -/
def State.ea (s : State) (t : Nat) (a : Addr) : Word :=
  match a with
  | .imm ra i => s.src t ra + i
  | .idx ra rb => s.src t ra + s.src t rb

/-- Writes a general register for a syllable of unit rank `u` (0 A, 1 B, 2 M, 3 X): a register that a pattern of a later
unit wrote keeps the pattern's value (R73, R144). A fresh value has correct parity (R79). -/
def Thread.wrReg (x : Thread) (u r : Nat) (v : Word) : Thread :=
  let kept := match x.bun with
    | some b => b.keep.contains r && decide (u < b.keepUnit)
    | none => false
  if kept then x else { x with ctx := x.ctx.wr r v, par := Tbl.del x.par r }

/-- `Thread.wrReg` in a state. -/
def State.wrReg (s : State) (t u : Nat) (r : Reg) (v : Word) : State := s.modTh t (fun x => x.wrReg u r v)

/-- Writes a pair (R78): even and odd register. -/
def State.wrPair (s : State) (t u : Nat) (r : Reg) (v : Word × Word) : State :=
  s.modTh t (fun x => (x.wrReg u r v.1).wrReg u (r + 1) v.2)

/-- A pair as it stood before the bundle. -/
def State.srcPair (s : State) (t : Nat) (r : Reg) : Word × Word := (s.src t r, s.src t (r + 1))

/-- Sets ST.SOV when a condition holds. -/
def State.sov (s : State) (t : Nat) (b : Bool) : State := s.modTh t (fun x => x.setSov b)

/-- Writes a predicate. -/
def State.wrPred (s : State) (t : Nat) (p : PReg) (v : Bool) : State :=
  s.modTh t (fun x => { x with ctx := x.ctx.wrP p v, par := Tbl.del x.par 32 })

/-- R74: the effects of a thread's bundle are taken back: its registers are as before it, and the stores it placed leave the store
buffer. -/
def State.undo (s : State) (t : Nat) (b : Bundle) : State :=
  (s.modTh t (fun x => { x with ctx := b.old })).modCore (coreOf t) (fun k =>
    { k with sb := k.sb.filter (fun e => e.gtn != t || decide (e.order < b.sbMark)) })

/-- R74: a syllable raises a synchronous fault: no syllable of the bundle has an effect, the stores it placed in the store
buffer are taken out, and the cause waits for the boundary. `extra` cycles pass from `base` to the handler's first bundle
(R158). -/
def State.faultAt (s : State) (t : Nat) (c : Cause) (base extra : Nat) : State :=
  let x := s.th t
  match x.bun with
  | none => s.setTh t { x with pend := some c, mem := .idle }
  | some b =>
    let b' := { b with pos := b.len, call := none, rfx := false, waitMask := none, ready := base + extra }
    (s.setTh t { x with pend := some c, mem := .idle, pat := none, stall := .none, bun := some b' }).undo t b

/-- A fault found at decode, translation or a permission check (R158). -/
def State.fault (s : State) (t : Nat) (c : Cause) : State := s.faultAt t c (s.bunOf t).issued 12

/-- A fault reported by a response (R158). -/
def State.faultLate (s : State) (t : Nat) (c : Cause) : State := s.faultAt t c (s.cycleOf t) 10

/-! ## Lock-up (R163 to R165) -/

/-- The lock-up record of a cluster: flag of the kind, source and address. -/
def State.lockRecord (s : State) (t kind cls : Nat) (addr : Word) : State :=
  let x := s.th t
  let n := clusterOf t
  let page := 0x1040005000 + n * 0x100000
  s.recordCap page (2 ^ (18 - kind)) (some (8 * n))
    [(page + 4, BitVec.ofNat 32 (kind * 2 ^ 28 + x.berth * 2 ^ 22 + stPl x.ctx.st * 2 ^ 20 + cls * 2 ^ 14 + t)),
     (page + 8, BitVec.ofNat 32 (addr.toNat / 4 * 4)), (page + 0xC, BitVec.ofNat 32 (addr.toNat / 2 ^ 32))]

/-- R58: the bundle that a load was launched for does not execute: the event WP_LAUNCH. -/
def State.launchLost (s : State) (t : Nat) : State :=
  let x := s.th t
  let s := s.setTh t { x with launch := none, elWant := none }
  if x.launch.isSome then s.perfEvent (coreOf t) 0x012 1 (some (t, x.berth)) else s

/-- R163: a thread becomes LOCKED: its bundle in execution has no effect, LOCKUP_N goes low, and the thread's berth is told. A FREE
thread, which only a mismatch locks (R62), has no berth to tell (log 105). -/
def State.lockOne (s : State) (t kind cls : Nat) (addr : Word) (reg : Nat) : State :=
  let x := s.th t
  let s := match x.bun with
    | some b => s.undo t b
    | none => s
  let s := ((s.launchLost t).unqueue t).modTh t (fun x => { x with
    state := .locked, link := none, bun := none, pend := none, mem := .idle, pat := none, stall := .none, resuming := false,
    holdReq := false, wakeNext := false, bnd := false, bndEnt := none })
  let s := { s with lockLow := true, lockMin := true }
  if x.state = .free then s
  else
    ((((s.signalBerth x.berth 1).count (0x100 + x.berth) 1).count 0x40 5).logErr 1 1 (some t) x.berth addr.toNat
      (kind * 2 ^ 28 + cls * 2 ^ 14 + stPl x.ctx.st) reg)

/-- R163: a thread locks. -/
def State.lockThread (s : State) (t kind cls : Nat) (addr : Word) (reg : Nat) : State :=
  let s := s.lockRecord t kind cls addr
  let s := if kind = 2 then s.count (clusterOf t) 15 else s
  s.lockOne t kind cls addr reg

/-- R72, R90: the Illegal cause of a bundle. -/
def illegalCause (addr : Word) (kind pos : Nat) : Cause :=
  { cls := 1, detail := kind * 16 + pos, target := 1, level := some 15, xra := addr, xfa := addr }

/-- R151, R152: the Privilege cause: KIND 0 MFSR, 1 MTSR, 2 a SYS operation or TLB maintenance. -/
def privCause (addr : Word) (kind pos xfa : Nat) : Cause :=
  { cls := 2, detail := kind * 64 + pos, target := 1, level := some 15, xra := addr, xfa := BitVec.ofNat 36 xfa }

/-- The position of the syllable that runs: an X-unit syllable is the last of its bundle. -/
def State.pos (s : State) (t : Nat) : Nat := (s.bunOf t).pos - 1
def State.xPos (s : State) (t : Nat) : Nat := (s.bunOf t).len - 1

/-- R89, R73: the confined result of a reserved syllable of a unit with bits [24:0] `body`. -/
def State.confine (s : State) (t u : Nat) (body : Nat) : State :=
  s.modTh t (fun x =>
    let x := x.wrReg u (body / 2 ^ 10 % 32) 0
    let x := x.wrReg u (body / 2 ^ 13 % 32) 0
    { x with ctx := x.ctx.wrP (body / 2 ^ 13 % 8) false, par := Tbl.del x.par 32 })

/-- R89, R90: a reserved syllable: the Illegal fault under ST.STRICT = 1, whether or not it would execute; else its confined
result when it executes. -/
def State.reserved (s : State) (t : Nat) (q : Pred) (u : Nat) (body : Nat) : State :=
  match s.openSyl t with
  | none => s
  | some b =>
    if stStrict b.old.st then
      (s.modTh t (fun x => { x with bun := some { b with pos := b.pos + 1 } })).fault t (illegalCause b.addr 8 b.pos)
    else s.syl t q 4 (fun s => s.confine t u body)

/-- A syllable whose register fields must name pairs (R78, R88). -/
def State.sylPair (s : State) (t : Nat) (q : Pred) (iv opc : Nat) (rd ra rb : Reg) (good : Bool) (f : State → State) : State :=
  if good then s.syl t q iv f else s.reserved t q 0 (triBody opc rd.val ra.val rb.val)

end Sys2Proof.Machine
end

