-- ==== Sys2Proof/Machine/Router.lean ====
section
/-! DEFINITION. Guarded accesses (R34) and the event router (chapter 11): who may change a route, signals, delivery,
presentation, doorbells. -/

namespace Sys2Proof.Machine

/-! ## Guarded accesses -/

/-- The block code and the cluster number of the frame that holds an address (R12). -/
def blockOf (pa : Nat) : Nat × Nat :=
  if pa < 0x1041000000 then (1, (pa - 0x1040000000) / 0x100000) else ((pa - 0x1041000000) / 0x1000000 + 2, 0)

/-- The base of the frame that holds an address; for clusters, of the cluster. -/
def frameOf (pa : Nat) : Nat := commonPage (blockOf pa).1 (blockOf pa).2

/-- R34: does a G register serve an access. A debug session reaches guarded registers at level 2 (R306). -/
def State.guardOk (s : State) (rq : Req) : Bool :=
  rq.priv.val == 2 || rq.cls == .harbour || rq.cls == .security || (rq.cls == .debug && decide (2 ≤ s.dbgLevel))

/-- The value a source register captures of a request (R27). -/
def srcOf (rq : Req) (low : Nat) : W32 :=
  BitVec.ofNat 32 (rq.cls.code * 2 ^ 28 + rq.berth.val * 2 ^ 22 + rq.priv.val * 2 ^ 20 + low)

/-- R34, R35: a refused access is counted, recorded and captured; a refused peek read is none of these. -/
def State.guardRefuse (s : State) (rq : Req) (pa : Nat) (wr : Bool) : State :=
  if rq.peek && !wr then s
  else
    let f := frameOf pa
    let s := s.satReg16 (f + 8)
    let s := s.recordCap (f + 0xC) (if wr then 2 ^ 18 else 2 ^ 17) none [(f + 0x10, srcOf rq ((pa - f) / 4))]
    s.count (0x100 + rq.berth.val) 9

/-! ## Route entries (R256 to R264) -/

/-- The entry that a request reaches under an event number (R271): a replicated source's copy is the requester's own. -/
def entryOf (rq : Req) (n : Nat) : Nat := if 1216 ≤ n ∧ n < 1232 then copyEntry rq.berth.val (n - 1216) else n

/-- The event number of an entry. -/
def eventOf (entry : Nat) : Nat := if entry < 1536 then entry else 1216 + (entry - 1536) % 16

/-- The CFG and STAT words of an entry. -/
def State.rteCfg (s : State) (e : Nat) : W32 := s.reg (routeAddr e)
def State.rteStat (s : State) (e : Nat) : W32 := s.reg (routeAddr e + 4)

/-- The fields of CFG (R256). -/
def rteGtn (c : W32) : Nat := bits c 9 0
def rteOwner (c : W32) : Nat := bits c 15 10
def rteCh (c : W32) : Nat := bits c 23 21
def rtePrio (c : W32) : Nat := bits c 27 24
def rteLvl (c : W32) : Bool := bit c 28
def rteIntr (c : W32) : Bool := bit c 29
def rteMask (c : W32) : Bool := bit c 30

/-- Is a thread assigned to a berth. -/
def State.assigned (s : State) (t : Nat) : Bool := !s.checker (coreOf t) && (s.th t).state != .free

/-- R258: does a route name a valid target. -/
def State.rteValid (s : State) (c : W32) : Bool :=
  s.assigned (rteGtn c) && (rteLvl c || (s.th (rteGtn c)).berth == rteOwner c)

/-- R273: an entry is used: a flipped bit is corrected and counted; with two, the entry acts as EN = 0 until it is written, and DBE is
recorded. -/
def State.routeUse (s : State) (e : Nat) : State :=
  let fixed := { s with routeFlips := Tbl.del s.routeFlips e }
  if s.routeFlip e = 0 then s
  else if s.routeFlip e = 1 then fixed.count 0x40 9
  else
    (({ fixed with routeBad := Tbl.set (fun _ => false) s.routeBad e true }).count 0x40 10).recordCap 0x1041001004 (2 ^ 17) (some 64)
      [(0x1041001008, BitVec.ofNat 32 (rteOwner (s.rteCfg e) * 2 ^ 22 + eventOf e))]

/-- R273: an entry is written. -/
def State.routeMend (s : State) (e : Nat) : State :=
  { s with routeBad := Tbl.set (fun _ => false) s.routeBad e false, routeFlips := Tbl.del s.routeFlips e }

/-- Takes an entry out of the candidates for presentation. -/
def State.withdraw (s : State) (e : Nat) : State := { s with cand := Tbl.set (fun _ => false) s.cand e false }

/-- Clears PEND of an entry and withdraws its interrupt; SEQ and MULT stay (R264). -/
def State.clearPend (s : State) (e : Nat) : State :=
  (s.setReg (routeAddr e + 4) (putBit (s.rteStat e) 18 false)).withdraw e

/-- R264: a THREAD or BERTH reset, or a release, of a target clears PEND of every entry that targets it. -/
def State.clearTargets (s : State) (t : Nat) : State :=
  (List.range 2560).foldl (fun s e => if rteGtn (s.rteCfg e) = t ∧ bit (s.rteCfg e) 31 then s.clearPend e else s) s

/-- R272: every entry that targets a thread gets EN = 0. -/
def State.disableTargets (s : State) (t : Nat) : State :=
  (List.range 2560).foldl (fun s e =>
    if rteGtn (s.rteCfg e) = t ∧ bit (s.rteCfg e) 31 then
      (s.setReg (routeAddr e) (putBit (s.rteCfg e) 31 false)).clearPend e
    else s) s

/-- R272: clears an entry and gives it to a berth: only SEQ, HM and FIX stay. -/
def State.clearEntry (s : State) (e owner : Nat) : State :=
  let c := s.rteCfg e
  let s := s.routeMend e
  let s := s.setReg (routeAddr e) (BitVec.ofNat 32 (bits c 20 19 * 2 ^ 19 + owner * 2 ^ 10))
  let s := (s.setReg (routeAddr e + 4) (putBits (s.rteStat e) 0 20 0)).withdraw e
  if 1280 ≤ e ∧ e < 1536 then s.setReg (0x104100C000 + (e - 1280) / 16 * 0x1000 + 0x40 + (e - 1280) % 16 * 4) 0 else s

/-- R260: a refused access to an entry, with the flag of ERT_REF_EVR. -/
def State.rteRefuse (s : State) (rq : Req) (pa e flag : Nat) (wr : Bool) : State :=
  if rq.peek && !wr then s
  else
    (s.guardRefuse rq pa wr).recordCap 0x104100100C flag (some 65) [(0x1041001010, srcOf rq (eventOf e))]

/-- R259: may a request read an entry. -/
def State.rteMayRead (s : State) (rq : Req) (e : Nat) : Bool :=
  s.guardOk rq || rq.berth.val == rteOwner (s.rteCfg e)

/-- R259: may a request write CFG of an entry. -/
def State.rteMayCfg (s : State) (rq : Req) (e : Nat) : Bool :=
  rq.cls == .harbour || rq.cls == .security || rq.priv.val == 2 ||
  (rq.priv.val == 1 && rq.berth.val == rteOwner (s.rteCfg e))

/-- R259: may a request write STAT of an entry. -/
def State.rteMayStat (s : State) (rq : Req) (e : Nat) : Bool :=
  rq.cls == .harbour || rq.cls == .security || rq.priv.val == 2 ||
  rq.berth.val == rteOwner (s.rteCfg e)

/-! ## Delivery (R261) -/

/-- A wake reaches a thread's event port (R46, R261): its channel becomes pending, in the bundle it executes too. -/
def State.wakeChan (s : State) (t ch : Nat) : State :=
  s.modTh t (fun x =>
    if x.state = .free then x
    else
      let x := { x with wokeAt := if s.queued t then x.wokeAt else (s.core (coreOf t)).cycle }
      let c := { x.ctx with wPend := putBit x.ctx.wPend ch true }
      match x.bun with
      | some b => { x with ctx := c, bun := some { b with old := { b.old with wPend := putBit b.old.wPend ch true } } }
      | none => { x with ctx := c })

/-- Asks a power domain to wake (R22); DOMAIN_READY ends the wake. After a thermal shutdown none wakes (R416). -/
def State.wakeDomain (s : State) (d : Nat) : State :=
  if s.domain d = .on || s.pwr.shut then s else { s with domReq := Tbl.set (fun _ => false) s.domReq d true }

/-- Is a code of R407 one that may wake the device from sleep state `k`: its mask bit, and code 8 from S1 always. -/
def State.wakeOn (s : State) (k code : Nat) : Bool := bit s.pwr.mask code || (k == 1 && code == 8)

/-- Domains that are powered when start-up begins (R396, R422): every domain that is never off in S0, CL0, and the blocks whose
idleness has not yet been long enough. -/
def startDomains : List Nat := [1, 2, 10, 11, 12, 13, 14, 15, 16, 17, 19, 20, 21, 22, 23]

/-- R405, R407, R408: the device leaves sleep state `k`: PCR_LAST_WAKE and WAKE of PCR_WAKE_EVR, which signals at once when the
harbourmaster is ready. -/
def State.leaveSleep (s : State) (k code arg : Nat) : State :=
  let s := s.setReg 0x104A003000 (BitVec.ofNat 32 (code + k * 2 ^ 5 + arg % 2 ^ 11 * 2 ^ 16))
  let s := s.record 0x104A003004 (2 ^ 18) (if k ≤ 2 then some 1122 else none)
  let s := { s with pwr := { s.pwr with sleep := .leaving k, heldWake := none } }
  if k ≤ 2 then s
  else { s with
      hm := { s.hm with boot := 1, bootAt := s.time, warm := k == 3 },
      dom := startDomains.foldl (fun t d => Tbl.set (fun k => if k = 0 then Dom.on else Dom.off) t d .on) s.dom }

/-- R405, R407: a wake source asserts; during entry it is held, the lowest code of those held. -/
def State.wake (s : State) (force : Bool) (code arg : Nat) : State :=
  match s.pwr.sleep with
  | .asleep k => if force || s.wakeOn k code then s.leaveSleep k code arg else s
  | .entering k =>
    if !(force || s.wakeOn k code) then s
    else match s.pwr.heldWake with
      | some w => if code < w.1 then { s with pwr := { s.pwr with heldWake := some (code, arg) } } else s
      | none => { s with pwr := { s.pwr with heldWake := some (code, arg) } }
  | _ => s

/-- R261, R258, R265, R405: the router delivers what an entry holds; a delivery in S1 wakes the device first, one that is held while S1
or S2 is entered wakes it once it is there, and one in S2 asks for the cluster's domain. -/
def State.routeDeliver (s : State) (e : Nat) : State :=
  let s := s.routeUse e
  let c := s.rteCfg e
  if !s.routeOn e || rteMask c || !bit (s.rteStat e) 18 || s.frozen || s.frzReq then s
  else if s.pwr.sleep ≠ .awake then
    (if s.pwr.sleep = .entering 1 ∨ s.pwr.sleep = .asleep 1 then s.wake false 8 (eventOf e)
     else if s.pwr.sleep = .entering 2 then s.wake true 8 (eventOf e)
     else if s.pwr.sleep = .asleep 2 ∧ s.rteValid c then s.wakeDomain (2 + rteGtn c / 128) else s)
  else if !s.rteValid c then
    let s := (s.setReg (routeAddr e) (putBit c 31 false)).clearPend e
    s.recordCap 0x1041001004 (2 ^ 18) (some 64) [(0x1041001008, BitVec.ofNat 32 (rteOwner c * 2 ^ 22 + eventOf e))]
  else
    let d := 2 + rteGtn c / 128
    if s.domain d ≠ .on then s.wakeDomain d
    else if rteIntr c then
      ({ s with cand := Tbl.set (fun _ => false) s.cand e true }).modTh (rteGtn c) (fun x =>
        { x with wokeAt := (s.core (coreOf (rteGtn c))).cycle })
    else (s.clearPend e).wakeChan (rteGtn c) (rteCh c)

/-- R259, R260, R264: a write to CFG of an entry; `guarded` pages skip the berth rows (R271). -/
def State.rteCfgWrite (s : State) (rq : Req) (pa e : Nat) (w : W32) (guarded : Bool) : State :=
  let c := s.rteCfg e
  let c' := putBits (putBits c 21 11 (bits w 31 21)) 0 10 (bits w 9 0)
  let on := bit c' 31 && !(rteIntr c' && rtePrio c' == 0)
  if srcNever (eventOf e) then s
  else if bit c 19 then s.rteRefuse rq pa e (2 ^ 16) true
  else if !(guarded || s.rteMayCfg rq e) then s.rteRefuse rq pa e (2 ^ 18) true
  else if (rteLvl c' && !s.guardOk rq) || (on && !s.rteValid c') then s.rteRefuse rq pa e (2 ^ 17) true
  else
    let s := (s.routeMend e).setReg (routeAddr e) c'
    if !on then s.clearPend e
    else
      let s := if rteMask c' then s.withdraw e else s
      if rteMask c ∧ !rteMask c' then s.routeDeliver e else s

/-- R259, R264: a write to STAT of an entry. -/
def State.rteStatWrite (s : State) (rq : Req) (pa e : Nat) (w : W32) (guarded : Bool) : State :=
  if srcNever (eventOf e) then s
  else if bit (s.rteCfg e) 19 then s.rteRefuse rq pa e (2 ^ 16) true
  else if !(guarded || s.rteMayStat rq e) then s.rteRefuse rq pa e (2 ^ 18) true
  else if bits w 31 20 = bits (s.rteStat e) 31 20 then
    ((s.routeMend e).setReg (routeAddr e + 4) (putBits (s.rteStat e) 18 2 0)).withdraw e
  else s.routeMend e

/-- R259: a read of CFG (`stat = false`) or STAT of an entry. -/
def State.rteRead (s : State) (rq : Req) (pa e : Nat) (stat : Bool) : State × W32 :=
  if srcNever (eventOf e) then (s, 0)
  else if s.rteMayRead rq e then (if rq.peek then s else s.routeUse e, if stat then s.rteStat e else s.rteCfg e)
  else (s.rteRefuse rq pa e (2 ^ 18) false, 0)

/-! ## Doorbells (R268, R269) -/

/-- The address of ERT_DB_RINGd; ERT_DB_ACCd is 0x40 above. -/
def bellAddr (d : Nat) : Nat := 0x104100C000 + d / 16 * 0x1000 + d % 16 * 4

/-- Is a request from the second ringing berth of a doorbell. -/
def State.bellSecond (s : State) (rq : Req) (d : Nat) : Bool :=
  let a := s.reg (bellAddr d + 0x40)
  bit a 31 && bits a 29 24 == rq.berth.val

/-- R269: a ring. -/
def State.bellRing (s : State) (rq : Req) (pa d : Nat) (w : W32) : State :=
  if rq.cls == .harbour || rq.priv.val == 2 || rq.berth.val == rteOwner (s.rteCfg (1280 + d)) || s.bellSecond rq d then
    (s.setReg (bellAddr d) w).signal (1280 + d)
  else s.rteRefuse rq pa (1280 + d) (2 ^ 18) true

/-- R268, R269: reads of ERT_DB_RINGd and ERT_DB_ACCd (`acc`). -/
def State.bellRead (s : State) (rq : Req) (pa d : Nat) (acc : Bool) : State × W32 :=
  if s.rteMayRead rq (1280 + d) || (acc && s.bellSecond rq d) then (s, s.reg (bellAddr d + if acc then 0x40 else 0))
  else (s.rteRefuse rq pa (1280 + d) (2 ^ 18) false, 0)

/-- R268: a write to ERT_DB_ACCd is ignored from those it serves and refused from others. -/
def State.bellAccWrite (s : State) (rq : Req) (pa d : Nat) : State :=
  if s.rteMayRead rq (1280 + d) || s.bellSecond rq d then s else s.rteRefuse rq pa (1280 + d) (2 ^ 18) true

/-! ## Presentation (R262) -/

/-- The interrupt an entry offers a thread: a candidate that is pending, unmasked and on. -/
def State.offer (s : State) (t e : Nat) : Option Intr :=
  let c := s.rteCfg e
  if Tbl.get (fun _ => false) s.cand e && s.routeOn e && rteIntr c && !rteMask c && bit (s.rteStat e) 18 && rteGtn c == t then
    some { entry := e, event := eventOf e, prio := rtePrio c, level := if rteLvl c then 2 else 1 }
  else none

/-- R262: does an interrupt come before another: H before S, higher priority, lower number. -/
def Intr.before (a b : Intr) : Bool :=
  decide (b.level < a.level) ||
  (a.level == b.level && (decide (b.prio < a.prio) || (a.prio == b.prio && decide (a.event < b.event))))

/-- The first of a list of interrupts. -/
def firstIntr (l : List Intr) : Option Intr :=
  l.foldl (fun best i =>
    match best with
    | none => some i
    | some b => if i.before b then some i else best) none

/-- R262: the interrupt presented to a thread: the first that R154 would accept, else the first. -/
def State.presented (s : State) (t : Nat) : Option Intr :=
  let all := (s.cand.map Prod.fst).filterMap (s.offer t)
  match firstIntr (all.filter (intrAccepts (s.th t).bndSt)) with
  | some i => some i
  | none => firstIntr all

/-- R154: the interrupt a thread accepts now, if any. -/
def State.acceptable (s : State) (t : Nat) : Option Intr :=
  if s.queued t || s.frozen || s.frzReq then none
  else match s.presented t with
    | some i => if intrAccepts (s.th t).bndSt i then some i else none
    | none => none

/-! ## The commands of chapter 11 -/

/-- R261, R270, R273: a source signals. A replicated source reaches copy `b`, or every copy for 1221 to 1225. -/
def execEventSignal (n : Fin 1536) (b : BerthId) (s : State) : Out :=
  ok (if 1216 ≤ n.val ∧ n.val < 1226 then
        (if 1221 ≤ n.val then
           ((List.range 64).foldl (fun s b => s.routeUse (copyEntry b (n.val - 1216))) s).signalAll (n.val - 1216)
         else (s.routeUse (copyEntry b.val (n.val - 1216))).signalBerth b.val (n.val - 1216))
      else if s.srcOut n.val then s
      else (s.routeUse n.val).signal n.val)

/-- R261. -/
def execRouteDelivery (entry : Fin 2560) (s : State) : Out := ok (s.routeDeliver entry.val)

/-- R259. -/
def execErtRteCfgWrite (rq : Req) (n : Fin 1536) (w : W32) (s : State) : Out :=
  ok (s.rteCfgWrite rq (routeAddr n.val) (entryOf rq n.val) w false)

/-- R264. -/
def execErtRteStatWrite (rq : Req) (n : Fin 1536) (w : W32) (s : State) : Out :=
  ok (s.rteStatWrite rq (routeAddr n.val + 4) (entryOf rq n.val) w false)

/-- R269. -/
def execErtDbRing (rq : Req) (d : Fin 256) (w : W32) (s : State) : Out := ok (s.bellRing rq (bellAddr d.val) d.val w)

end Sys2Proof.Machine
end

