-- ==== Sys2Proof/Machine/Mailbox.lean ====
section
/-! DEFINITION. The mailboxes (chapter 12): pages, requests, responses, completions, the checks of R282, and the objects that
accepted commands hold (R287, R296). -/

namespace Sys2Proof.Machine

/-! ## Mailboxes and their pages -/

/-- A mailbox. -/
def State.mbx (s : State) (m : Nat) : Mbox := Tbl.get (fun _ => ({} : Mbox)) s.hm.mbx m

/-- Changes the harbourmaster. -/
def State.modHm (s : State) (f : Harbour → Harbour) : State := { s with hm := f s.hm }

/-- Replaces a mailbox. -/
def State.setMbx (s : State) (m : Nat) (x : Mbox) : State :=
  s.modHm (fun h => { h with mbx := Tbl.set (fun _ => ({} : Mbox)) h.mbx m x })

/-- The base of a mailbox page (R279). -/
def mbxBase (m : Nat) : Nat := 0x1080000000 + m * 0x1000

/-- A berth. -/
def State.berth (s : State) (b : Nat) : Berth := Tbl.get (fun _ => ({} : Berth)) s.hm.berths b

/-- Replaces a berth. -/
def State.setBerth (s : State) (b : Nat) (x : Berth) : State :=
  s.modHm (fun h => { h with berths := Tbl.set (fun _ => ({} : Berth)) h.berths b x })

/-- Changes a berth. -/
def State.modBerth (s : State) (b : Nat) (f : Berth → Berth) : State := s.setBerth b (f (s.berth b))

/-- The threads that are not FREE, in ascending order. -/
def State.threads (s : State) : List Nat := (s.thr.map Prod.fst).filter (fun t => (s.th t).state != .free)

/-- An instance, by type × 256 + index (R300). -/
def State.inst (s : State) (i : Nat) : Inst := Tbl.get (fun _ => ({} : Inst)) s.hm.insts i

/-- Replaces an instance. -/
def State.setInst (s : State) (i : Nat) (x : Inst) : State :=
  s.modHm (fun h => { h with insts := Tbl.set (fun _ => ({} : Inst)) h.insts i x })

/-- Changes an instance. -/
def State.modInst (s : State) (i : Nat) (f : Inst → Inst) : State := s.setInst i (f (s.inst i))

/-- MBX_VER (R292): ROM release 0x01 and the patch level loaded. -/
def State.mbxVer (s : State) : W32 := BitVec.ofNat 32 (0x01000100 + s.hm.patch % 256)

/-- R277: transport and authority of host mailbox h: 1 SPI, 2 Ethernet, 3 PCIe, 4 debug port, 7 none; 1 is FULL. -/
def State.hostOf (s : State) (h : Nat) : Nat × Nat :=
  if s.hm.committed && !s.hm.held then s.hm.man.host.getD h (7, 0)
  else if h = 0 then (1, 1) else if h = 3 then (4, 1) else (7, 0)

/-- The transport of a mailbox (MBX_STAT.TRANS). -/
def State.mbxTrans (s : State) (m : Nat) : Nat := if m < 64 then 0 else if m = 68 then 4 else (s.hostOf (m - 64)).1

/-- R17, R277: does a mailbox page serve a fabric or debug port request. -/
def State.mbxServes (s : State) (rq : Req) (m : Nat) : Bool :=
  if m < 64 then
    rq.berth.val == m && (rq.cls == .thread || rq.cls == .dma || rq.cls == .gateway || rq.cls == .switch || rq.cls == .pcie)
  else if m = 68 then rq.cls == .debug
  else rq.cls == .debug && s.mbxTrans m == 4 && decide (1 ≤ s.dbgLevel)

/-- R290: a refused access counts in the refused-access total, but for a refused peek read (R17). -/
def State.mbxRefused (s : State) (rq : Req) (wr : Bool) : State := if rq.peek && !wr then s else s.count 0x40 7

/-- The commands of a mailbox answered ACCEPTED whose completion is not released (MBX_STAT.PEND). -/
def State.mbxPend (s : State) (m : Nat) : Nat :=
  (s.hm.acc.filter (fun a => a.mbx == m && !a.quiet)).length + (s.hm.ended.filter (fun e => e.acc.mbx == m)).length +
    b2n (s.mbx m).cpl.isSome

/-- MBX_STAT (R279). -/
def State.mbxStat (s : State) (m : Nat) : W32 :=
  BitVec.ofNat 32 (s.mbxPend m * 2 ^ 16 + s.mbxTrans m * 2 ^ 9 + b2n s.hm.held * 2 ^ 8 + b2n s.hm.ready * 2 ^ 7 +
    b2n (s.mbx m).cpl.isSome * 2 ^ 6 + (s.mbx m).st)

/-- R363: a pending vector of a function goes out when it, its function and BME all allow. -/
def State.pceSend (s : State) (f v : Nat) : State :=
  let p := Tbl.get (fun _ => (0 : BitVec 16)) s.pcie.pba f
  let masked := s.pcie.fmask.getLsbD f || (Tbl.get (fun _ => (0xFFFF : BitVec 16)) s.pcie.vmask f).getLsbD v
  if p.getLsbD v && !masked && s.pcie.bme.getLsbD f && s.pcie.msix.getLsbD f then
    { s with
        pcie := { s.pcie with
        pba := Tbl.set (fun _ => (0 : BitVec 16)) s.pcie.pba f (putBit p v false),
        sent := s.pcie.sent ++ [Tbl.get (fun _ => (0, 0)) s.pcie.vec (16 * f + v)] } }
  else s

/-- R363: a function sends a vector, or leaves it pending. -/
def State.pceVector (s : State) (f v : Nat) : State :=
  let p := Tbl.get (fun _ => (0 : BitVec 16)) s.pcie.pba f
  ({ s with pcie := { s.pcie with pba := Tbl.set (fun _ => (0 : BitVec 16)) s.pcie.pba f (putBit p v true) } }).pceSend f v

/-- R278: notifies a posting on the mailbox's transport; on Ethernet the message is sent as a frame. -/
def State.mbxNotify (s : State) (m : Nat) (evt : Bool) (msg : List W32) : State :=
  if m < 64 then (if evt then s.signalBerth m 0 else s)
  else if s.mbxTrans m = 2 then
    s.modHm (fun h => { h with mgmtOut := h.mgmtOut ++ [((s.mbx m).port, (s.mbx m).dst, wordsBytes msg)] })
  else if s.mbxTrans m = 3 ∧ evt then s.pceVector 0 0
  else s

/-- R290: a refused GO or request buffer write records REJ and counts. -/
def State.mbxRej (s : State) (m : Nat) : State :=
  (s.record (mbxBase m + 0x308) (2 ^ 16) none).count (if m < 64 then 0x43 + m / 16 else 0x47) (m % 16 + 1)

/-- R280: a write to MBX_REQi. -/
def State.mbxReqWr (s : State) (m i : Nat) (w : W32) : State :=
  if (s.mbx m).st = 0 ∨ (s.mbx m).st = 3 then s.setReg (mbxBase m + 4 * i) w else s.mbxRej m

/-- Writes 64 words of a buffer, the rest zero. -/
def State.setBuf (s : State) (base : Nat) (ws : List W32) : State :=
  (List.range 64).foldl (fun s i => s.setReg (base + 4 * i) (ws.getD i 0)) s

/-- R280: GO; `go` is the store that wrote it. -/
def State.mbxGo (s : State) (m : Nat) (go : Option Req) : State :=
  let x := s.mbx m
  if x.st = 0 ∨ x.st = 3 then (s.setMbx m { x with st := 1, go := go, goAt := s.time }).setBuf (mbxBase m + 0x100) []
  else s.mbxRej m

/-- R285: CACK. -/
def State.mbxCack (s : State) (m : Nat) : State :=
  let x := s.mbx m
  match x.cpl with
  | some _ => (s.setMbx m { x with cpl := none }).setBuf (mbxBase m + 0x200) []
  | none => s

/-- A write to MBX_CTL: CACK acts first (R280). -/
def State.mbxCtl (s : State) (m : Nat) (go : Option Req) (w : W32) : State :=
  let s := if bit w 1 then s.mbxCack m else s
  if bit w 0 then s.mbxGo m go else s

/-- A served write to a mailbox page at a decoded offset (R279). -/
def State.mbxWrite (s : State) (m off : Nat) (go : Option Req) (w : W32) : State :=
  if off < 0x100 then s.mbxReqWr m (off / 4) w
  else if off = 0x300 then s.mbxCtl m go w
  else if off = 0x308 then s.setReg (mbxBase m + 0x308) (clearedBy (s.reg (mbxBase m + 0x308)) w)
  else s

/-- A served read of a mailbox page at a decoded offset (R279). -/
def State.mbxRead (s : State) (m off : Nat) : W32 :=
  if off = 0x304 then s.mbxStat m
  else if off = 0x30C then s.mbxVer
  else if off = 0x300 then 0
  else if off < 0x30C then s.reg (mbxBase m + off)
  else 0

/-- SSP_ALERT_N (R278): low while MBX_EVR of the mailbox of the SPI service port holds a flag. -/
def State.sspAlertN (s : State) : Bool :=
  !(List.range 4).any (fun h => (s.hostOf h).1 == 1 && bits (s.reg (mbxBase (64 + h) + 0x308)) 18 0 != 0)

/-! ## Messages (R281) -/

/-- CRC-32C of words. -/
def crcWords (ws : List W32) : W32 := if ws.isEmpty then 0 else crc32c (wordsBytes ws)

/-- A message: word 0, tag, word 2, payload (R281). -/
def message (w0 tag w2 : W32) (pay : List W32) : List W32 :=
  [w0, tag, w2, crc32c (wordsBytes [w0, tag, w2])] ++ pay ++ [crcWords pay]

/-- The request in a mailbox's buffer. -/
structure Sub where
  m : Nat
  w0 : W32
  tag : W32
  w2 : W32
  hcrc : W32
  pay : List W32
  pcrc : W32
deriving DecidableEq, Repr

/-- Reads the request buffer. -/
def State.request (s : State) (m : Nat) : Sub :=
  let g := fun (i : Nat) => s.reg (mbxBase m + 4 * i)
  let n := bits (g 0) 31 24
  { m := m, w0 := g 0, tag := g 1, w2 := g 2, hcrc := g 3, pay := (List.range (min n 59)).map (fun i => g (4 + i)),
    pcrc := g (4 + min n 59) }

/-- The opcode and berth of a request. -/
def Sub.op (q : Sub) : Nat := bits q.w0 15 0
def Sub.b (q : Sub) : Nat := bits q.w2 5 0
def Sub.q (q : Sub) (i : Nat) : W32 := q.pay.getD i 0

/-- Status codes of R282 and R295. -/
def stOk : Nat := 0
def stAccepted : Nat := 1
def stBadOpcode : Nat := 0x10
def stBadLength : Nat := 0x11
def stBadCrc : Nat := 0x12
def stDenied : Nat := 0x20
def stBusy : Nat := 0x30
def stNotReady : Nat := 0x40
def stNoResource : Nat := 0x50
def stStaleTag : Nat := 0x60

/-- Word r0 of an answer (R284). -/
def r0 (status detail : Nat) : W32 := BitVec.ofNat 32 (detail * 2 ^ 16 + status)

/-- R490, R491: places a value in the bin of every histogram unit that takes source `src`, selection `sel`. -/
def State.histAdd (s : State) (src sel v : Nat) : State :=
  (List.range 8).foldl (fun s h =>
    let pg := 0x104B002000 + h * 0x1000
    let c := s.reg pg
    if bit c 31 && bits c 27 24 == src && (bits c (if src = 7 then 6 else if src ≤ 2 then 4 else 2) 0 == sel || src == 3 || src == 6) then
      let base := (s.reg (pg + 4)).toNat
      let d := if base ≤ v then (v - base) / 2 ^ bits c 23 20 else 0
      let i := if bit c 30 then (if d = 0 then 0 else min 31 (d.log2 + 1)) else min d 31
      let full := decide ((s.reg (pg + 0x80 + 4 * i)).toNat = 0xFFFFFFFF) || decide ((s.reg (pg + 0x10)).toNat = 0xFFFFFFFF)
      let inc := fun (s : State) (a : Nat) => s.setReg a (BitVec.ofNat 32 (satInc 0xFFFFFFFF (s.reg a).toNat))
      let s := inc (inc s (pg + 0x80 + 4 * i)) (pg + 0x10)
      let thr := (s.reg (pg + 0xC)).toNat
      let hit := decide (thr ≠ 0) && decide ((s.reg (pg + 0x10)).toNat = thr) && !full
      if full || hit then s.record (pg + 8) (b2n full * 2 ^ 18 + b2n hit * 2 ^ 17) (some (1137 + h)) else s
    else s) s

/-- R284: posts a response of payload `ws`. -/
def State.postResponse (s : State) (q : Sub) (ws : List W32) : State :=
  let s := s.histAdd 7 q.m ((s.time - (s.mbx q.m).goAt) / 10)
  let msg := message (BitVec.ofNat 32 (ws.length * 2 ^ 24 + 2 ^ 16 + q.op)) q.tag (BitVec.ofNat 32 q.b) ws
  let evt := !bit q.w0 18
  let s := s.setBuf (mbxBase q.m + 0x100) msg
  let s := s.setMbx q.m { s.mbx q.m with st := 3 }
  let s := if evt then s.record (mbxBase q.m + 0x308) (2 ^ 18) none else s
  s.mbxNotify q.m evt msg

/-- R283: answers a request that passed checks 1 to 4; it becomes the last valid request. -/
def State.answer (s : State) (q : Sub) (ws : List W32) : State :=
  (s.setMbx q.m { s.mbx q.m with lastTag := q.tag, lastH := q.hcrc, lastP := q.pcrc, lastPay := q.pay, lastRsp := ws }).postResponse q ws

/-- R285: posts a completion. -/
def State.postCompletion (s : State) (e : Ended) : State :=
  let ws := if bits e.status 15 0 = 0 then e.status :: e.words else [e.status]
  let m := e.acc.mbx
  let msg := message (BitVec.ofNat 32 (ws.length * 2 ^ 24 + 2 ^ 17 + 2 ^ 16 + e.acc.opcode)) e.acc.tag
    (BitVec.ofNat 32 e.acc.berth) ws
  let s := s.setBuf (mbxBase m + 0x200) msg
  let s := s.setMbx m { s.mbx m with cpl := some e.acc.tag }
  (s.record (mbxBase m + 0x308) (2 ^ 17) none).mbxNotify m true msg

/-! ## The command set (R293 to R309) -/

/-- Authority codes (R293). -/
inductive Auth where
  | a | s | p | d
deriving DecidableEq, Repr

/-- A row of the command tables: lengths, authority, whether it acts on BERTH, its Held column, and whether it changes the
configuration (R290). -/
structure OpInfo where
  op : Nat
  lo : Nat
  hi : Nat
  auth : Auth
  b : Bool
  held : Bool
  chg : Bool
deriving DecidableEq, Repr

/-- The commands of the groups 0x01 to 0x04. -/
def opsLow : List OpInfo :=
  [ ⟨0x0101, 0, 0, .a, false, true, false⟩, ⟨0x0102, 1, 1, .p, false, true, true⟩, ⟨0x0103, 0, 58, .a, false, true, false⟩,
    ⟨0x0201, 1, 1, .p, false, false, true⟩, ⟨0x0202, 1, 1, .p, false, false, true⟩, ⟨0x0203, 1, 1, .p, false, false, true⟩,
    ⟨0x0204, 2, 2, .p, false, false, true⟩, ⟨0x0205, 0, 0, .a, false, true, false⟩,
    ⟨0x0301, 4, 4, .p, true, false, true⟩, ⟨0x0302, 0, 0, .p, true, false, true⟩, ⟨0x0303, 1, 1, .s, true, false, true⟩,
    ⟨0x0304, 0, 0, .a, true, false, false⟩, ⟨0x0305, 3, 3, .p, true, false, true⟩, ⟨0x0306, 1, 1, .p, false, false, true⟩,
    ⟨0x0310, 1, 1, .p, true, false, true⟩, ⟨0x0311, 3, 3, .s, true, false, true⟩, ⟨0x0312, 1, 1, .s, true, false, true⟩,
    ⟨0x0313, 1, 1, .s, true, false, true⟩, ⟨0x0314, 1, 1, .s, true, false, true⟩,
    ⟨0x0401, 4, 4, .s, true, false, true⟩, ⟨0x0402, 1, 1, .s, true, false, true⟩, ⟨0x0403, 2, 2, .s, true, false, true⟩,
    ⟨0x0404, 1, 1, .a, true, false, false⟩ ]

/-- The commands of the groups 0x05 to 0x0B. -/
def opsHigh : List OpInfo :=
  [ ⟨0x0501, 1, 1, .p, true, false, true⟩, ⟨0x0502, 1, 1, .s, true, false, true⟩, ⟨0x0503, 1, 1, .p, true, false, true⟩,
    ⟨0x0504, 1, 1, .a, true, false, false⟩,
    ⟨0x0601, 4, 4, .p, true, false, true⟩, ⟨0x0602, 2, 2, .p, true, false, true⟩, ⟨0x0603, 1, 1, .s, true, true, false⟩,
    ⟨0x0604, 1, 1, .s, true, true, false⟩, ⟨0x0605, 1, 1, .p, false, false, true⟩, ⟨0x0606, 1, 1, .p, false, false, true⟩,
    ⟨0x0607, 1, 1, .a, false, true, false⟩,
    ⟨0x0701, 0, 0, .a, false, true, false⟩, ⟨0x0702, 1, 1, .p, true, false, true⟩, ⟨0x0703, 1, 1, .p, true, false, true⟩,
    ⟨0x0704, 4, 4, .a, false, true, false⟩,
    ⟨0x0801, 0, 0, .d, false, true, true⟩, ⟨0x0802, 9, 9, .d, false, true, true⟩, ⟨0x0803, 0, 0, .d, false, true, true⟩,
    ⟨0x0804, 0, 0, .d, false, true, false⟩,
    ⟨0x0901, 2, 59, .p, false, true, true⟩, ⟨0x0902, 2, 2, .p, false, true, true⟩, ⟨0x0903, 0, 0, .a, false, true, false⟩,
    ⟨0x0A01, 0, 0, .a, false, true, false⟩, ⟨0x0A02, 3, 3, .p, false, false, true⟩, ⟨0x0A03, 1, 1, .p, false, false, true⟩,
    ⟨0x0A04, 1, 1, .p, true, false, true⟩,
    ⟨0x0B01, 2, 2, .p, false, false, true⟩, ⟨0x0B02, 1, 1, .p, true, false, true⟩, ⟨0x0B03, 2, 2, .p, false, false, true⟩,
    ⟨0x0B04, 2, 2, .p, false, false, true⟩ ]

/-- The row of an opcode; none for an unassigned one. -/
def opInfo (op : Nat) : Option OpInfo := (opsLow ++ opsHigh).find? (fun o => o.op == op)

/-- Does a command answer ACCEPTED when it passes (the Ans. column). -/
def Sub.async (q : Sub) : Bool :=
  [0x0201, 0x0302, 0x0303, 0x0306, 0x0402, 0x0403, 0x0601, 0x0602, 0x0606, 0x0704, 0x0902, 0x0B01].contains q.op ||
  (q.op == 0x0204 && (bits (q.q 0) 3 0 == 1 || bits (q.q 0) 3 0 == 2))

/-- R293: does a submission hold P: mailbox 0 at privilege 2, or a host with FULL authority. -/
def State.holdsP (s : State) (q : Sub) : Bool :=
  if q.m = 0 then (match (s.mbx 0).go with
    | some r => r.priv.val == 2
    | none => false)
  else decide (64 ≤ q.m) && q.m != 68 && (s.hostOf (q.m - 64)).2 == 1

/-- R293: does a submission hold an authority. -/
def State.holdsAuth (s : State) (q : Sub) (a : Auth) : Bool :=
  match a with
  | .a => true
  | .p => s.holdsP q
  | .d => q.m == 68 || s.holdsP q
  | .s => s.holdsP q || (decide (q.m < 64) && q.b == q.m && (match (s.mbx q.m).go with
      | some r => decide (1 ≤ r.priv.val)
      | none => false))

/-- The objects a command names (R287, R296). -/
def Sub.objs (q : Sub) : List Obj :=
  let op := q.op
  if op = 0x0302 ∨ op = 0x0303 then [.berth q.b]
  else if 0x0310 ≤ op ∧ op ≤ 0x0314 then [.thread (bits (q.q 0) 9 0)]
  else if 0x0401 ≤ op ∧ op ≤ 0x0404 then [.inst (bits (q.q 0) 3 0 * 256 + bits (q.q 0) 15 8)]
  else if op = 0x0201 then [.cluster (bits (q.q 0) 2 0)]
  else if op = 0x0601 then [.region q.b (bits (q.q 0) 27 0) (q.q 2).toNat]
  else if op = 0x0602 then [.region q.b (bits (q.q 0) 27 0) (q.q 1).toNat]
  else []

/-- Does an object belong to a berth. -/
def State.objOf (s : State) (b : Nat) (o : Obj) : Bool :=
  match o with
  | .berth c => c == b
  | .thread t => s.assigned t && (s.th t).berth == b
  | .inst i => (s.inst i).on && (s.inst i).berth == b
  | .region c _ _ => c == b
  | .cluster _ => false

/-- Do two objects meet (R296). -/
def State.objMeets (s : State) (a o : Obj) : Bool :=
  match a, o with
  | .berth b, o => s.objOf b o
  | a, .berth b => s.objOf b a
  | .region b i n, .region c j k => b == c && decide (i < j + k) && decide (j < i + n)
  | a, o => decide (a = o)

/-- R287: is one of a command's objects held, or its berth busy (R312)? Queries by authority A hold and need nothing. -/
def State.objHeld (s : State) (q : Sub) (onBerth : Bool) : Bool :=
  q.objs.any (fun o => s.hm.acc.any (fun a => a.objs.any (fun h => s.objMeets h o)) ||
    s.hm.ended.any (fun e => e.acc.objs.any (fun h => s.objMeets h o)) ||
    (match o with
    | .cluster n => s.pwr.trans.any (fun x => x.cluster == n)
    | _ => false)) ||
  (onBerth && ((s.berth q.b).st == .resetting || (s.berth q.b).st == .destroying))

/-- R283: is a tag in use in a mailbox: that of the last valid request or of an unreleased accepted command. -/
def State.tagUsed (s : State) (m : Nat) (tag : W32) : Bool :=
  tag == (s.mbx m).lastTag || s.hm.acc.any (fun a => a.mbx == m && !a.quiet && a.tag == tag) ||
  s.hm.ended.any (fun e => e.acc.mbx == m && e.acc.tag == tag) || (s.mbx m).cpl == some tag

/-- The outcome of the checks of R282: an answer with a status, after check 4 or before it; a replay; or execution. -/
inductive Checked where
  | early (status : Nat)
  | fail (status detail : Nat)
  | replay
  | pass (o : OpInfo)
deriving DecidableEq, Repr

/-- R282, checks 5 to 8. -/
def State.checkLate (s : State) (q : Sub) : Checked :=
  match opInfo q.op with
  | none => .fail stBadOpcode 0
  | some o =>
    if q.m = 68 ∧ q.op / 256 ≠ 8 then .fail stDenied 1
    else if q.pay.length < o.lo ∨ o.hi < q.pay.length then .fail stBadLength 0
    else if bits q.w2 31 6 ≠ 0 then .fail stDenied 8
    else if 0 < q.m ∧ q.m < 64 ∧ q.b ≠ q.m then .fail stDenied 2
    else if !s.holdsAuth q o.auth then .fail stDenied 1
    else if !o.held && (s.hm.held || !s.hm.committed) then .fail stNotReady 1
    else if !o.held && s.frozen && q.op / 256 != 8 then .fail stNotReady 3
    else if s.objHeld q o.b then .fail stBusy 1
    else if q.async && decide (8 ≤ s.mbxPend q.m) then .fail stBusy 2
    else .pass o

/-- R282, checks 1 to 8, with the replay of R283. -/
def State.checkRequest (s : State) (q : Sub) : Checked :=
  let x := s.mbx q.m
  if crc32c (wordsBytes [q.w0, q.tag, q.w2]) ≠ q.hcrc then .early stBadCrc
  else if bits q.w0 17 16 ≠ 0 ∨ bits q.w0 23 19 ≠ 0 then .early stBadOpcode
  else if 59 < bits q.w0 31 24 then .early stBadLength
  else if crcWords q.pay ≠ q.pcrc then .early stBadCrc
  else if q.tag = 0 then .early stStaleTag
  else if q.tag = x.lastTag ∧ q.hcrc = x.lastH ∧ q.pcrc = x.lastP ∧ q.pay = x.lastPay then .replay
  else if s.tagUsed q.m q.tag then .early stStaleTag
  else s.checkLate q

/-- R286, R287: the harbourmaster takes a request while it serves mailboxes and executes no other command. -/
def State.mbxTake (s : State) (m : Nat) : State :=
  if s.hm.ready && s.pwr.sleep == .awake && (s.mbx m).st == 1 && !(s.hm.mbx.any (fun e => e.2.st == 2)) then
    let q := s.request m
    let s := s.perfEvent 73 0x401 1 none
    match s.checkRequest q with
    | .early st => s.postResponse q [r0 st 0]
    | .fail st d => s.answer q [r0 st d]
    | .replay => s.postResponse q (s.mbx m).lastRsp
    | .pass _ => s.setMbx m { s.mbx m with st := 2 }
  else s

/-- What a command answers: its final status with results, a failure, ACCEPTED with the bytes it keeps, or nothing yet. -/
inductive Reply where
  | done (s : State) (ws : List W32)
  | fail (status detail : Nat)
  | accept (s : State) (data : List Byte)
  | wait (s : State)

/-- R290: a host's configuration change signals MBX_HOSTCMD. -/
def State.hostCmd (s : State) (q : Sub) : State :=
  match opInfo q.op with
  | some o => if o.chg && decide (64 ≤ q.m) && q.m != 68 then s.signal 1193 else s
  | none => s

/-- R294: the berth that a B command names exists; before commit and in the Held state only berth 0 does. -/
def State.berthThere (s : State) (b : Nat) : Bool :=
  if s.hm.held || !s.hm.committed then b == 0 else (s.berth b).st != .absent

/-- The command row of opcode `op`: acts when the harbourmaster has taken a request of that opcode in mailbox `m` (step 9 of
R282 and the command's effects, then its response). -/
def State.harbour (s : State) (m op : Nat) (f : State → Sub → Reply) : State :=
  let q := s.request m
  if s.hm.ready && (s.mbx m).st == 2 && q.op == op then
    let isB := match opInfo op with
      | some o => o.b && op != 0x0301
      | none => false
    match (if isB && !s.berthThere q.b then Reply.fail stNoResource 4 else f s q) with
    | .fail st d => s.answer q [r0 st d]
    | .done s' ws => (s'.hostCmd q).answer q (r0 stOk 0 :: ws)
    | .wait s' => s'
    | .accept s' data =>
      let a : Accepted := { mbx := q.m, opcode := q.op, tag := q.tag, berth := q.b, pay := q.pay, objs := q.objs, data := data }
      ((s'.hostCmd q).modHm (fun h => { h with acc := h.acc ++ [a] })).answer q [r0 stAccepted 0]
  else s

/-- R285, R288: the work of an accepted command ends; a withheld one has no completion. -/
def State.workEnds (s : State) (a : Accepted) (status : W32) (ws : List W32) : State :=
  s.modHm (fun h =>
    { h with acc := h.acc.erase a, ended := if a.quiet then h.ended else h.ended ++ [{ acc := a, status := status, words := ws }] })

/-- The oldest accepted command that satisfies a condition. -/
def State.accepted (s : State) (f : Accepted → Bool) : Option Accepted := s.hm.acc.find? f

/-- R285: posts the oldest completion of a mailbox when its buffer is free. -/
def State.postNext (s : State) (m : Nat) : State :=
  if (s.mbx m).cpl.isSome then s
  else match s.hm.ended.find? (fun e => e.acc.mbx == m) with
    | none => s
    | some e => (s.modHm (fun h => { h with ended := h.ended.erase e })).postCompletion e

/-- R288, R289: a mailbox returns to its reset values; the completions of its accepted commands are withheld. -/
def State.mbxReset (s : State) (m : Nat) : State :=
  let s := s.modHm (fun h =>
    { h with
        acc := h.acc.map (fun a => if a.mbx = m then { a with quiet := true } else a),
             ended := h.ended.filter (fun e => e.acc.mbx != m) })
  let s := s.setMbx m {}
  let s := (s.setBuf (mbxBase m) []).setBuf (mbxBase m + 0x100) []
  (s.setBuf (mbxBase m + 0x200) []).setReg (mbxBase m + 0x308) 0

/-- R288: mailbox b as a BERTH reset or the berth's destruction begins: a queued request is discarded. -/
def State.mbxHush (s : State) (b : Nat) : State :=
  let x := s.mbx b
  let s := if x.st = 1 then s.setMbx b { x with st := 0, go := none } else s
  s.modHm (fun h =>
    { h with
        acc := h.acc.map (fun a => if a.mbx = b then { a with quiet := true } else a),
             ended := h.ended.filter (fun e => e.acc.mbx != b) })

/-! ## The commands of chapter 12 -/

/-- R280. -/
def execMbxReqWrite (rq : Req) (m : Fin 69) (i : Fin 64) (w : W32) (s : State) : Out :=
  ok (if s.mbxServes rq m.val then s.mbxReqWr m.val i.val w else s.mbxRefused rq true)

/-- R280. -/
def execGo (rq : Req) (m : Fin 69) (s : State) : Out :=
  ok (if s.mbxServes rq m.val then s.mbxGo m.val (some rq) else s.mbxRefused rq true)

/-- R285. -/
def execCack (rq : Req) (m : Fin 69) (s : State) : Out :=
  ok (if s.mbxServes rq m.val then s.mbxCack m.val else s.mbxRefused rq true)

/-- R286, R282. -/
def execRequestTaken (m : Fin 69) (s : State) : Out := ok (s.mbxTake m.val)

end Sys2Proof.Machine
end

