-- ==== Sys2Proof/Machine/Power.lean ====
section
/-! DEFINITION. Domains, performance levels, the voltage-step link, the power arbiter, supply dips and thermal limits
(chapter 18). -/

namespace Sys2Proof.Machine

/-! ## Order codes (R2, R3) and domains (R395 to R397) -/

/-- Sets the state of a domain. -/
def State.setDom (s : State) (d : Nat) (x : Dom) : State :=
  { s with dom := Tbl.set (fun k => if k = 0 then Dom.on else Dom.off) s.dom d x }

/-- Changes the power state. -/
def State.modPwr (s : State) (f : Power → Power) : State := { s with pwr := f s.pwr }

/-- R397: the value of IDLE that a domain stores. -/
def idleStored (d v : Nat) : Nat :=
  if (2 ≤ d ∧ d ≤ 9) ∨ d = 13 ∨ d = 19 ∨ d = 21 then v
  else if d = 14 ∨ d = 15 ∨ d = 18 then (if v = 2 then 2 else 0)
  else if d = 16 ∨ d = 17 then min v 1
  else 0

/-- IDLE of PCR_DOMAIN_CFGd. -/
def State.idleOf (s : State) (d : Nat) : Nat := bits (s.reg (0x104A001020 + 4 * d)) 1 0

/-- R397: an event in PCR_DOMAIN_EVR with its domain. -/
def State.domRecord (s : State) (d flag : Nat) : State :=
  s.recordCap 0x104A001008 flag (some 1123) [(0x104A00100C, BitVec.ofNat 32 d)]

/-- The threads of a cluster that are not FREE. -/
def State.clusterThreads (s : State) (n : Nat) : List Nat := (s.thr.map Prod.fst).filter (fun t => t / 128 == n)

/-- R395: may a cluster gate: nothing runs, waits in a queue or is outstanding. -/
def State.clusterQuiet (s : State) (n : Nat) : Bool :=
  (s.clusterThreads n).all (fun t => (s.th t).state != .run && (s.th t).mem == .idle) &&
  s.coh.prefs.all (fun p => p.gtn / 128 != n) &&
  (List.range 4).all (fun c => (s.core (4 * n + c)).wq.isEmpty && (s.core (4 * n + c)).sb.isEmpty)

/-- R395. -/
def execClusterGate (n : Fin 8) (s : State) : Out :=
  whenOk (s.domain (2 + n.val) == .on && decide (1 ≤ s.idleOf (2 + n.val)) && s.clusterQuiet n.val) s
    (s.setDom (2 + n.val) .gated)

/-- The coherence agent that a domain holds (R189, R395). -/
def domAgent (d : Nat) : Option Nat :=
  if 2 ≤ d ∧ d ≤ 9 then some (d - 2)
  else if d = 14 then some 11 else if d = 17 then some 9 else if d = 18 then some 12 else if d = 19 then some 10 else none

/-- R233: a dead device agent rejoins when its block has completed its reset: when the domain of the block is back from OFF (log 112). -/
def State.agentBack (s : State) (d : Nat) : State :=
  match domAgent d with
  | some a => if 9 ≤ a then s.modCoh (fun c => { c with dead := putBit c.dead a false }) else s
  | none => s

/-! ## Levels (R399 to R402) -/

/-- The set point of a level in mV, and its demand in grants (R399). -/
def levelMv (l : Nat) : Nat := [850, 750, 700, 650, 600, 550, 550, 550].getD l 550
def levelDemand (l : Nat) : Nat := [47, 34, 26, 18, 11, 5, 3, 2].getD l 2

/-- The requested level of a cluster (R400): P6 after reset. -/
def State.levelReq (s : State) (n : Nat) : Nat := Tbl.get (fun _ => (6 : Nat)) s.pwr.req n

/-- The level in force of a cluster, without a P0 grant. -/
def State.levelNow (s : State) (n : Nat) : Nat := Tbl.get (fun _ => (6 : Nat)) s.pwr.now n

/-- Is a cluster powered. -/
def State.clusterUp (s : State) (n : Nat) : Bool := s.domain (2 + n) != .off

/-- The ceiling in force (R298, R414). -/
def State.ceilNow (s : State) : Nat := min 7 (s.pwr.ceil + b2n s.pwr.reduced)

/-- R400: the level a cluster is to run at, without a P0 grant. -/
def State.levelTarget (s : State) (n : Nat) : Nat := max (max (max 1 (s.levelReq n)) s.ceilNow) s.pwr.thermal

/-- R400: the set point of the VDD_CORE rail for the levels in force, with one cluster taken at another level. -/
def State.railFor (s : State) (n l : Nat) : Nat :=
  (List.range 8).foldl (fun m k =>
    if s.clusterUp k then
      max m (if s.levelReq k = 0 then 850 else levelMv (if k = n then l else s.levelNow k))
    else m) 550

/-- R402: the frame that sets VDD_CORE to a set point, trimmed as fused (R399). -/
def coreFrame (mv : Nat) : Nat :=
  let code := (mv + 5 * (Config.vddTrim % 9) - 20 - 400) / 5
  code + Nat.xor (code % 16) (code / 16) * 2 ^ 12

/-- Is an accepted command a PWR_LEVEL of a cluster. -/
def Accepted.levels (n : Nat) (a : Accepted) : Bool := a.opcode == 0x0201 && a.objs.contains (.cluster n)

/-- R400: the rail is not at the set point for the levels in force, for a cluster at its target: its PWR_LEVEL entered or left level 0, or
a cluster was powered off or on. -/
def State.railStale (s : State) (n t : Nat) : Bool :=
  s.pwr.rail != s.railFor n t &&
  (s.hm.acc.any (Accepted.levels n) || (s.pwr.trans.isEmpty && !s.hm.acc.any (fun a => a.opcode == 0x0201)))

/-- R401: starts a transition for each powered cluster whose level in force is not its target, or whose rail is not. A target that a
failed voltage step kept it from is not tried again by itself (R402). -/
def State.relevel (s : State) : State :=
  (List.range 8).foldl (fun s n =>
    let t := s.levelTarget n
    if s.clusterUp n && (t != s.levelNow n || s.railStale n t) && !s.pwr.trans.any (fun x => x.cluster == n) &&
        Tbl.get (fun _ => (0 : Nat)) s.pwr.gaveUp n != t + 1 then
      let raise := decide (t < s.levelNow n ∨ (t = s.levelNow n ∧ s.pwr.rail < s.railFor n t))
      let v := if raise ∧ s.pwr.rail < s.railFor n t then 1 else 0
      s.modPwr (fun p => { p with trans := p.trans ++ [{ cluster := n, dest := t, raise := raise, volt := v }] })
    else s) s

/-- R401: the first voltage change that waits is sent when the link is free. -/
def State.sendFrame (s : State) : State :=
  if s.pwr.frame.isSome then s
  else match s.pwr.trans.find? (fun x => x.volt == 1) with
    | none => s
    | some x =>
      let l := if x.raise then x.dest else s.levelNow x.cluster
      s.modPwr (fun p => { p with
        frame := some (coreFrame (s.railFor x.cluster l), false),
        trans := p.trans.map (fun y => if y = x then { y with volt := 2 } else y) })

/-- R401, R402: a transition ends: PWR_LEVEL of the cluster completes with the level in force. -/
def State.transEnds (s : State) (x : LvTrans) : State :=
  let s := s.modPwr (fun p => { p with trans := p.trans.filter (fun y => y.cluster != x.cluster) })
  match s.accepted (Accepted.levels x.cluster) with
  | some a => s.workEnds a (r0 stOk 0) [BitVec.ofNat 32 (s.levelNow x.cluster)]
  | none => s

/-- R401: what an epoch boundary does to one transition: the switch of the clock, or the end. -/
def State.transEpoch (s : State) (x : LvTrans) : State :=
  let setNow := fun (s : State) => s.modPwr (fun p => { p with now := Tbl.set (fun _ => (6 : Nat)) p.now x.cluster x.dest })
  if x.volt = 4 then (s.modPwr (fun p => { p with gaveUp := Tbl.set (fun _ => (0 : Nat)) p.gaveUp x.cluster (x.dest + 1) })).transEnds x
  else if x.raise then (if x.pll && (x.volt == 0 || x.volt == 3) then (setNow s).transEnds x else s)
  else if x.switched then (if x.volt = 3 then s.transEnds x else s)
  else if x.pll then
    let s := setNow s
    if s.railFor x.cluster x.dest < s.pwr.rail then
      s.modPwr (fun p => { p with trans := p.trans.map (fun y => if y = x then { y with volt := 1, switched := true } else y) })
    else s.transEnds x
  else s

/-- R398: a PLL locks: 0 to 7 the idle core PLL of a cluster, 8 fabric, 9 harbourmaster, 10 peripheral, 11 DRAM,
12 SerDes and PCIe. -/
def execPllLock (p : Fin 13) (s : State) : Out :=
  ok (s.modPwr (fun w => { w with
    plls := Tbl.set (fun _ => false) w.plls p.val true,
    trans := w.trans.map (fun x => if x.cluster = p.val then { x with pll := true } else x) }))

/-- R401, R402: the rail has reached its new value; the voltage step of the transition that sent it is done. -/
def execPmicVgoodRise (s : State) : Out :=
  match s.pwr.frame with
  | none => ok s
  | some _ =>
    let mv := match s.pwr.trans.find? (fun x => x.volt == 2) with
      | some x => s.railFor x.cluster (if x.raise then x.dest else s.levelNow x.cluster)
      | none => s.pwr.rail
    ok ((s.modPwr (fun p => { p with
        frame := none, rail := mv,
        trans := p.trans.map (fun x => if x.volt = 2 then { x with volt := 3 } else x) })).sendFrame)

/-- R402: PMIC_VGOOD has not risen 200 µs after a frame: it is sent once more; after the second failure the level in force
stays, and an error log entry is written. -/
def execVoltageStepTimeout (s : State) : Out :=
  match s.pwr.frame with
  | none => ok s
  | some (f, false) => ok (s.modPwr (fun p => { p with frame := some (f, true) }))
  | some (f, true) =>
    let s := (s.modPwr (fun p => { p with
        frame := none,
        trans := p.trans.map (fun x => if x.volt = 2 then { x with volt := 4 } else x) })).logErr 0xB 2 none 0 0 f 0
    ok s.sendFrame

/-! ## The arbiter (R411, R412) -/

/-- The pool in grants at a set point in mV. -/
def State.poolAt (s : State) (mv : Nat) : Nat :=
  min ((s.pwr.budget - s.pwr.allowance) * 400 / mv) (s.pwr.rating * 2 / 5)

/-- The pool in force. -/
def State.pool (s : State) : Nat := s.poolAt s.pwr.rail

/-- Rounds a quotient up. -/
def ceilDiv (a b : Nat) : Nat := (a + b - 1) / b

/-- The cores of a cluster with a thread in RUN. -/
def State.busyCores (s : State) (n : Nat) : Nat :=
  ((List.range 4).filter (fun c => s.thr.any (fun e => e.1 / 32 == 4 * n + c && e.2.state == .run))).length

/-- A requester of the arbiter: 0 to 7 clusters, then switch, gateway, DMA, PCIe: demand up to P1, demand at P0, floor. -/
structure Rqr where
  d1 : Nat
  d0 : Nat
  f : Nat
  zero : Bool
deriving DecidableEq, Repr

/-- R411: the figures of a requester in this epoch. -/
def State.requester (s : State) (r : Nat) : Rqr :=
  if r < 8 then
    if s.clusterUp r && !s.clusterFused r then
      let k := s.busyCores r
      let zero := s.levelReq r == 0 && decide (850 ≤ s.pwr.rail) && s.levelNow r == 1 && s.ceilNow == 0 && s.pwr.thermal == 0
      let d1 := max 1 (ceilDiv (levelDemand (s.levelNow r) * k) 4)
      { d1 := d1, d0 := max 1 (ceilDiv (47 * k) 4), f := ceilDiv d1 2, zero := zero }
    else { d1 := 0, d0 := 0, f := 0, zero := false }
  else
    let d := [14, 17, 19, 18].getD (r - 8) 0
    let n := [10, 2, 4, 4].getD (r - 8) 0
    if s.domain d = .on then { d1 := n, d0 := n, f := n, zero := false } else { d1 := 0, d0 := 0, f := 0, zero := false }

/-- R412: the fill towards the P1 demand, one grant at a time. -/
def fillGrants (d1 : List Nat) : Nat → Nat → Nat → List Nat → Nat × Nat × List Nat
  | 0, avail, ptr, g => (avail, ptr, g)
  | n + 1, avail, ptr, g =>
    if avail = 0 then (avail, ptr, g)
    else match ((List.range 12).map (fun i => (ptr + i) % 12)).find? (fun r => decide (g.getD r 0 < d1.getD r 0)) with
      | none => (avail, ptr, g)
      | some r => fillGrants d1 n (avail - 1) ((r + 1) % 12) (g.set r (g.getD r 0 + 1))

/-- R412: the P0 upgrades, clusters visited from a pointer on; answers the grants, the upgraded clusters and the last. -/
def upgradeP0 (q : List Rqr) : List Nat → Nat → List Nat → BitVec 8 → Option Nat → List Nat × BitVec 8 × Option Nat
  | [], _, g, p0, last => (g, p0, last)
  | n :: r, avail, g, p0, last =>
    let x := q.getD n { d1 := 0, d0 := 0, f := 0, zero := false }
    if x.zero && g.getD n 0 == x.d1 && decide (x.d0 - x.d1 ≤ avail) then
      upgradeP0 q r (avail - (x.d0 - x.d1)) (g.set n x.d0) (putBit p0 n true) (some n)
    else upgradeP0 q r avail g p0 last

/-- The grants of an epoch stored. -/
def grantTbl (g : List Nat) : Tbl Nat :=
  (List.range 12).foldl (fun t i => Tbl.set (fun _ => (0 : Nat)) t i (g.getD i 0)) []

/-- R472: the encoders of a cluster whose level or pulse ratio changes emit TS before their next packet. -/
def State.encMark (s : State) (n : Nat) : State :=
  { s with trc := { s.trc with encs := s.trc.encs.map (fun e => if e.1 / 4 = n ∧ e.2.armed then (e.1, { e.2 with tsNext := true }) else e) } }

/-- R472: marks the encoders of every cluster whose grants or level differ from those of an earlier state. -/
def State.encMarks (s was : State) : State :=
  (List.range 8).foldl (fun s n =>
    let g := fun (x : State) => (Tbl.get (fun _ => (0 : Nat)) x.pwr.grants n, x.levelNow n, bit x.pwr.p0 n)
    if g s = g was then s else s.encMark n) s

/-- R412, R413: the grants of an epoch; floors only while a dip lasts. -/
def State.arbitrate (s : State) : State :=
  let q := (List.range 12).map s.requester
  let f := q.map (fun x => x.f)
  if s.pwr.dip ≠ 0 then s.modPwr (fun p => { p with grants := grantTbl f, p0 := 0 })
  else
    let avail := s.pool - f.foldl (· + ·) 0
    let (avail, ptr, g) := fillGrants (q.map (fun x => x.d1)) (avail + 1) avail s.pwr.ptr f
    let (g, p0, last) := upgradeP0 q ((List.range 8).map (fun i => (s.pwr.ptr0 + i) % 8)) avail g 0 none
    s.modPwr (fun p => { p with
        grants := grantTbl g, p0 := p0, ptr := ptr,
                                ptr0 := match last with
                                  | some l => (l + 1) % 8
                                  | none => p.ptr0 })

/-- R412, R401: an epoch boundary: clusters switch clock, voltage frames go out, grants apply. -/
def execArbiterEpoch (was : State) : Out :=
  let s := was.pwr.trans.foldl State.transEpoch was
  let s := s.relevel
  let idle := s.hm.acc.filter (fun a => a.opcode == 0x0201 && !s.pwr.trans.any (fun x => a.objs.contains (.cluster x.cluster)))
  let s := idle.foldl (fun s a => s.workEnds a (r0 stOk 0) [BitVec.ofNat 32 (s.levelNow (bits (a.pay.getD 0 0) 2 0))]) s
  ok (s.sendFrame.arbitrate.encMarks was)

/-! ## Dips (R413, R414) and thermal limits (R415, R416) -/

/-- R270, R298: the ceiling in force has changed. -/
def State.ceilSignal (s : State) (was : Nat) : State := if s.ceilNow = was then s else s.signalAll 7

/-- R413, R414: a supply is below its warning threshold. -/
def execSupplyDip (soc : Bool) (s : State) : Out :=
  if s.pwr.dip ≠ 0 then ok (s.modPwr (fun p => { p with dip := 1 }))
  else
    let recent := s.pwr.dips.filter (fun t => decide (s.time < t + 1000000000))
    let reduce := decide (8 ≤ recent.length) && !s.pwr.reduced
    let was := s.ceilNow
    let s := s.modPwr (fun p => { p with
        dip := 1, dipSoc := soc, dipStart := s.time, dips := recent ++ [s.time], p0 := 0,
        grants := grantTbl ((List.range 12).map (fun r => (s.requester r).f)), reduced := p.reduced || reduce })
    let s := (s.record 0x104A00201C (if soc then 2 ^ 17 else 2 ^ 18) (some 1120)).signalAll 5
    ok (if reduce then (s.record 0x104A00201C (2 ^ 16) (some 1120)).ceilSignal was else s)

/-- R413: the supply has risen above 96 % of its set point. -/
def execDipRecovery (s : State) : Out :=
  whenOk (s.pwr.dip == 1) s
    ((s.modPwr (fun p => { p with dip := 2, dipNs := s.time - p.dipStart })).setReg 0x104A002020
      (BitVec.ofNat 32 (min (s.time - s.pwr.dipStart) 0xFFFFFFFF)))

/-- R413: the supply has stayed above 96 % for 1 µs. -/
def execDipEnd (s : State) : Out :=
  whenOk (s.pwr.dip == 2) s
    (((s.modPwr (fun p => { p with dip := 0 })).logErr 0xB 1 none 0 0 (min s.pwr.dipNs 0xFFFFFFFF) (b2n s.pwr.dipSoc)).count 0x40 8)

/-- The hottest of the readings, with its sensor. -/
def hottest (l : List (BitVec 8)) : BitVec 8 × Nat :=
  (l.zipIdx).foldl (fun a b => if a.1.toInt < b.1.toInt then b else a) (l.getD 0 0, 0)

/-- R416: the signal of a start or an end of thermal limiting. -/
def State.thermal (s : State) (limit flag : Nat) : State :=
  ((s.modPwr (fun p => { p with thermal := limit, cool := 0, checked := false, p0 := 0 })).record 0x104A002024 flag (some 1121)).signalAll 6

/-- R416: thermal shutdown: every domain but PD00 is off, and the reset record keeps the cause. -/
def State.thermalShut (s : State) : State :=
  let s := s.setReg 0x104A004000 (putBit (s.reg 0x104A004000) 23 true)
  { s.modPwr (fun p => { p with shut := true }) with dom := [], domReq := [], hm := { s.hm with ready := false, island := false } }

/-- R415, R416: the junction sensors are read. -/
def execThermalSample (tj : List (BitVec 8)) (s : State) : Out :=
  let h := hottest (tj.take 12)
  let s := s.modPwr (fun p => { p with tj := h.1, sensor := h.2 })
  let t := h.1.toInt
  if s.pwr.shut then ok s
  else if 135 ≤ t then ok s.thermalShut
  else if s.pwr.thermal = 0 then ok (if 115 ≤ t then s.thermal 3 (2 ^ 18) else s)
  else if 110 ≤ t then ok (s.modPwr (fun p => { p with cool := 0 }))
  else if 999 ≤ s.pwr.cool then ok (s.thermal 0 (2 ^ 16))
  else ok (s.modPwr (fun p => { p with cool := p.cool + 1 }))

/-- R416: 10 ms after throttling started. -/
def execThermalStage2Check (s : State) : Out :=
  if s.pwr.thermal = 3 ∧ s.pwr.checked = false then
    let s := s.modPwr (fun p => { p with checked := true })
    ok (if 120 ≤ s.pwr.tj.toInt then
          (s.modPwr (fun p => { p with thermal := 5 })).record 0x104A002024 (2 ^ 17) (some 1121)
        else s)
  else ok s

/-! ## The power commands (R298) -/

/-- R298: PWR_LEVEL. -/
def execPwrLevel (m : Fin 69) (s : State) : Out :=
  ok (s.harbour m.val 0x0201 (fun s q =>
    let n := bits (q.q 0) 2 0
    let l := bits (q.q 0) 10 8
    if (q.q 0) &&& 0xFFFFF8F8 ≠ 0 then .fail stDenied 8
    else if s.clusterFused n then .fail stNoResource 1
    else .accept (s.modPwr (fun p => { p with
        req := Tbl.set (fun _ => (6 : Nat)) p.req n l, gaveUp := Tbl.set (fun _ => (0 : Nat)) p.gaveUp n 0 })) []))

/-- R298: PWR_CEIL. -/
def execPwrCeil (m : Fin 69) (s : State) : Out :=
  ok (s.harbour m.val 0x0202 (fun s q =>
    if (q.q 0) &&& 0x7FFFFFF8 ≠ 0 then .fail stDenied 8
    else
      let was := s.ceilNow
      let clr := bit (q.q 0) 31
      let s := (s.modPwr (fun p => { p with
          ceil := bits (q.q 0) 2 0, reduced := p.reduced && !clr,
                                            dips := if clr then [] else p.dips })).ceilSignal was
      .done s [BitVec.ofNat 32 (s.ceilNow + b2n s.pwr.reduced * 8)]))

/-- R411: the largest floors of every present requester. -/
def State.floorSum (s : State) : Nat := ((List.range 8).filter (fun n => !s.clusterFused n)).length * 17 + 10 + 2 + 4 + 4

/-- R298, R411: PWR_BUDGET. -/
def execPwrBudget (m : Fin 69) (s : State) : Out :=
  ok (s.harbour m.val 0x0203 (fun s q =>
    let b := bits (q.q 0) 15 0
    let s' := s.modPwr (fun p => { p with budget := b })
    if bits (q.q 0) 31 16 ≠ 0 ∨ b < 100 ∨ 950 < b ∨ s.pwr.limit < b ∨ s'.poolAt 850 < s.floorSum then .fail stDenied 8
    else .done s' [BitVec.ofNat 32 b]))

/-- A word of eight nibbles. -/
def nibbles (f : Nat → Nat) : W32 := BitVec.ofNat 32 ((List.range 8).foldl (fun a n => a + f n % 16 * 16 ^ n) 0)

/-- R400: the level of a cluster as PCR_LEVEL_NOW and PWR_STATUS show it. -/
def State.levelShown (s : State) (n : Nat) : Nat :=
  if s.clusterFused n || !s.clusterUp n then 0xF else if bit s.pwr.p0 n then 0 else s.levelNow n

/-- R298: PWR_STATUS; the spec gives no rule for the estimated draw (log 5). -/
def execPwrStatus (m : Fin 69) (s : State) : Out :=
  ok (s.harbour m.val 0x0205 (fun s _ =>
    let n := (s.pwr.dips.filter (fun t => decide (s.time < t + 1000000000))).length
    let (draw, s) := s.fresh 16
    .done s [nibbles s.levelShown, BitVec.ofNat 32 (s.ceilNow + b2n s.pwr.reduced * 8 + n % 2 ^ 16 * 2 ^ 16),
             BitVec.ofNat 32 (s.pwr.budget + draw.toNat * 2 ^ 16)]))

end Sys2Proof.Machine
end

