-- ==== Sys2Proof/Machine/Guard.lean ====
section
/-! DEFINITION. An access of a requester to a block's register: the domain it wakes (R22) and the guard it passes (R34). -/

namespace Sys2Proof.Machine

/-- The power domain of the block whose frame or mailbox page holds an address (R12). -/
def domainOf (pa : Nat) : Nat :=
  if 0x1080000000 ≤ pa then 1
  else match (blockOf pa).1 with
    | 1 => 2 + (blockOf pa).2
    | 2 => 10
    | 3 => 11
    | 4 => 10
    | 5 => 14
    | 6 => 16
    | 7 => 17
    | 8 => 19
    | 9 => 18
    | 10 => 22
    | 12 => 10
    | 13 => 21
    | 14 => 13
    | _ => 0

/-- Is a page one of a unit that the order code fuses off (R3, R15). -/
def State.pageFused (s : State) (p : PageRef) : Bool :=
  match p.kind with
  | .common => decide (16 ≤ p.unit) && s.clusterFused (p.unit - 16)
  | .core => s.clusterFused (p.unit / 4)
  | .lockup => s.clusterFused p.unit
  | .patternPage => s.clusterFused p.unit
  | .cacheInt => s.clusterFused p.unit
  | .dmcCh => s.channelFused p.unit
  | .eswPort => s.portFused p.unit
  | .can => s.canFused p.unit
  | .canRam => s.canFused (p.unit / 4)
  | .dbtCore => s.clusterFused (p.unit / 4)
  | _ => false

/-- R15: does an address fall on a page of a fused unit. -/
def State.addrFused (s : State) (pa : Nat) : Bool :=
  match pageAt pa with
  | some p => s.pageFused p
  | none => false

/-- R22: an access waits for a domain, behind those that wait already; one that is tried again keeps its place. -/
def State.waitOn (s : State) (d : Nat) (x : Wait) : State :=
  let s := s.wakeDomain d
  let again := match x with
    | .reg _ _ _ => false
    | .pcie _ => false
    | _ => s.waits.contains (d, x)
  if again then s else { s with waits := s.waits ++ [(d, x)] }

/-! ## Error responses (R21) -/

/-- The instance page of type × 256 + index. -/
def instPage (i : Nat) : Nat :=
  [0, 0x1047080000, 0x1046080000, 0x1044080000, 0x1045080000, 0x1048080000].getD (i / 256) 0 + i % 256 * 0x1000

/-- The even event number of an instance: work completed; its error event is the next (R318, R254). -/
def instEvent (i : Nat) : Nat := [0, 704, 632, 288, 560, 784].getD (i / 256) 0 + 2 * (i % 256)

/-- Flags of INST_EVR: a translation failure, an error response, a poisoned read (R319). -/
def fXlat : Nat := 2 ^ 18
def fBus : Nat := 2 ^ 17
def fLost : Nat := 2 ^ 16

/-- R319, R342: an error of a work item in a slot. -/
def State.instError (s : State) (i flag slot : Nat) (wr : Bool) (addr : Nat) : State :=
  let pg := instPage i
  let s := s.count (0x100 + (s.inst i).berth) 8
  s.recordCap (pg + 8) flag (some (instEvent i + 1))
    [(pg + 0xC, BitVec.ofNat 32 (b2n wr * 2 ^ 31 + slot % 2 ^ 16)), (pg + 0x10, BitVec.ofNat 32 addr),
     (pg + 0x14, BitVec.ofNat 32 (addr / 2 ^ 32 % 256))]

/-- R366, R367: AER logs an error: COR 18, NONFATAL 17, FATAL 16, ECRC 15, RXPSN 14. -/
def State.aer (s : State) (flags : Nat) : State := s.record 0x104800100C flags (some 817)

/-- R21: an error response with detail `n` (R152) to a requester that has no work item of its own in hand: the harbourmaster logs it
(R304), an instance records it, a peer's write is logged, the debug port sets its error bit. A thread's error is taken by its bundle. -/
def State.accessFails (s : State) (rq : Req) (pa : Nat) (wr : Bool) (n : Nat) : State :=
  match rq.cls with
  | .harbour => s.logErr 0x10 0x01 none 0 pa (n + b2n wr * 8) 0
  | .dma => s.instError (256 + rq.src % 256) fBus 0 wr pa
  | .gateway => s.instError (512 + rq.src % 256) fBus 0 wr pa
  | .switch => s.instError (768 + rq.src % 256) fBus 0 wr pa
  | .pcie => if wr then s.aer (2 ^ 17) else s
  | .debug => { s with dbg := { s.dbg with dae := { s.dbg.dae with err := true } } }
  | _ => s

/-- R15, R22, R24, R34: an access to the page of a fused unit gets an error response; one that finds its domain asleep wakes it and
waits, but a peek read wakes nothing; a guarded register serves the request only past its guard. -/
def State.access (s : State) (rq : Req) (pa : Nat) (guarded : Bool) (w : Option W32) (f : State → State) : State :=
  if s.addrFused pa then s.accessFails rq pa w.isSome 0
  else if s.domain (domainOf pa) ≠ .on ∧ ¬ (rq.peek = true ∧ w = none) then s.waitOn (domainOf pa) (.reg rq pa w)
  else if s.domain (domainOf pa) = .off then s
  else if guarded && !s.guardOk rq then s.guardRefuse rq pa w.isSome
  else f s

/-- A write to a guarded register with an effect of its own. -/
def State.gWrite (s : State) (rq : Req) (pa : Nat) (w : W32) (f : State → State) : State := s.access rq pa true (some w) f

end Sys2Proof.Machine
end

