-- ==== Sys2Proof/Machine/System.lean ====
section
/-! DEFINITION. The X-unit commands: system registers, branches, waits, calls and returns, synchronisation, prediction
(R81 to R87, R119, R133 to R140). -/

namespace Sys2Proof.Machine

/-! ## System registers -/

/-- The image loaded in a core's pattern store: 0 nothing, 1 the vendor area, 2 all areas (R249). -/
def State.patLoaded (s : State) (c : Nat) : Nat := Tbl.get (fun _ => (0 : Nat)) s.pat.loaded c

/-- PSV of a core (R251). -/
def State.psv (s : State) (c : Nat) : Word :=
  let v := if 1 ≤ s.patLoaded c then s.pat.vendorVer.toNat else 0
  let u := if 2 ≤ s.patLoaded c then s.pat.custVer.toNat else 0
  BitVec.ofNat 36 (v * 2 ^ 16 + u)

/-- TPR (R42) and WCH (R46) of a context. -/
def Ctx.tpr (c : Ctx) : Word := BitVec.ofNat 36 (c.ceil * 4 + c.cls)
def Ctx.wch (c : Ctx) : Word := BitVec.ofNat 36 (c.wLast.toNat * 2 ^ 16 + c.wMask.toNat * 2 ^ 8 + c.wPend.toNat)

/-- The value MFSR reads, from the context as it stood before the bundle (R73, R82, R83). -/
def State.srnRead (s : State) (t : Nat) (c : Ctx) (n : Nat) : Word :=
  if n = 0 then c.st
  else if n = 1 then c.tpr
  else if n = 2 then c.wch
  else if n = 8 then 0x100
  else if n = 9 then s.psv (coreOf t)
  else if n = 0xA then (s.core (coreOf t)).schedLast
  else c.sysr n

/-- The write of MTSR to a register that the thread may write (R42, R46, R82, R84 to R87). -/
def State.srnWrite (s : State) (t n : Nat) (v : Word) : State :=
  let x := s.th t
  let c := x.ctx
  let put (c : Ctx) : State := s.setTh t { x with ctx := c, par := Tbl.del x.par (0x100 + n) }
  if n = 0 then put { c with st := stWritten c.st v (stPl c.st) (s.bunOf t).sov }
  else if n = 1 then put { c with cls := Nat.min (bits v 1 0) c.ceil }
  else if n = 2 then put { c with wPend := BitVec.ofNat 8 (bits v 7 0) }
  else if n = 0xA then
    let w := v &&& BitVec.ofNat 36 (srnMask 0xA)
    s.modCore (coreOf t) (fun k => { k with schedLast := w, schedNew := Tbl.set (fun _ => (none : Option Word)) k.schedNew t (some w) })
  else if n = 0x11 ∨ n = 0x21 then put (c.setSysr n (xstWritten (if n = 0x11 then 1 else 2) (s.strictOf t) v))
  else put (c.setSysr n (v &&& BitVec.ofNat 36 (srnMask n)))

/-- R84: does an MTSR to a register at a level fault, is it ignored, or does it write. -/
def mtsrFaults (n pl : Nat) : Bool :=
  if srnReadOnly n then decide (pl < srnReadAt n) else decide (pl < srnWriteAt n)

/-! ## Privilege and pattern faults known at issue (R74) -/

/-- The key of a micro-address (or 0x2000 + entry) of a core's pattern store. -/
def patKey (core a : Nat) : Nat := core * 2 ^ 14 + a

/-- What a core's pattern store holds at a micro-address (or 0x2000 + entry) that was rewritten from a changed copy (R250). -/
def State.patOwn (s : State) (c a : Nat) : Option (BitVec 96) := Tbl.get (fun _ => (none : Option (BitVec 96))) s.pat.own (patKey c a)

/-- R248: a word that is not loaded: NMODE complete, every other field zero. -/
def patUnloaded : BitVec 96 := BitVec.ofNat 96 (3 * 2 ^ 81)

/-- The word at a micro-address of a core (R235, R248). -/
def State.patWord (s : State) (c a : Nat) : BitVec 96 := (s.patOwn c a).getD (Tbl.get (fun _ => patUnloaded) s.pat.words a)

/-- The entry of a customer pattern (R246), as a core has it loaded. -/
def State.patEntry (s : State) (c i : Nat) : BitVec 96 :=
  if 2 ≤ s.patLoaded c then (s.patOwn c (0x2000 + i)).getD (Tbl.get (fun _ => (0 : BitVec 96)) s.pat.entries i) else 0

/-- Records an event of a core's pattern store (R250, R252); a rewrite too is captured where no flag stood
(DESIGN CHOICE, log 117). -/
def State.patRecord (s : State) (core addr flag : Nat) (dbe : Bool) : State :=
  let page := 0x1040006000 + core / 4 * 0x100000
  s.recordCap page flag (some (8 * (core / 4) + 3))
    [(page + 4, BitVec.ofNat 32 (core % 4 * 2 ^ 30 + b2n dbe * 2 ^ 29 + addr))]

/-- R151, R152: a Pattern fault. -/
def patCause (addr : Word) (reason xfa : Nat) : Cause :=
  { cls := 10, detail := reason * 16, target := 1, level := some 15, xra := addr, xfa := BitVec.ofNat 36 xfa }

/-- R247, R250: how a UCALL of entry `i` fails, if it does. -/
def State.ucallFault (s : State) (t i : Nat) (addr : Word) : Option Cause :=
  let c := coreOf t
  let e := s.patEntry c i
  if Tbl.get (fun _ => false) s.pat.bad (patKey c (0x2000 + i)) then some (patCause addr 2 (0x2000 + i))
  else if !bit e 95 then some (patCause addr 0 i)
  else if !bit e (s.th t).berth then some (patCause addr 1 i)
  else none

/-- The fault that an X-unit syllable raises when it executes, from its bits and the thread's level (R84, R119, R247). -/
def State.xFaultOf (s : State) (t : Nat) (addr : Word) (pos : Nat) (w : W32) : Option Cause :=
  let pl := stPl (s.th t).ctx.st
  if sylLim w || sylReserved w then none
  else match sylFmt w with
    | 0 =>
      let srn := bits w 9 0
      if bits w 21 15 = 0 then (if pl < srnReadAt srn then some (privCause addr 0 pos srn) else none)
      else if bits w 21 15 = 1 then (if mtsrFaults srn pl then some (privCause addr 1 pos srn) else none)
      else none
    | 1 =>
      let opc := bits w 21 16
      if pl = 0 ∧ (opc = 2 ∨ opc = 3 ∨ opc = 5) then some (privCause addr 2 pos opc)
      else if opc = 7 then s.ucallFault t (bits w 5 0) addr
      else none
    | _ => none

/-! ## Branch prediction (R52 to R55, R59) -/

/-- The index of the counter table (R54). -/
def predIndex (addr : Word) (hist : BitVec 12) (t : Nat) : Nat :=
  Nat.xor (Nat.xor (bits addr 13 2) hist.toNat) (t % 32 * 2 ^ 7)

/-- A branch syllable: the prediction, the counter scheme's update, the end of PBAR, the interval, and where the thread
goes (R53, R54, R59, R133). `cond` is a conditional branch, `link` writes g31, `target` is where it goes when taken. -/
def State.branch (s : State) (t : Nat) (q : Pred) (link hint : Bool) (disp : BitVec 20) : State :=
  match s.openSyl t with
  | none => s
  | some b =>
    let x := s.th t
    let taken := b.holds q
    let cond := q.reg != 0 || q.neg
    let i := predIndex b.addr x.hist t
    let n : BitVec 2 := Tbl.get (fun _ => (1 : BitVec 2)) (s.core (coreOf t)).pred i
    let dyn := stDyn b.old.st
    let guess := if cond then (if dyn then decide (2 ≤ n.toNat) else hint) else true
    let n' : BitVec 2 := if taken then (if n = 3 then 3 else n + 1) else (if n = 0 then 0 else n - 1)
    let s := if cond ∧ dyn then
        s.modCore (coreOf t) (fun k => { k with pred := Tbl.set (fun _ => (1 : BitVec 2)) k.pred i n' })
      else s
    let iv := if guess = taken ∧ !x.pbar then 4 else 10
    let hist := if cond ∧ dyn then x.hist * 2 + (if taken then 1 else 0) else x.hist
    let tgt := b.addr + BitVec.ofInt 36 (disp.toInt * 4)
    let miss := decide (guess ≠ taken)
    let b' := { b with pos := b.pos + 1, ready := Nat.max b.ready (b.issued + iv), branch := true,
                       next := if taken then tgt else b.next, tev := if cond then b.tev ++ [.atom taken] else b.tev,
                       seen := Nat.lor b.seen (b2n miss * 2 ^ 22) }
    let s := if miss then s.perfEvent (coreOf t) 0x014 1 (some (t, x.berth)) else s
    let x := { x with bun := some b', hist := hist, pbar := false }
    s.setTh t (if taken ∧ link then x.wrReg 3 31 (b.addr + BitVec.ofNat 36 (4 * b.size)) else x)

/-- An indirect branch (R134): no prediction in either scheme, so an interval of 10 whether or not it is taken (R55); the barrier of
R59 ends. -/
def State.jump (s : State) (t : Nat) (q : Pred) (rd ra : Reg) : State :=
  match s.openSyl t with
  | none => s
  | some b =>
    let s := s.syl t q 10 (fun s =>
      let b := s.bunOf t
      let tgt := b.old.rd ra &&& 0xF_FFFF_FFFC#36
      (s.modTh t (fun x => { x with bun := some { b with next := tgt, branch := true, tev := b.tev ++ [.addr tgt] } })).wrReg t 3 rd
        (b.addr + BitVec.ofNat 36 (4 * b.size)))
    (s.modTh t (fun x => { x with pbar := false })).readyBy t (b.issued + 10)

/-! ## The commands -/

/-- R81, R84. -/
def execMfsr (t : Gtn) (q : Pred) (rd : Reg) (srn : BitVec 10) (s : State) : Out :=
  s.ask (.mfsr t q rd srn) (
    let n := srn.toNat
    ok (if srnAssigned n then
        s.syl t q 4 (fun s =>
          let b := s.bunOf t
          if stPl b.old.st < srnReadAt n then s.fault t (privCause b.addr 0 (s.xPos t) n)
          else s.wrReg t 3 rd (s.srnRead t b.old n))
      else s.reserved t q 3 (rd.val * 2 ^ 10 + n)))

/-- R81, R82, R84 to R87, R42, R46. -/
def execMtsr (t : Gtn) (q : Pred) (srn : BitVec 10) (rd : Reg) (s : State) : Out :=
  s.ask (.mtsr t q srn rd) (
    let n := srn.toNat
    ok (if srnAssigned n then
        s.syl t q 4 (fun s =>
          let b := s.bunOf t
          if mtsrFaults n (stPl b.old.st) then s.fault t (privCause b.addr 1 (s.xPos t) n)
          else if srnReadOnly n then s
          else s.srnWrite t n (s.src t rd))
      else s.reserved t q 3 (2 ^ 15 + rd.val * 2 ^ 10 + n)))

/-- R134. -/
def execJmp (t : Gtn) (q : Pred) (ra : Reg) (s : State) : Out :=
  s.ask (.jmp t q ra) (ok (s.jump t q 0 ra))

/-- R134. -/
def execJmpl (t : Gtn) (q : Pred) (rd ra : Reg) (s : State) : Out :=
  s.ask (.jmpl t q rd ra) (ok (s.jump t q rd ra))

/-- R133. -/
def execBra (t : Gtn) (q : Pred) (link hint : Bool) (disp : BitVec 20) (s : State) : Out :=
  s.ask (.bra t q link hint disp) (ok (s.branch t q link hint disp))

/-- R47, R135: the mask is written at issue; the thread waits once its resume bundle is loaded. -/
def execWait (t : Gtn) (q : Pred) (mask : BitVec 8) (s : State) : Out :=
  s.ask (.wait t q mask) (ok (s.syl t q 4 (fun s => s.modTh t (fun x =>
    { x with ctx := { x.ctx with wMask := mask }, bun := some { s.bunOf t with waitMask := some mask } }))))

/-- R136: the call waits for the boundary; XRA is the following bundle, XFA the service number. -/
def State.callWith (s : State) (t cls target arg : Nat) : State :=
  let b := s.bunOf t
  let c : Cause := { cls := cls, target := target, level := none, xra := b.addr + BitVec.ofNat 36 (4 * b.size),
                     xfa := BitVec.ofNat 36 arg }
  s.modTh t (fun x => { x with bun := some { b with call := some c } })

/-- R136. -/
def execSysc (t : Gtn) (q : Pred) (arg : BitVec 16) (s : State) : Out :=
  s.ask (.sysc t q arg) (ok (s.syl t q 12 (fun s => s.callWith t 0x10 1 arg.toNat)))

/-- A SYS operation allowed at S and H only (R119). -/
def State.sysPriv (s : State) (t opc : Nat) (f : State → State) : State :=
  let b := s.bunOf t
  if stPl b.old.st = 0 then s.fault t (privCause b.addr 2 (s.xPos t) opc) else f s

/-- R136. -/
def execHypc (t : Gtn) (q : Pred) (arg : BitVec 16) (s : State) : Out :=
  s.ask (.hypc t q arg) (ok (s.syl t q 12 (fun s => s.sysPriv t 2 (fun s => s.callWith t 0x11 2 arg.toNat))))

/-- R137, R161: the return takes effect at the boundary, with the other syllables' effects in place. -/
def execRfx (t : Gtn) (q : Pred) (s : State) : Out :=
  s.ask (.rfx t q) (ok (s.syl t q 10 (fun s => s.sysPriv t 3 (fun s =>
    s.modTh t (fun x => { x with bun := some { s.bunOf t with rfx := true } })))))

/-- R138: the thread waits at the boundary for its TLB maintenance. -/
def execSyncC (t : Gtn) (q : Pred) (s : State) : Out :=
  s.ask (.syncC t q) (ok (s.syl t q 16 (fun s => s.modTh t (fun x => { x with stall := .syncC }))))

/-- R54. -/
def execPflush (t : Gtn) (q : Pred) (s : State) : Out :=
  s.ask (.pflush t q) (ok (s.syl t q 4 (fun s => s.sysPriv t 5 (fun s =>
    (s.modCore (coreOf t) (fun k => { k with pred := [] })).modTh t (fun x => { x with hist := 0 })))))

/-- R59. -/
def execPbar (t : Gtn) (q : Pred) (s : State) : Out :=
  s.ask (.pbar t q) (ok (s.syl t q 4 (fun s => s.modTh t (fun x => { x with pbar := true }))))

end Sys2Proof.Machine
end

