-- ==== Sys2Proof/Machine/Access.lean ====
section
/-! DEFINITION. What the accesses of threads to normal memory are built from: the pieces of an access, the store buffer
(R196 to R202), the L1D, links, and the coherent accesses of device agents. -/

namespace Sys2Proof.Machine

/-- A piece of an access (R123): its first virtual address and its length. -/
structure Piece where
  va : Nat
  len : Nat
deriving DecidableEq, Repr

/-- R123: an access of `n` bytes at an address: one piece within a line, or the two halves of a split access. -/
def pieces (va : Word) (n : Nat) : List Piece :=
  let a := va.toNat
  let low := 64 - a % 64
  if n ≤ low then [⟨a, n⟩] else [⟨a, low⟩, ⟨(a + low) % 2 ^ 36, n - low⟩]

/-- The bytes an entry writes: a CL.ZERO covers its line; maintenance covers nothing (R200, R202). -/
def SbEntry.range (e : SbEntry) : Nat × Nat :=
  match e.op with
  | .store => (e.pa, e.data.length)
  | .zero => (e.pa / 64 * 64, 64)
  | _ => (e.pa, 0)

/-- Does an entry overlap `n` bytes at `pa`. -/
def SbEntry.overlaps (e : SbEntry) (pa n : Nat) : Bool :=
  decide (e.range.1 < pa + n ∧ pa < e.range.1 + e.range.2)

/-- Does an entry cover `n` bytes at `pa`. -/
def SbEntry.coversAll (e : SbEntry) (pa n : Nat) : Bool :=
  decide (e.range.1 ≤ pa ∧ pa + n ≤ e.range.1 + e.range.2)

/-- The bytes of a covering entry (R200). -/
def SbEntry.take (e : SbEntry) (pa n : Nat) : List Byte :=
  match e.op with
  | .zero => List.replicate n 0
  | _ => (e.data.drop (pa - e.pa)).take n

/-- The store buffer entries of a thread, oldest first. -/
def State.sbOf (s : State) (t : Nat) : List SbEntry := (s.core (coreOf t)).sb.filter (fun e => e.gtn == t)

/-- The entries of a thread that are not markers. -/
def State.sbReal (s : State) (t : Nat) : List SbEntry := (s.sbOf t).filter (fun e => e.op != .marker)

/-- R196: the free places of the 32 that a thread may use, in the order in which it takes them: 24 to 31 are for class 3 and for wake issues,
which take those first (log 111). -/
def State.sbSlots (s : State) (t : Nat) (wake : Bool) : List Nat :=
  let used := ((s.core (coreOf t)).sb.filter (fun e => e.op != .marker)).map SbEntry.slot
  (if (s.th t).ctx.cls = 3 ∨ wake then [24, 25, 26, 27, 28, 29, 30, 31] ++ List.range 24 else List.range 24).filter
    (fun k => !used.contains k)

/-- R196: may a thread place `n` more entries: 8 per thread, and as many free places. -/
def State.sbRoom (s : State) (t n : Nat) (wake : Bool) : Bool :=
  decide ((s.sbReal t).length + n ≤ 8) && decide (n ≤ (s.sbSlots t wake).length)

/-- Places an entry (R196); `upper` marks the upper half of a split store (R123). -/
def State.sbPush (s : State) (t : Nat) (op : SbOp) (pa : Nat) (data : List Byte) (via : Option TlbEntry := none)
    (upper : Bool := false) : State :=
  let x := s.th t
  let wake := match x.bun with
    | some b => b.wake
    | none => false
  let e : SbEntry := { gtn := t, order := x.sbOrder, op := op, pa := pa, data := data, via := via, upper := upper,
                       slot := if op = .marker then 0 else ((s.sbSlots t wake).head?).getD 0 }
  (s.setTh t { x with sbOrder := x.sbOrder + 1 }).modCore (coreOf t) (fun k => { k with sb := k.sb ++ [e] })

/-! ## The L1D (R197, R203) -/

/-- The bytes from `off` of a line, as a mask. -/
def byteMask (off n : Nat) : BitVec 64 := BitVec.ofNat 64 ((2 ^ n - 1) * 2 ^ off)

/-- R203, R340: a parity error of an L1 or of a line buffer (counter `r`) is recorded and counted; it has no kind of its own in
CLC_L2_SRC and shows as one corrected on a read (log 107). -/
def State.l1Parity (s : State) (core line word r : Nat) : State :=
  ((s.clcL2Event (core / 4) core line (2 ^ 11) 0 0 word 0).count (core / 4) r).count 0x40 1

/-- The word of the first byte in a mask. -/
def firstWord (m : BitVec 64) : Nat := (((List.range 64).find? (fun i => m.getLsbD i)).getD 0) / 8

/-- R203: a read of bytes of an L1D line that finds wrong parity: the copy is invalid, and the line is read again from the L2. -/
def State.l1dCheck (s : State) (core pa n : Nat) : State :=
  let line := pa / 64
  let m := Tbl.get (fun _ => (0 : BitVec 64)) s.coh.l1dBad (lineKey core line) &&& byteMask (pa % 64) n
  if m = 0 ∨ !s.inL1d core line then s else (s.dropL1d core line).l1Parity core line (firstWord m) 2

/-- R197: a store to a line invalidates it in the other three L1Ds of the cluster. -/
def State.l1dOthers (s : State) (core line : Nat) : State :=
  [0, 1, 2, 3].foldl (fun s c => if core / 4 * 4 + c = core then s else s.dropL1d (core / 4 * 4 + c) line) s

/-- R203: a store that drains writes fresh parity for its bytes of the L1D line. -/
def State.l1dFresh (s : State) (core pa n : Nat) : State :=
  let k := lineKey core (pa / 64)
  let m := Tbl.get (fun _ => (0 : BitVec 64)) s.coh.l1dBad k &&& ~~~byteMask (pa % 64) n
  s.modCoh (fun h => { h with l1dBad := Tbl.set (fun _ => (0 : BitVec 64)) h.l1dBad k m })

/-- R204: a write to words of an L2 line replaces their stored errors: a word it covers whole, and one that can be corrected. -/
def State.l2Fresh (s : State) (a pa n : Nat) : State :=
  (s.copyErrs (1 + a) (pa / 64)).foldl (fun s e =>
    let w := pa / 64 * 8 + e.1
    if w * 8 < pa + n ∧ pa < w * 8 + 8 ∧ (e.2.2 ∨ (pa ≤ w * 8 ∧ w * 8 + 8 ≤ pa + n)) then s.setFlips (copyKey (1 + a) w) 0 else s) s

/-- R197: a store is performed: bytes written, the line marked M, other threads' links to it cleared (R127). -/
def State.perform (s : State) (t pa : Nat) (bs : List Byte) : State :=
  let line := pa / 64
  let cl := clusterOf t
  (((((s.store pa bs).l2Fresh cl pa bs.length).l1dFresh (coreOf t) pa bs.length).markM cl line).l1dOthers (coreOf t) line).unlinkLine line
    (some t)

/-- R127: a plain, saturating or release store of a thread clears its own link to the line. -/
def State.ownUnlink (s : State) (t pa : Nat) : State := s.modTh t (fun x => x.unlinkFrom (pa / 64))

/-- A core reads bytes of a line that its cluster's L2 holds (R193, R203, R204): from its L1D, or from the L2, which fills the L1D. False
where the copies are given up and the line is to be read again. -/
def State.coreRead (s : State) (core pa n : Nat) : Bool × State :=
  let line := pa / 64
  let a := core / 4
  let s := s.l1dCheck core pa n
  if s.inL1d core line then (true, s.fillL1d core line)
  else
    let r := s.copyRead (1 + a) line core 0 false (s.aline a line).st.only
    if r.1 then (false, r.2.evict a line) else (true, (r.2.agentUse a line).fillL1d core line)

/-- The bytes of a line as a cluster's copy has them (R211). -/
def State.coreBytes (s : State) (a pa n : Nat) : List Byte :=
  match s.staleOf a (pa / 64) with
  | [] => s.rdBytes pa n
  | bs => (bs.drop (pa % 64)).take n

/-- One byte. -/
def State.coreByte (s : State) (t pa : Nat) : Byte := (s.coreBytes (clusterOf t) pa 1).headD 0

/-! ## The device agents (R215, R218; log 13) -/

/-- Are all copies of a line and its directory entry in states without a message on the way. -/
def State.lineStable (s : State) (line : Nat) : Bool :=
  let h := s.home line
  h.busy == .idle && h.queue == [] && (List.range 13).all (fun a => let x := (s.aline a line).st; x == .I || x.holds)

/-- R225: a device agent gives a line up: its Put and the answer at once. -/
def State.agentPuts (s : State) (a line : Nat) : State :=
  let h := s.home line
  let x := (s.aline a line).st
  let s := s.setAline a line {}
  if !s.lineStable line then s
  else if (h.st = .X ∨ h.st = .O) ∧ h.owner = a then
    (if x = .M ∨ x = .O then s.setSlc line .dirty else s).setHome line
      (if h.st = .X ∨ h.sh = 0 then { h with st := .I, sh := 0 } else { h with st := .S })
  else s.setHome line { h with sh := shDel h.sh a, st := if h.st = .S ∧ shDel h.sh a = 0 then .I else h.st }

/-- R189, R215: a device agent's cache takes a line in a state; a line of its set may have to leave. -/
def State.agentTakesIn (s : State) (a line : Nat) (st : LSt) : State :=
  let c := agentCache a
  match c.touch (s.cset c line) line (fun l => (s.aline a l).st.holds) (fun _ => true) with
  | .hit x => (s.setCset c line x).setAline a line { st := st }
  | .fill x none => (s.setCset c line x).setAline a line { st := st }
  | .fill x (some v) => ((s.agentPuts a v).setCset c line x).setAline a line { st := st }
  | .full => s

/-- R218, R224: the transaction of an agent's write of a line: GetMZ and PutM for a whole line of agents 9 to 12, else GetM. A line with
messages on its way keeps its states. -/
def State.agentTakes (s : State) (a line : Nat) (whole : Bool) : State :=
  let h := s.home line
  if !s.lineStable line ∨ (s.aline a line).st = .M then s
  else
    let s := if !whole && h.st != .X && h.st != .O then s.homeRead line (if a = 8 then 2 else a) else s
    let s := (List.range 13).foldl (fun s b =>
      if b = a ∨ (s.aline b line).st = .I then s
      else ((if whole then s else s.l2Out b line).setAline b line {}).leaveL2 b line) s
    if whole then ((s.setAline a line {}).setHome line { h with st := .I, owner := 0, sh := 0 }).setSlc line .dirty
    else (s.setHome line { h with st := .X, owner := a, sh := 0 }).agentTakesIn a line .M

/-- R218, R224: the transaction of an agent's read of a line: RdOnce, or GetS, which keeps a copy. `cls` is the class of R27. -/
def State.agentGets (s : State) (a cls line : Nat) (once : Bool) : State :=
  let h := s.home line
  if (s.aline a line).st.holds ∨ !s.lineStable line then s
  else match h.st with
    | .I =>
      let s := s.homeRead line cls
      if once then s else (s.setHome line { h with st := .X, owner := a, sh := 0 }).agentTakesIn a line .E
    | .S =>
      let s := s.homeRead line cls
      if once then s else (s.setHome line { h with sh := shAdd h.sh a }).agentTakesIn a line .S
    | st =>
      let s := s.l2Out h.owner line
      if once then s
      else ((s.setAline h.owner line { s.aline h.owner line with st := .O }).setHome line
        { h with st := .O, sh := shAdd (if st = .X then 0 else h.sh) a }).agentTakesIn a line .S

/-- The lines that `n` bytes at an address touch. -/
def linesOf (pa n : Nat) : List Nat := (List.range ((pa % 64 + n + 63) / 64)).map (fun i => pa / 64 + i)

/-- R127, R205, R218: a coherent write of an agent. -/
def State.agentWrite (s : State) (a pa : Nat) (bs : List Byte) : State :=
  if bs = [] then s
  else
    let s := (linesOf pa bs.length).foldl (fun s l =>
      (s.agentTakes a l (a != 8 && decide (pa ≤ l * 64 ∧ l * 64 + 64 ≤ pa + bs.length))).unlinkLine l none) s
    s.store pa bs

/-- R128: would a step have taken a line from an L2 that holds it for a link. -/
def State.linkBroken (s s' : State) : Bool :=
  s.thr.any (fun e => match e.2.link with
    | some l => l.window && ((s'.th e.1).link.isNone || (s.writable (e.1 / 128) (l.pa / 64) && !s'.writable (e.1 / 128) (l.pa / 64)))
    | none => false) ||
  s.cores.any (fun k => k.2.sb.any (fun x =>
    x.stc && s.writable (k.1 / 4) (x.pa / 64) && !s'.writable (k.1 / 4) (x.pa / 64)))

/-- R128: what an agent other than a thread asks for waits while it would break a link in its window: nothing happens yet. -/
def State.unlessHeld (s s' : State) : State := if s.linkBroken s' then s else s'

/-- Is every byte of a range in one normal region that a device agent may read (or write). -/
def State.agentMay (s : State) (pa n : Nat) (wr : Bool) : Bool :=
  (List.range n).all (fun i =>
    match s.region (pa + i) with
    | .dram => true
    | .quay => true
    | .flash _ => !wr
    | _ => false)

/-- The bytes of a flash line as its home delivers them (R211): those of the SLC's copy, or of the copy of its owner. -/
def State.homeBytes (s : State) (pa n : Nat) : List Byte :=
  let line := pa / 64
  let h := s.home line
  match (if s.slcOf line = .absent ∧ (h.st = .X ∨ h.st = .O) then s.staleOf h.owner line else s.staleOf 15 line) with
  | [] => s.rdBytes pa n
  | bs => (bs.drop (pa % 64)).take n

/-- The bytes of an agent's read, line by line. -/
def State.agentBytes (s : State) (pa n : Nat) : List Byte :=
  if s.coh.flashOld = [] then s.rdBytes pa n
  else (linesOf pa n).flatMap (fun l =>
    let lo := max pa (l * 64)
    s.homeBytes lo (min (pa + n) (l * 64 + 64) - lo))

/-- A device agent's read: the bytes and the first poisoned address among them (R230). -/
def State.agentRead (s : State) (a cls pa n : Nat) (once : Bool) : (List Byte × Option Nat) × State :=
  let s := if n = 0 then s else (linesOf pa n).foldl (fun s l => s.agentGets a cls l once) s
  ((s.agentBytes pa n, s.firstPoison pa n), s)

end Sys2Proof.Machine
end

