-- ==== Sys2Proof/Machine/Trace.lean ====
section
/-! DEFINITION. Trace (R469 to R477): packets, encoders, comparators, units, the DRAM sink and the trace port. -/

namespace Sys2Proof.Machine

/-- A core's encoder. -/
def State.enc (s : State) (c : Nat) : Enc := Tbl.get (fun _ => ({} : Enc)) s.trc.encs c

/-- Changes the trace state, an encoder. -/
def State.modTrc (s : State) (f : Trace → Trace) : State := { s with trc := f s.trc }
def State.setEnc (s : State) (c : Nat) (x : Enc) : State :=
  s.modTrc (fun t => { t with encs := Tbl.set (fun _ => ({} : Enc)) t.encs c x })

/-- The sink page and the trace page of a core. -/
def sinkPage : Nat := 0x104C002000
def tracePage (c : Nat) : Nat := 0x104C010000 + c * 0x1000

/-- R471: the minimal encoding of a number: 7 bits a byte, least significant group first. -/
def vlq : Nat → Nat → List Byte
  | 0, n => [BitVec.ofNat 8 n]
  | k + 1, n => if n < 128 then [BitVec.ofNat 8 n] else BitVec.ofNat 8 (n % 128 + 128) :: vlq k (n / 128)

/-- The sinks that DBT_TRC_CFG selects: bit 0 DRAM, bit 1 the port. -/
def State.sinks (s : State) : Nat := bits (s.reg sinkPage) 1 0

/-- R473, R476: a packet, or a unit after FULL, is lost. -/
def State.trcLost (s : State) : State :=
  let s := s.setReg (sinkPage + 0x1C) (BitVec.ofNat 32 (satInc 0xFFFFFFFF (s.reg (sinkPage + 0x1C)).toNat))
  s.record (sinkPage + 0x18) (2 ^ 15) (some 1152)

/-- R475: a closed unit of encoder `c`. -/
def unitOf (c : Nat) (data : List Byte) : List Byte :=
  [BitVec.ofNat 8 c, BitVec.ofNat 8 data.length] ++ data ++ List.replicate (14 - data.length) 0

/-- A unit goes to the sinks. -/
def State.sinkUnit (s : State) (u : List Byte) : State :=
  let k := s.sinks
  let s := if k / 2 = 1 then s.modTrc (fun t => { t with port := t.port ++ [u] }) else s
  if k % 2 = 1 then (if s.trc.full then s.trcLost else s.modTrc (fun t => { t with units := t.units ++ [u] })) else s

/-- R475: closes the units of an encoder that hold 14 bytes; `all` closes the last one too. -/
def State.closeUnits (s : State) (c : Nat) (all : Bool) : Nat → State
  | 0 => s
  | n + 1 =>
    let e := s.enc c
    if 14 ≤ e.buf.length ∨ (all ∧ e.buf ≠ []) then
      ((s.setEnc c { e with buf := e.buf.drop 14 }).sinkUnit (unitOf c (e.buf.take 14))).closeUnits c all n
    else s

/-- The bytes an encoder holds that its sinks have not taken (R473). -/
def State.encHeld (s : State) (c : Nat) : Nat :=
  let mine := fun (l : List (List Byte)) => (l.filter (fun u => u.getD 0 0 == BitVec.ofNat 8 c)).length
  (s.enc c).buf.length + 14 * max (mine s.trc.units) (mine s.trc.port)

/-- R473: a packet enters the encoder, or is discarded. -/
def State.encPut (s : State) (c : Nat) (p : List Byte) : State :=
  let e := s.enc c
  if e.lost ≠ 0 ∨ 512 < s.encHeld c + p.length then (s.setEnc c { e with lost := satInc 0xFFFFFFFF e.lost }).trcLost
  else (s.setEnc c { e with buf := e.buf ++ p, last := (s.core c).cycle }).closeUnits c false 40

/-- R472: a TS packet. -/
def State.encTs (s : State) (c : Nat) : State :=
  let s := s.setEnc c { s.enc c with tsNext := false }
  s.encPut c ([(0x02 : Byte)] ++ vlq 10 s.gtb ++ vlq 3 (s.gtbFrac / 65536))

/-- SYNC (R471). -/
def syncBytes : List Byte := List.replicate 8 0 ++ [0x80]

/-- A packet whose CYC stands where `f` puts it; TS comes first where R472 asks for one. -/
def State.encCyc (s : State) (c : Nat) (f : List Byte → List Byte) : State :=
  let far := decide (2 ^ 21 - 1 < (s.core c).cycle - (s.enc c).last)
  let s := if far || (s.enc c).tsNext then s.encTs c else s
  s.encPut c (f (vlq 5 ((s.core c).cycle - (s.enc c).last)))

/-- The atoms a thread holds, packed oldest in bit 0. -/
def atomBytes (l : List Bool) : List Byte :=
  leBytes ((l.length + 7) / 8) (l.foldr (fun b a => b2n b + 2 * a) 0)

/-- R469: emits a thread's atoms. -/
def State.flowOut (s : State) (t : Nat) : State :=
  let c := coreOf t
  let l := Tbl.get (fun _ => ([] : List Bool)) (s.enc c).atoms t
  if l = [] then s
  else
    let s := s.setEnc c { s.enc c with atoms := Tbl.set (fun _ => ([] : List Bool)) (s.enc c).atoms t [] }
    s.encCyc c (fun cyc => [BitVec.ofNat 8 (4 + (l.length - 1) * 16), BitVec.ofNat 8 (t % 32)] ++ cyc ++ atomBytes l)

/-- R469: emits the atoms of every thread of a core. -/
def State.flowAll (s : State) (c : Nat) : State := ((s.enc c).atoms.map Prod.fst).foldl State.flowOut s

/-- A packet of a thread that is no FLOW: its atoms come first. -/
def State.encThread (s : State) (t : Nat) (f : List Byte → List Byte) : State := (s.flowOut t).encCyc (coreOf t) f

/-- ADDR (R471). -/
def State.encAddr (s : State) (t : Nat) (a : Word) : State :=
  s.encThread t (fun cyc => [(5 : Byte), BitVec.ofNat 8 (t % 32)] ++ cyc ++ vlq 5 (a.toNat / 4))

/-- EXC then ADDR (R469): an entry. -/
def State.encExc (s : State) (t cls level : Nat) (esc : Bool) (xra vec : Word) : State :=
  (s.encThread t (fun cyc => [(6 : Byte), BitVec.ofNat 8 (t % 32)] ++ cyc ++
    [BitVec.ofNat 8 (cls + b2n esc * 64 + b2n (level == 2) * 128)] ++ vlq 5 (xra.toNat / 4))).encAddr t vec

/-- NOTE (R471). -/
def State.encNote (s : State) (t tag : Nat) (d : Word) : State :=
  s.encThread t (fun cyc => [(7 : Byte), BitVec.ofNat 8 (t % 32), BitVec.ofNat 8 tag] ++ cyc ++ vlq 6 d.toNat)

/-- R469: an atom of a thread; 16 make a FLOW packet. -/
def State.encAtom (s : State) (t : Nat) (b : Bool) : State :=
  let c := coreOf t
  let l := Tbl.get (fun _ => ([] : List Bool)) (s.enc c).atoms t ++ [b]
  let s := s.setEnc c { s.enc c with atoms := Tbl.set (fun _ => ([] : List Bool)) (s.enc c).atoms t l }
  if 16 ≤ l.length then s.flowOut t else s

/-- R469: is a thread's activity recorded under a status word. -/
def State.traced (s : State) (t : Nat) (st : Word) : Bool := stTrc st && (s.enc (coreOf t)).armed && (s.enc (coreOf t)).recording

/-- R470: does a comparator of CTL word `ctl` take a thread. -/
def cmpThread (ctl : W32) (t : Nat) : Bool := !bit ctl 8 || bits ctl 20 16 == t % 32

/-- R470: the actions of the comparators and range pairs that match a bundle. -/
def State.cmpActions (s : State) (t : Nat) (addr : Word) : List Nat :=
  let pg := tracePage (coreOf t)
  let a := addr.toNat / 4
  let at_ := fun (o : Nat) => (s.reg (pg + o)).toNat / 4 + bits (s.reg (pg + o + 4)) 3 0 * 2 ^ 30
  ((List.range 8).filter (fun k => at_ (0x40 + 16 * k) == a && cmpThread (s.reg (pg + 0x48 + 16 * k)) t)).map
      (fun k => bits (s.reg (pg + 0x48 + 16 * k)) 1 0) ++
  ((List.range 4).filter (fun j => decide (at_ (0x100 + 32 * j) ≤ a) && decide (a ≤ at_ (0x108 + 32 * j)) &&
      cmpThread (s.reg (pg + 0x110 + 32 * j)) t)).map (fun j => bits (s.reg (pg + 0x110 + 32 * j)) 1 0)

/-- R470, R472: recording starts, or stops. -/
def State.recStart (s : State) (c : Nat) : State :=
  let e := s.enc c
  if e.recording then s
  else ((s.setEnc c { e with recording := true, began := [] }).encCyc c (fun cyc => [(0x0E : Byte)] ++ cyc)).encTs c
def State.recStop (s : State) (c : Nat) : State :=
  if (s.enc c).recording then
    let s := (s.flowAll c).encCyc c (fun cyc => [(0x0D : Byte)] ++ cyc)
    (s.setEnc c { s.enc c with recording := false }).closeUnits c true 40
  else s

/-- R460: a freeze is requested. -/
def State.freezeAsk (s : State) : State :=
  if s.frzReq || s.frozen then s else ({ s with frzReq := true }).wake true 10 0

/-- R469, R470: an executed bundle of a thread, whose status at issue was `st`, with what it gave. -/
def State.traceBundle (s : State) (t : Nat) (st addr : Word) (ev : List TEv) : State :=
  let c := coreOf t
  if !(s.enc c).armed then s
  else
    let acts := s.cmpActions t addr
    let s := if acts.contains 1 then s.recStart c else s
    let s :=
      if s.traced t st then
        let s := if Tbl.get (fun _ => false) (s.enc c).began t then s
          else (s.setEnc c { s.enc c with began := Tbl.set (fun _ => false) (s.enc c).began t true }).encAddr t addr
        ev.foldl (fun s e => match e with
          | .atom b => s.encAtom t b
          | .addr a => s.encAddr t a) s
      else s
    let s := if acts.contains 2 then s.recStop c else s
    if acts.contains 3 && decide (1 ≤ s.dbgLevel) then s.freezeAsk else s

/-- R309, R472: arms or disarms an encoder. -/
def State.encArm (s : State) (c : Nat) (on : Bool) : State :=
  let pg := tracePage c
  let start := (List.range 8).any (fun k => bits (s.reg (pg + 0x48 + 16 * k)) 1 0 == 1) ||
    (List.range 4).any (fun j => bits (s.reg (pg + 0x110 + 32 * j)) 1 0 == 1)
  if on then
    if (s.enc c).armed then s
    else ((s.setEnc c { armed := true, recording := !start, last := (s.core c).cycle }).encPut c syncBytes).encTs c
  else if (s.enc c).armed then
    let s := (s.flowAll c).closeUnits c true 40
    s.setEnc c {}
  else s

/-- The armed encoders. -/
def State.armed (s : State) : List Nat := (s.trc.encs.filter (fun e => e.2.armed)).map Prod.fst

/-- R474: entry to S1, S2 (SLEEP) or a freeze (HALT): every armed encoder notes it and flushes. -/
def State.encPause (s : State) (hdr : Byte) : State :=
  s.armed.foldl (fun s c => ((s.flowAll c).encPut c ([hdr] ++ vlq 10 s.gtb ++ vlq 3 (s.gtbFrac / 65536))).closeUnits c true 40) s

/-- R474: the return (WAKE or RUN), then TS, then SYNC. -/
def State.encResume (s : State) (hdr : Byte) : State :=
  s.armed.foldl (fun s c =>
    let s := ((s.encPut c [hdr]).encTs c).encPut c syncBytes
    s.setEnc c { s.enc c with began := [] }) s

/-! ## Commands -/

/-- R469. -/
def execFlowAtomTimeout (t : Gtn) (s : State) : Out := ok (s.flowOut t.val)

/-- R472. -/
def execTsInterval (core : CoreId) (s : State) : Out := whenOk (s.enc core.val).armed s (s.encTs core.val)

/-- R473. -/
def execTraceOverflowRecover (core : CoreId) (s : State) : Out :=
  let e := s.enc core.val
  whenOk (decide (e.lost ≠ 0) && decide (s.encHeld core.val ≤ 384)) s
    (((s.setEnc core.val { e with lost := 0, began := [] }).encPut core.val ([(8 : Byte)] ++ vlq 5 e.lost)).encTs core.val)

/-- R475. -/
def execTraceUnitTimeout (core : CoreId) (s : State) : Out := ok (s.closeUnits core.val true 40)

/-- R475: takes units round-robin among encoders. -/
def takeUnits : Nat → Nat → List (List Byte) → List (List Byte) × Nat × List (List Byte)
  | 0, rr, us => ([], rr, us)
  | n + 1, rr, us =>
    match ((List.range 32).map (fun i => (rr + i) % 32)).findSome? (fun c => us.find? (fun u => u.getD 0 0 == BitVec.ofNat 8 c)) with
    | none => ([], rr, us)
    | some u =>
      let r := takeUnits n ((u.getD 0 0).toNat + 1) (us.erase u)
      (u :: r.1, r.2)

/-- R476: the DRAM sink writes a line. -/
def State.sinkLine (s : State) : State :=
  let size := bits (s.reg (sinkPage + 0xC)) 16 0 * 0x1000
  let base := (s.reg (sinkPage + 4)).toNat + (s.reg (sinkPage + 8)).toNat * 2 ^ 32
  let w := (s.reg (sinkPage + 0x10)).toNat
  if s.sinks % 2 = 0 ∨ s.trc.full ∨ s.trc.units = [] ∨ size = 0 ∨ !s.agentMay (base + w) 64 true then s
  else
    let (us, rr, rest) := takeUnits 4 s.trc.rr s.trc.units
    let line := us.flatten ++ (List.replicate (4 - us.length) ([(0x3F : Byte)] ++ List.replicate 15 0)).flatten
    let s := (s.modTrc (fun t => { t with units := rest, rr := rr })).agentWrite 10 (base + w) line
    let w' := w + 64
    let thr := bits (s.reg (sinkPage + 0x14)) 16 0 * 0x1000
    let s := if thr ≠ 0 ∧ w < thr ∧ thr ≤ w' then s.record (sinkPage + 0x18) (2 ^ 18) (some 1152) else s
    if w' < size then s.setReg (sinkPage + 0x10) (BitVec.ofNat 32 w')
    else if bit (s.reg sinkPage) 2 then (s.setReg (sinkPage + 0x10) 0).record (sinkPage + 0x18) (2 ^ 16) (some 1152)
    else ((s.modTrc (fun t => { t with full := true })).setReg (sinkPage + 0x10) (BitVec.ofNat 32 w')).record (sinkPage + 0x18) (2 ^ 17) (some 1152)

/-- R476. -/
def execTraceSinkLineWrite (s : State) : Out := ok (s.unlessHeld s.sinkLine)

/-- R477: an ALIGN block on every lane; the rounds before it have carried the units that waited. -/
def execAlign (s : State) : Out :=
  let cfg := s.reg (sinkPage + 0x20)
  let n := s.trc.rounds + 1024
  whenOk (bit cfg 31) s
    (s.modTrc (fun t => { t with
        rounds := n, port := [],
        lanes := (List.range (2 ^ bits cfg 1 0)).map (fun l => [(0x78 : Byte), BitVec.ofNat 8 l] ++ leBytes 3 n ++ [0, 0, 0]) }))

end Sys2Proof.Machine
end

