-- ==== Sys2Proof/Machine/Counters.lean ====
section
/-! DEFINITION. Event counters, snapshots, samples and histograms (chapter 22). -/

namespace Sys2Proof.Machine

/-! ## Units (R479, R480) -/

/-- Changes the counters. -/
def State.modPerf (s : State) (f : Perf → Perf) : State := { s with perf := f s.perf }

/-- R479: is a counter unit absent. -/
def State.cntAbsent (s : State) (u : Nat) : Bool :=
  if u < 32 then s.clusterFused (u / 4) || s.checker u
  else if u < 40 then s.clusterFused (u - 32)
  else if 56 ≤ u ∧ u < 64 then s.channelFused (u - 56)
  else false

/-- The power domain of a unit's clock (R395, R479). -/
def cntDomain (u : Nat) : Nat :=
  if u < 32 then 2 + u / 4 else if u < 40 then 2 + (u - 32) else if u < 56 then 10 else if u < 64 then 11
  else [10, 10, 20, 14, 16, 17, 19, 19, 18, 1, 0].getD (u - 64) 0

/-- R482: the KIND of a unit. -/
def cntKind (u : Nat) : Nat := if u < 32 then 1 else if u < 40 then 2 else if u < 56 then 3 else if u < 64 then 4 else 5

/-- R482: the code a counter of a unit stores for a code written. -/
def cntCodeStored (u code : Nat) : Nat :=
  let listed := match cntKind u with
    | 1 => (decide (1 ≤ code) && decide (code ≤ 7)) || (decide (0x10 ≤ code) && decide (code ≤ 0x1C))
    | 2 => decide (0x101 ≤ code) && decide (code ≤ 0x107)
    | 3 => decide (0x201 ≤ code) && decide (code ≤ 0x204)
    | 4 => decide (0x301 ≤ code) && decide (code ≤ 0x304)
    | _ => decide (0x401 ≤ code) && decide (code ≤ 0x404)
  if listed then code else 0

/-- R480, R488: may a request reach the pages of a unit. -/
def State.cntServes (s : State) (rq : Req) (u : Nat) : Bool :=
  s.guardOk rq || (match s.cntOwner u with
    | some b => rq.berth.val == b
    | none => false)

/-- R480: an access to a page of a unit: an absent one takes no write, another requester is refused. -/
def State.cntAccess (s : State) (rq : Req) (pa u : Nat) (w : Option W32) (f : State → State) : State :=
  s.access rq pa false w (fun s =>
    if s.cntAbsent u then s else if s.cntServes rq u then f s else s.guardRefuse rq pa w.isSome)

/-- The value of a counter (R481). -/
def State.cntVal (s : State) (u i : Nat) : Nat := Tbl.get (fun _ => (0 : Nat)) s.perf.val (16 * u + i)

/-- R480: zeroes every counter of a unit. -/
def State.cntZero (s : State) (u : Nat) : State :=
  s.modPerf (fun p => { p with val := p.val.filter (fun e => e.1 / 16 != u) })

/-- R481: the counters of a unit lose everything, at a reset or power-off of its domain. -/
def State.cntLose (s : State) (u : Nat) : State :=
  s.modPerf (fun p =>
    { p with
        val := p.val.filter (fun e => e.1 / 16 != u), w := p.w.filter (fun e => e.1 / 16 != u) })

/-- CNT_ID (R480). -/
def State.cntId (s : State) (u : Nat) : W32 :=
  if s.cntAbsent u then 0
  else BitVec.ofNat 32 (cntKind u * 2 ^ 24 + cntCount u * 2 ^ 16 + u * 2 ^ 8 + (s.cntOwner u).getD 0)

/-- R480: a write to CNT_CTL. -/
def State.cntCtl (s : State) (u : Nat) (w : W32) : State :=
  let v := w &&& (if u < 32 then 0x3F000001 else 1)
  let s := s.setReg (cntPage u + 4) v
  if bit w 1 then s.cntZero u else s

/-- R480, R482: a write to CNT_SELi. -/
def State.cntSel (s : State) (u i : Nat) (w : W32) : State :=
  if i < cntCount u then s.setReg (cntPage u + 0x40 + 4 * i) (BitVec.ofNat 32 (cntCodeStored u (bits w 11 0))) else s

/-- R480: a read of CNT_LOi; a normal one captures the high bits. -/
def State.cntLoRead (s : State) (rq : Req) (u i : Nat) : State :=
  if rq.peek || !decide (i < cntCount u) then s
  else s.setReg (cntPage u + 0x84 + 8 * i) (BitVec.ofNat 32 (s.cntVal u i / 2 ^ 32))

/-! ## Snapshots (R484 to R487) -/

/-- R486: the capture window of a unit's clock in ns, rounded up; 0x80 + h for a histogram. -/
def State.captureWindow (s : State) (u : Nat) : Nat :=
  if u < 32 then [1, 1, 2, 2, 3, 5, 10, 20].getD (s.levelNow (u / 4)) 20
  else if 56 ≤ u ∧ u < 64 then (if s.dram.rate = 0 then 2 else ceilDiv 16000 s.dram.rate)
  else if u = 67 ∨ u = 73 then 3 else if u = 68 ∨ u = 74 then 20
  else if 69 ≤ u ∧ u ≤ 72 then 4 else 2

/-- R485: does the clock of a unit stand still: in a gated domain, where an L2 goes on (R395); in a freeze, which stops the cores and PD13 to
PD19 (R460). -/
def State.clockStopped (s : State) (u : Nat) : Bool :=
  let asleep := match s.pwr.sleep with
    | .asleep k => k == 1 || k == 2
    | _ => false
  let d := cntDomain u
  s.domain d == .gated && !(decide (32 ≤ u) && decide (u < 40)) || (decide (u < 32) && (s.frozen || asleep)) ||
  (s.frozen && decide (13 ≤ d) && decide (d ≤ 19))

/-- R487: the status of a unit's entry. -/
def State.cntStatus (s : State) (u : Nat) : Nat :=
  if s.cntAbsent u then 3
  else if s.domain (cntDomain u) = .off ∨ s.domain (cntDomain u) = .retained then 2
  else if s.clockStopped u then 1 else 0

/-- R485: one unit captures; the delay is an open value within the unit's window (log 5). -/
def State.captureUnit (s : State) (u : Nat) : State :=
  let st := s.cntStatus u
  let (d, s) := s.fresh 16
  let delay := if st < 2 then d.toNat % (s.captureWindow u + 1) else 0
  s.modPerf (fun p => { p with
      status := Tbl.set (fun _ => (0 : Nat)) p.status u (st + 4 * delay),
      lastCap := max p.lastCap (p.at_ + delay) })

/-- R485: every unit copies its counters and bins. -/
def State.capture (s : State) : State :=
  let s := s.modPerf (fun p => { p with
      shadow := p.val, wShadow := p.w, w := [], lastCap := p.at_, armed := false, gather := true, status := [],
      hist := [] })
  let s := (List.range 8).foldl (fun s h =>
    (List.range 32).foldl (fun s i =>
      let v := (s.reg (0x104B002080 + h * 0x1000 + 4 * i)).toNat
      s.modPerf (fun p => { p with hist := Tbl.set (fun _ => (0 : Nat)) p.hist (32 * h + i) v })) s) s
  ((List.range 75) ++ (List.range 8).map (fun h => 0x80 + h)).foldl (fun s u => s.captureUnit u) s

/-- The status and the delay of an entry at the capture. -/
def State.capStatus (s : State) (u : Nat) : Nat × Nat :=
  let v := Tbl.get (fun _ => (0 : Nat)) s.perf.status u
  (v % 4, v / 4)

/-- R487: the entry of a unit, or of histogram unit u - 0x80. -/
def State.tableEntry (s : State) (u : Nat) : List Byte :=
  let st := s.capStatus u
  let n := if 0x80 ≤ u then 32 else cntCount u
  let live := decide (st.1 < 2)
  let vals := (List.range n).flatMap (fun i =>
    if 0x80 ≤ u then leBytes 4 (Tbl.get (fun _ => (0 : Nat)) s.perf.hist (32 * (u - 0x80) + i))
    else
      let k := 16 * u + i
      leBytes 8 (if live then
        Tbl.get (fun _ => (0 : Nat)) s.perf.shadow k + b2n (Tbl.get (fun _ => false) s.perf.wShadow k) * 2 ^ 63 else 0))
  [BitVec.ofNat 8 u, BitVec.ofNat 8 n, BitVec.ofNat 8 st.1, BitVec.ofNat 8 (if 0x80 ≤ u then 0 else (s.cntOwner u).getD 0)] ++
    leBytes 2 st.2 ++ [0, 0] ++ vals

/-- The sequence number of the next table (R484). -/
def State.nextSeq (s : State) : Nat := (s.perf.seq + 1) % 4096

/-- R487: the collection table. -/
def State.rowTable (s : State) : List Byte :=
  let us := (List.range 75) ++ (List.range 8).map (fun h => 0x80 + h)
  let odd := (us.filter (fun u => (s.capStatus u).1 != 0)).length
  leBytes 4 0x524F5731 ++ leBytes 4 (s.nextSeq + 83 * 2 ^ 16) ++ leBytes 8 s.perf.at_ ++ leBytes 8 s.perf.lastCap ++
    leBytes 4 odd ++ List.replicate 36 0 ++ us.flatMap s.tableEntry ++ List.replicate 40 0

/-- The address of the table (R491). -/
def State.rowTbl (s : State) : Nat := bits (s.reg 0x104B001008) 7 0 * 2 ^ 32 + bits (s.reg 0x104B001004) 31 12 * 4096

/-- R485: the instant has come. -/
def execSnapshotCapture (s : State) : Out := whenOk (s.perf.armed && decide (s.perf.at_ ≤ s.gtb)) s s.capture

/-- R486: writes the lines of the table; a line that gets an error response stays unwritten. -/
def State.writeLines (s : State) (pa : Nat) (bs : List Byte) : State × Bool :=
  (List.range ((bs.length + 63) / 64)).foldl (fun (r : State × Bool) i =>
    if r.1.agentMay (pa + 64 * i) 64 true && !r.1.agentDead 10 then
      (r.1.agentWrite 10 (pa + 64 * i) ((bs.drop (64 * i)).take 64), r.2)
    else (r.1, true)) (s, false)

/-- R486: the table is in memory. -/
def State.tableWritten (s : State) : State :=
  if s.perf.gather then
    let (s, bad) := s.writeLines s.rowTbl s.rowTable
    let n := s.nextSeq
    let s := s.modPerf (fun p => { p with gather := false, seq := n })
    let s := s.record 0x104B001018 (2 ^ 18 + b2n bad * 2 ^ 17) (some 1136)
    match s.accepted (fun a => a.opcode == 0x0B01) with
    | some a => s.workEnds a (r0 stOk (b2n bad)) [BitVec.ofNat 32 n]
    | none => s
  else s

/-- R486, R128. -/
def execSnapshotTableDone (s : State) : Out := ok (s.unlessHeld s.tableWritten)

/-- Is every page of a range mapped with W into no berth (R302, R309, R484). -/
def State.unmappedW (s : State) (pa n : Nat) : Bool :=
  s.hm.berths.all (fun e => e.2.maps.all (fun m =>
    m.dev || !bit (BitVec.ofNat 8 m.flags) 1 || !decide (m.pa < pa / 4096 + n ∧ pa / 4096 < m.pa + m.n)))

/-- R484: SNAP. -/
def execSnap (m : Fin 69) (s : State) : Out :=
  ok (s.harbour m.val 0x0B01 (fun s q =>
    if s.hm.acc.any (fun a => a.opcode == 0x0B01) ∨ s.hm.ended.any (fun e => e.acc.opcode == 0x0B01) then .fail stBusy 1
    else if bit (s.reg 0x104B001004) 0 = false then .fail stDenied 9
    else if !s.agentMay s.rowTbl 8192 true || !s.unmappedW s.rowTbl 2 then .fail stDenied 5
    else
      let want := (q.q 0).toNat + (q.q 1).toNat * 2 ^ 32
      let t := if want < s.gtb then s.gtb + 10000 else want
      .accept ((s.modPerf (fun p => { p with at_ := t, armed := true })).setRegs
        [(0x104B00100C, BitVec.ofNat 32 t), (0x104B001010, BitVec.ofNat 32 (t / 2 ^ 32))]) []))

/-! ## Samples (R488, R489) -/

/-- The sample page of a core. -/
def smpPage (u : Nat) : Nat := 0x104B200000 + u * 0x1000

/-- A core's sample buffer. -/
def State.smp (s : State) (u : Nat) : Smp := Tbl.get (fun _ => ({} : Smp)) s.perf.smp u

/-- Replaces a sample buffer. -/
def State.setSmp (s : State) (u : Nat) (x : Smp) : State :=
  s.modPerf (fun p => { p with smp := Tbl.set (fun _ => ({} : Smp)) p.smp u x })

/-- SMP_STAT. -/
def State.smpStat (s : State) (u : Nat) : W32 :=
  let x := s.smp u
  BitVec.ofNat 32 (x.put + x.get * 2 ^ 8 + x.held * 2 ^ 16)

/-- R489: the value the down-counter reloads with; the LFSR's addition is open (log 5). -/
def State.smpReload (s : State) (u : Nat) : Nat × State :=
  let c := s.reg (smpPage u)
  let p := max 1 (bits c 15 0)
  if bit c 16 then
    let (j, s) := s.fresh 8
    (p + j.toNat, s)
  else (p, s)

/-- R489: an issue of a thread of the core: is it the sampled one. -/
def State.smpIssue (s : State) (t : Nat) : Bool × State :=
  let u := coreOf t
  let c := s.reg (smpPage u)
  let mine := (!bit c 29 || bits c 28 24 == t % 32) && (match s.cntOwner u with
    | some b => b == (s.th t).berth
    | none => true)
  if bit c 31 && mine && !s.cntAbsent u then
    let x := s.smp u
    if x.down ≤ 1 then
      let (n, s) := s.smpReload u
      (true, s.setSmp u { x with down := n })
    else (false, s.setSmp u { x with down := x.down - 1 })
  else (false, s)

/-- R489: the record of a sampled issue, at its ready time. -/
def State.smpRecord (s : State) (u : Nat) (ws : List W32) : State :=
  let x := s.smp u
  let pg := smpPage u
  if x.held < 64 then
    let s := (List.range 4).foldl (fun s i => s.setReg (pg + 0x400 + 16 * x.put + 4 * i) (ws.getD i 0)) s
    s.setSmp u { x with put := (x.put + 1) % 64, held := x.held + 1 }
  else s.setReg (pg + 0xC) (BitVec.ofNat 32 (satInc 0xFFFFFFFF (s.reg (pg + 0xC)).toNat))

/-- R489: frees the records up to a new GET. -/
def State.smpAck (s : State) (u : Nat) (w : W32) : State :=
  let x := s.smp u
  let n := (bits w 5 0 + 64 - x.get) % 64
  if n ≤ x.held then s.setSmp u { x with get := bits w 5 0, held := x.held - n } else s

/-- R488: a write to SMP_CFG; a write of EN clears SMP_LOST. -/
def State.smpCfg (s : State) (u : Nat) (w : W32) : State :=
  let s := s.setReg (smpPage u) (w &&& 0xBF01FFFF)
  if bit w 31 then
    let (n, s) := (s.setReg (smpPage u + 0xC) 0).smpReload u
    s.setSmp u { s.smp u with down := n }
  else s

/-! ## Histograms (R490, R491) -/

/-- The page of a histogram unit. -/
def histPage (h : Nat) : Nat := 0x104B002000 + h * 0x1000

/-- R490: CLR. -/
def State.histClr (s : State) (h : Nat) : State :=
  ((List.range 32).foldl (fun s i => s.setReg (histPage h + 0x80 + 4 * i) 0) s).setReg (histPage h + 0x10) 0

/-- R490: a write to HIST_CFG: an SRC that is not listed is ignored as a whole. -/
def State.histCfg (s : State) (h : Nat) (w : W32) : State :=
  if 1 ≤ bits w 27 24 ∧ bits w 27 24 ≤ 7 then s.setReg (histPage h) (w &&& 0xCFF003FF) else s

/-! ## Commands -/

/-- R480. -/
def execCntClr (rq : Req) (u : Fin 75) (s : State) : Out :=
  ok (s.cntAccess rq (cntPage u.val + 4) u.val (some (s.reg (cntPage u.val + 4) ||| 2)) (fun s => s.cntZero u.val))

/-- R489. -/
def execSmpAck (rq : Req) (u : Fin 32) (w : W32) (s : State) : Out :=
  ok (s.cntAccess rq (smpPage u.val + 8) u.val (some w) (fun s => s.smpAck u.val w))

/-- R488. -/
def execSmpCfgWrite (rq : Req) (u : Fin 32) (w : W32) (s : State) : Out :=
  ok (s.cntAccess rq (smpPage u.val) u.val (some w) (fun s => s.smpCfg u.val w))

/-- R490. -/
def execHistClr (rq : Req) (h : Fin 8) (s : State) : Out := ok (s.gWrite rq (histPage h.val + 0x14) 1 (fun s => s.histClr h.val))

/-- R481: one more occurrence in a counter that holds 2^48 - 1. -/
def execCounterWrap (u : Fin 75) (i : Fin 16) (s : State) : Out :=
  whenOk (decide (i.val < cntCount u.val) && s.cntVal u.val i.val == 2 ^ 48 - 1 && !s.cntAbsent u.val) s
    (s.cntAdd u.val i.val 1)

end Sys2Proof.Machine
end

