-- ==== Sys2Proof/Machine/Reset.lean ====
section
/-! DEFINITION. Device-wide resets (R417 to R420, R437): what each leaves, the reset record, and where start-up begins. -/

namespace Sys2Proof.Machine

/-! ## Memories -/

/-- R437: what becomes of a memory cell: DRAM that the ZV940 does not write holds an open value (log 5); quay SRAM is zeroed;
flash stays. -/
def State.cellLost (dram quay : Bool) (s : State) (c : Host.Cell) : State :=
  if c.1 < 0x1000000000 then
    (if dram then s
     else
      let (v, s) := s.fresh 8
      s.wrByte c.1 v)
  else if c.1 < 0x1001000000 ∧ 0x1000000000 ≤ c.1 ∧ !quay then s.wrByte c.1 0
  else s

/-- R437: the memories after a reset that keeps DRAM, or quay SRAM, or neither. -/
def State.loseMem (s : State) (dram quay : Bool) : State :=
  let s := s.mem.foldl (State.cellLost dram quay) s
  { s with poison := s.poison.filter (fun e => if e.1 * 8 < 0x1000000000 then dram else quay) }

/-- R198, R437: every entry of a store buffer is written. -/
def State.sbWritten (s : State) (l : List SbEntry) : State :=
  l.foldl (fun s e =>
    match e.op with
    | .store => s.store e.pa e.data
    | .zero => s.store (e.pa / 64 * 64) (List.replicate 64 0)
    | _ => s) s

/-- R437 (code W): every store buffer is written to memory. -/
def State.sbAllWritten (s : State) : State := s.cores.foldl (fun s c => s.sbWritten c.2.sb) s

/-! ## What a reset keeps (R437) -/

/-- What survives a reset: DRAM; quay SRAM; the error log with the totals and the berth and mailbox counters; the debug session with
the configuration of PD21; the device watchdog's credential failures and the pairs out of service (R63, R306). -/
structure Keep where
  dram : Bool := false
  quay : Bool := false
  errs : Bool := false
  dbg : Bool := false
  fails : Bool := false
deriving DecidableEq, Repr

/-- Is a register kept: the wake page and PCR_RST_REC, and the debug and trace frame where the session is kept. -/
def keptReg (k : Keep) (pa : Nat) : Bool :=
  pa == 0x104A004000 || (decide (0x104A003000 ≤ pa) && decide (pa < 0x104A004000)) ||
  (k.dbg && decide (0x104C000000 ≤ pa) && decide (pa < 0x104D000000))

/-- Is a saturating counter one that a WARM reset and S3 keep: totals, mailbox and berth counters. -/
def keptCounter (key : Nat) : Bool :=
  key / 32 == 0x40 || (decide (0x43 ≤ key / 32) && decide (key / 32 ≤ 0x47)) || decide (0x100 ≤ key / 32)

/-- R417, R437: the state after a reset, before start-up: reset values but for what is kept. DRAM that is kept is in self-refresh until
it is trained (R419). -/
def State.afterReset (s : State) (k : Keep) : State :=
  let s := s.loseMem k.dram k.quay
  let z : State := {}
  { z with
      time := s.time, gtb := s.gtb, gtbFrac := s.gtbFrac, free := s.free, mem := s.mem, poison := s.poison,
      regs := s.regs.filter (fun e => keptReg k e.1),
      errCnt := if k.errs then s.errCnt.filter (fun e => keptCounter e.1) else [],
      log := if k.errs then s.log else [], logSeq := if k.errs then s.logSeq else 0,
      dram := if k.dram then
          { z.dram with sr := true, flips := s.dram.flips.filter (fun e => decide (e.1 < 2 ^ 40) && (k.quay || !s.quayLine (e.1 / 8))) }
        else z.dram,
      flashCap := s.flashCap, order := s.order, checkers := s.checkers, tgp := { z.tgp with inp := s.tgp.inp },
      sec := { z.sec with
        otp := s.sec.otp, burnt := s.sec.burnt, lc := s.sec.lcNext, lcNext := s.sec.lcNext, otpNow := s.sec.otp,
        dbgSeen := k.dbg && s.sec.dbgSeen },
      dbgLevel := if k.dbg then s.dbgLevel else 0,
      dbg := if k.dbg then { s.dbg with step := none, stepped := false, scan := false, scanExit := false }
        else if k.fails then { z.dbg with fails := s.dbg.fails } else z.dbg,
      trc := if k.dbg then s.trc else { z.trc with saved := s.trc.saved },
      hm := { z.hm with
        outPair := if k.fails then s.hm.outPair else [], bootAt := s.time },
      pwr := { z.pwr with rail := s.pwr.rail },
      pending := s.pending }

/-- R434: a thread of the device becomes HELD. -/
def Thread.held (x : Thread) : Thread :=
  { x with state := .held, memo := if x.state = .wait then .wait else .run, holdSent := false, holdReq := false }

/-- R434: the device enters the Held state with a code; host mailboxes 0 and 3 are served (R436). -/
def State.enterHeld (s : State) (code : Nat) : State :=
  let s := s.threads.foldl (fun s t => (s.unqueue t).modTh t Thread.held) s
  let s := s.modBerth 0 (fun b => { b with wdEn := false })
  (s.modHm (fun h => { h with held := true, heldCode := code, island := false, ready := true })).logErr 0x10 3 none 0 0 code 0

/-! ## The tests of the checkers (R337) -/

/-- The first failing case of a checker's test: 0 where it passes, else 1 + data word × 256 + case. A checker is (kind, unit): 0 quay
SRAM bank, 1 L2, 2 SLC slice, 3 DRAM channel, 4 store buffer, 5 pattern store (R304). -/
def State.checkerCase (s : State) (c : Nat × Nat) : Nat := Tbl.get (fun _ => (0 : Nat)) s.checkers (c.1 * 256 + c.2)

/-- Does a checker of a list fail. -/
def State.testFails (s : State) (l : List (Nat × Nat)) : Bool := l.any (fun c => s.checkerCase c != 0)

/-- R337: the checkers of a list are tested: one that fails keeps its memory disabled, and its first failing case is logged (R304). -/
def State.checkersTested (s : State) (l : List (Nat × Nat)) : State :=
  l.foldl (fun s c =>
    let k := s.checkerCase c
    let s := { s with memOff := Tbl.set (fun _ => false) s.memOff (c.1 * 256 + c.2) (k != 0) }
    if k = 0 then s
    else s.logErr 0x10 0x04 none 0 0 (c.1 + c.2 % 256 * 16 + (k - 1) / 256 % 4 * 2 ^ 12) ((k - 1) % 256)) s

/-- R422 step 2: the checkers tested before the island starts: quay SRAM and CL0. -/
def earlyCheckers : List (Nat × Nat) :=
  (List.range 8).map (fun b => (0, b)) ++ ((1, 0) :: (List.range 4).flatMap (fun k => [(4, k), (5, k)]))

/-! ## The reset record (R420) -/

/-- R420: writes KIND, CAUSE and RAIL of the reset record; THERM, AONLOST and EWD stay. -/
def rstRec (v : W32) (kind cause rail : Nat) : W32 := putBits (putBits (putBits v 28 4 kind) 24 4 cause) 10 4 rail

/-- R422, R337: start-up begins: a checker of step 2 that fails holds the device. -/
def State.startUp (s : State) (warm : Bool) : State :=
  let s := startDomains.foldl (fun s d => s.setDom d .on) s
  let s := (s.modHm (fun h => { h with boot := 1, warm := warm, bootAt := s.time })).checkersTested earlyCheckers
  if s.testFails earlyCheckers then s.enterHeld 0x0182 else s

/-- R417, R419: a reset of kind 0 POR, 1 BOR, 2 PIN, 3 SYS, 4 WARM or 5 DBG; `aon` where VDD_AON was lost. SYS, WARM and DBG start up
at once. -/
def State.deviceReset (s : State) (kind cause rail : Nat) (aon : Bool) : State :=
  let early := decide (kind = 4) && !s.hm.full
  let kind := if early then 3 else kind
  let cause := if early then 3 else cause
  let s := if kind = 4 then s.sbAllWritten.flushAll else s
  let was := s.reg 0x104A004000
  let s := s.afterReset { dram := kind == 4, quay := kind == 4, errs := kind == 4, dbg := kind == 5, fails := kind == 4 || kind == 5 }
  let s := if aon then { s with
      gtb := 0, gtbFrac := 0, trc := { s.trc with saved := none },
      regs := s.regs.filter (fun e => !(decide (0x104A003000 ≤ e.1) && decide (e.1 < 0x104A005000))) } else s
  let s := s.setReg 0x104A004000 (rstRec (if aon then 0x00400000 else was) kind cause rail)
  if kind < 3 then s else s.startUp (kind == 4)

/-- R417: SYS with a cause. -/
def State.sysReset (s : State) (cause : Nat) : State := s.deviceReset 3 cause 0 false

/-- R275: the harbourmaster cores disagree. -/
def execHarbourmasterMismatch (s : State) : Out := ok (s.sysReset 1)

/-- R417, R420, R499: PWR_GOOD falls (0), VDD_AON is lost (1), or another rail's monitor (2). -/
def execPor (cause : Fin 3) (rail : Fin 16) (s : State) : Out :=
  ok (s.deviceReset 0 cause.val (if cause.val = 2 then rail.val else 0) (cause.val == 1))

/-- R413: VDD_CORE (0) or VDD_SOC (1) stays below its reset threshold. -/
def execBor (soc : Bool) (s : State) : Out := ok (s.deviceReset 1 (b2n soc) 0 false)

/-- R499: another monitored rail. -/
def execRailMonitorTrip (rail : Fin 16) (s : State) : Out := ok (s.deviceReset 0 2 rail.val false)

/-- R417. -/
def execPinReset (s : State) : Out := ok (s.deviceReset 2 0 0 false)

/-- R422: PWR_GOOD is high and every rail stable: start-up begins. The first after VDD_AON is a POR with CAUSE 1 (R420). -/
def execPwrGoodRise (s : State) : Out :=
  whenOk (s.hm.boot == 0) s
    ((if bits (s.reg 0x104A004000) 31 24 = 0 ∧ bit (s.reg 0x104A004000) 22 then
        s.setReg 0x104A004000 (rstRec (s.reg 0x104A004000) 0 1 0) else s).startUp false)

/-- R417: after BOR or PIN, supplies stable for 1 ms and RESET_N high. -/
def execResetRelease (s : State) : Out :=
  let k := bits (s.reg 0x104A004000) 31 28
  whenOk (s.hm.boot == 0 && (k == 1 || k == 2)) s (s.startUp false)

end Sys2Proof.Machine
end

