-- ==== Sys2Proof/Machine/Security.lean ====
section
/-! DEFINITION. The security subsystem (chapter 20): service queues, key ladder, OTP, lifecycle, alarm, and the security
commands of R305. The cryptographic standards are uninterpreted functions of Config (log 7). -/

namespace Sys2Proof.Machine

/-- Changes the security state. -/
def State.modSec (s : State) (f : Sec → Sec) : State := { s with sec := f s.sec }

/-- A queue and a slot. -/
def State.svcQ (s : State) (r : Nat) : SvcQ := Tbl.get (fun _ => ({} : SvcQ)) s.sec.qs r
def State.slot (s : State) (k : Nat) : KeySlot := Tbl.get (fun _ => ({} : KeySlot)) s.sec.slots k

/-- Replaces a queue, a slot. -/
def State.setSvcQ (s : State) (r : Nat) (x : SvcQ) : State :=
  s.modSec (fun c => { c with qs := Tbl.set (fun _ => ({} : SvcQ)) c.qs r x })
def State.setSlot (s : State) (k : Nat) (x : KeySlot) : State :=
  s.modSec (fun c => { c with slots := Tbl.set (fun _ => ({} : KeySlot)) c.slots k x })

/-- R443: the berth a queue is tagged with: that of a slot bound to it. -/
def State.queueTag (s : State) (r : Nat) : Option Nat :=
  (s.sec.slots.find? (fun e => e.2.queue == some r)).map (fun e => e.2.berth)

/-- The page of queue r (R440). -/
def svcPage (r : Nat) : Nat := 0x104D010000 + r * 0x1000

/-- SHI_Q_STAT (R440). -/
def State.svcStat (s : State) (r : Nat) : W32 :=
  let tag := match s.queueTag r with
    | some b => 2 ^ 22 + b * 2 ^ 16
    | none => 0
  BitVec.ofNat 32 (tag + b2n (s.svcQ r).chain * 4 + (s.svcQ r).st)

/-- SHI_STAT. -/
def State.shiStat (s : State) : W32 :=
  BitVec.ofNat 32 (0x0100 * 2 ^ 16 + b2n s.sec.dbgSeen * 2 ^ 11 + b2n s.sec.trngOk * 2 ^ 10 + b2n s.sec.alarm * 2 ^ 9 +
    b2n s.sec.cert * 2 ^ 8 + s.sec.lc)

/-! ## CERT and the error record (R439, R444, R449) -/

/-- R449: CERT clears, with its log entry: cause 0 DBG_OPEN, 1 alarm, 2 TRNG. -/
def State.certClear (s : State) (cause : Nat) : State :=
  if s.sec.cert then (s.modSec (fun c => { c with cert := false })).logErr 0x10 5 none 0 0 (cause * 2) 0 else s

/-- R444: a refused OTP or lifecycle write, or a failed boot verification, is recorded and logged. -/
def State.secErr (s : State) (flag : Nat) : State := (s.record 0x104D001004 flag none).logErr 0x11 2 none 0 0 flag 0

/-- The end of a queue's segment or chain with a status (R442). -/
def State.svcEnd (s : State) (r status flags : Nat) (out : List Byte) : State :=
  let pg := svcPage r
  let s := s.setReg (pg + 0x10) (BitVec.ofNat 32 (status + out.length * 2 ^ 16))
  let ws := if status = 0 then bytesWords out else List.replicate 256 0
  let s := (ws.take 256).zipIdx.foldl (fun s w => s.setReg (pg + 0x800 + 4 * w.2) w.1) s
  let q := s.svcQ r
  let s := s.setSvcQ r (if status = 0 then { q with st := 2 } else { st := 2 })
  s.record (pg + 0xC) flags (some (1160 + r))

/-- R442: CANCEL of an open chain or a segment in progress. -/
def State.svcCancel (s : State) (r : Nat) : State :=
  if (s.svcQ r).chain || (s.svcQ r).st == 1 then s.svcEnd r 3 (2 ^ 16) [] else s

/-- R439: the subsystem enters alarm: every slot is zeroised, and every request in progress, an open chain among them, ends. -/
def State.secAlarm (s : State) (kind : Nat) : State :=
  if s.sec.alarm then s
  else
    let s := s.modSec (fun c => { c with alarm := true, slots := [], trngOk := c.trngOk && kind != 2 })
    let busy := (List.range 16).filter (fun r => (s.svcQ r).st == 1 || (s.svcQ r).chain)
    let s := busy.foldl (fun s r => s.svcEnd r 7 (2 ^ 18 + 2 ^ 17) []) s
    let s := (s.record 0x104D001004 (if kind = 2 then 2 ^ 17 else 2 ^ 18) none).logErr 0x11 1 none 0 0 kind 0
    s.certClear (if kind = 2 then 2 else 1)

/-- R439: kind 0 core mismatch, 1 SRAM double-bit error, 2 TRNG health test. -/
def execSecurityAlarm (kind : Fin 3) (s : State) : Out := ok (s.secAlarm kind.val)

/-! ## Services (R441 to R443) -/

/-- R442: GO: the segment's registers are taken. -/
def State.svcGo (s : State) (r : Nat) : State :=
  let q := s.svcQ r
  if q.st = 1 then s
  else
    let pg := svcPage r
    let op := s.reg pg
    let n := min (bits op 28 18) 1024
    let bytes := (wordsBytes ((List.range ((n + 3) / 4)).map (fun i => s.reg (pg + 0x400 + 4 * i)))).take n
    s.setSvcQ r { q with st := 1, op := op, seg := bytes, segPar := (List.range 11).map (fun i => s.reg (pg + 0x14 + 4 * i)) }

/-- R443: is a slot usable on a queue: bound to it, or berth 0's and unbound on a queue without a tag. -/
def State.slotUsable (s : State) (k r : Nat) : Bool :=
  let x := s.slot k
  x.queue == some r || (x.berth == 0 && x.queue.isNone && (s.queueTag r).isNone)

/-- The type a service needs of its slot; none for services without one and for the two that write a slot. -/
def svcKind (svc : Nat) : Option Nat :=
  if 1 ≤ svc ∧ svc ≤ 4 then some 1 else if svc = 0x20 then some 2 else if svc = 0x30 then some 3
  else if svc = 0x32 then some 4 else none

/-- The service codes of R441. -/
def svcKnown (svc : Nat) : Bool :=
  [1, 2, 3, 4, 0x10, 0x11, 0x12, 0x18, 0x19, 0x1A, 0x20, 0x30, 0x31, 0x32, 0x33, 0x38, 0x40, 0x48, 0x49].contains svc

/-- Services whose segments before LAST are multiples of 16 bytes. -/
def svcBlocks (svc : Nat) : Bool := decide (svc ≤ 0x20)

/-- A byte string cut or filled to a length. -/
def fit (n : Nat) (l : List Byte) : List Byte := (List.range n).map (fun i => l.getD i 0)

/-- The digest length of a hash service. -/
def digestLen (svc : Nat) : Nat :=
  if svc = 0x10 ∨ svc = 0x18 ∨ svc = 0x20 then 32 else if svc = 0x11 ∨ svc = 0x19 then 48 else 64

/-- What a service answers: a status, the output, and a slot it writes. -/
structure SvcOut where
  status : Nat
  out : List Byte := []
  write : Option (Nat × List Byte) := none

/-- The key length of a slot type (R441). -/
def keyLen (kind : Nat) : Nat := if kind = 4 then 48 else 32

/-- R441: the outcome of the segment that makes the input of a chain `input`, of which `done` bytes are put out before. -/
def State.svcRun (s : State) (q : SvcQ) (svc slot : Nat) (par segPar : List W32) (input : List Byte) (done : Nat) (last : Bool) :
    SvcOut :=
  let key := (s.slot slot).key
  let p := fun (i : Nat) => (par.getD i 0)
  let pb := fun (i n : Nat) => wordsBytes ((par.drop i).take n)
  let aadN := min (p 3).toNat input.length
  let txt := input.drop aadN
  let len := input.length
  let rest := fun (o : List Byte) (n : Nat) => (fit n o).drop done
  if svc = 1 then
    let r := Config.aesGcmSeal key (pb 0 3) (input.take aadN) txt
    { status := 0, out := rest r.1 txt.length ++ (if last then fit 16 r.2 else []) }
  else if svc = 2 then
    let r := Config.aesGcmOpen key (pb 0 3) (input.take aadN) txt
    if last && fit 16 r.2 != wordsBytes ((segPar.drop 4).take 4) then { status := 1 }
    else { status := 0, out := rest r.1 txt.length }
  else if svc = 3 then { status := 0, out := rest (Config.aesCtr key (pb 0 4) input) len }
  else if !last then { status := 0 }
  else if svc = 4 then { status := 0, out := fit 16 (Config.aesCmac key input) }
  else if svc = 0x20 then { status := 0, out := fit 32 (Config.hmacSha256 key input) }
  else if svc < 0x20 then { status := 0, out := fit (digestLen svc) (Config.hash svc input) }
  else if svc = 0x30 then
    if len = 32 then { status := 0, out := fit 64 (Config.ecdsaSign 256 key input s.free) } else { status := 4 }
  else if svc = 0x32 then
    if len = 48 then { status := 0, out := fit 96 (Config.ecdsaSign 384 key input s.free) } else { status := 4 }
  else if svc = 0x31 then
    if len ≠ 160 then { status := 4 }
    else { status := b2n (!Config.ecdsaVerify 256 (input.take 64) ((input.drop 64).take 32) (input.drop 96)) }
  else if svc = 0x33 then
    if len ≠ 240 then { status := 4 }
    else { status := b2n (!Config.ecdsaVerify 384 (input.take 96) ((input.drop 96).take 48) (input.drop 144)) }
  else if svc = 0x38 then
    if len < 1952 + 3309 then { status := 4 }
    else { status := b2n (!Config.mlDsaVerify (input.take 1952) (input.drop (1952 + 3309)) ((input.drop 1952).take 3309)) }
  else if svc = 0x40 then
    if 1 ≤ (p 0).toNat ∧ (p 0).toNat ≤ 1024 then { status := 0, out := (s.freshBytes (p 0).toNat).1 } else { status := 4 }
  else
    let kind := bits (p 0) 2 0
    let mine := (s.slot slot).berth == 0 && (s.slot slot).queue.isNone
    if !mine then { status := 2 }
    else if kind = 0 ∨ 4 < kind then { status := 4 }
    else if svc = 0x48 then
      if len = 0 ∨ 64 < len then { status := 4 }
      else
        let k := fit (keyLen kind) (Config.derive (Config.duk ++ leBytes 4 s.sec.lc) input kind)
        let pub := if kind = 3 then fit 64 (Config.ecPublic 256 k) else if kind = 4 then fit 96 (Config.ecPublic 384 k) else []
        { status := 0, out := pub, write := some (kind, k) }
    else
      let w := bits (p 1) 5 0
      let r := Config.aesGcmOpen (s.slot w).key (input.take 12) [] ((input.drop 12).take (len - 28))
      if (s.slot w).kind ≠ 1 ∨ !s.slotUsable w (q.out % 16) then { status := 2 }
      else if len ≠ 28 + keyLen kind then { status := 4 }
      else if fit 16 r.2 ≠ input.drop (len - 16) then { status := 1 }
      else { status := 0, write := some (kind, fit (keyLen kind) r.1) }

/-- R442: the segment of queue r ends. -/
def State.svcDone (s : State) (r : Nat) : State :=
  let q := s.svcQ r
  if q.st ≠ 1 then s
  else
    let op := q.op
    let first := bit op 16
    let last := bit op 17
    let svc := if first then bits op 7 0 else q.svc
    let slot := if first then bits op 13 8 else q.slot
    let par := if first then q.segPar else q.par
    let input := (if first then [] else q.input) ++ q.seg
    let done := if first then 0 else q.out
    let err := fun (st : Nat) => s.svcEnd r st (2 ^ 18 + 2 ^ 17) []
    let needs := match svcKind svc with
      | some k => decide ((s.slot slot).kind ≠ k) || !s.slotUsable slot r
      | none => false
    if s.sec.alarm then err 7
    else if !svcKnown (bits op 7 0) then err 5
    else if first == q.chain then err 6
    else if !first && bits op 7 0 != q.svc then err 6
    else if 1024 < bits op 28 18 then err 4
    else if !last && svcBlocks svc && decide (q.seg.length % 16 ≠ 0) then err 4
    else if needs then err 2
    else
      let o := s.svcRun { q with out := r } svc slot par q.segPar input done last
      if o.status ≠ 0 then err o.status
      else
        let s := match o.write with
          | some (k, key) => s.setSlot slot { s.slot slot with kind := k, key := key }
          | none => s
        let s := { s with free := s.free + 1 }
        let s := s.svcEnd r 0 (2 ^ 18) o.out
        let txt := input.length - (if svc = 1 ∨ svc = 2 then min (par.getD 3 0).toNat input.length else 0)
        s.setSvcQ r (if last then { st := 2 }
          else { st := 2, chain := true, svc := svc, slot := slot, par := par, input := input, out := txt })

/-- GO of a service's segment by a request, where SHI_Q_OP holds the service's code (log 8). -/
def State.svcCommand (s : State) (rq : Req) (r svc : Nat) : State :=
  s.gWrite rq (svcPage r + 4) 1 (fun s => if bits (s.reg (svcPage r)) 7 0 = svc then s.svcGo r else s)

/-- R441. -/
def execAesGcmEncrypt (rq : Req) (r : Fin 16) (s : State) : Out := ok (s.svcCommand rq r.val 0x01)
/-- R441. -/
def execAesGcmDecrypt (rq : Req) (r : Fin 16) (s : State) : Out := ok (s.svcCommand rq r.val 0x02)
/-- R441. -/
def execAesCtr (rq : Req) (r : Fin 16) (s : State) : Out := ok (s.svcCommand rq r.val 0x03)
/-- R441. -/
def execAesCmac (rq : Req) (r : Fin 16) (s : State) : Out := ok (s.svcCommand rq r.val 0x04)
/-- R441. -/
def execSha256 (rq : Req) (r : Fin 16) (s : State) : Out := ok (s.svcCommand rq r.val 0x10)
/-- R441. -/
def execSha384 (rq : Req) (r : Fin 16) (s : State) : Out := ok (s.svcCommand rq r.val 0x11)
/-- R441. -/
def execSha512 (rq : Req) (r : Fin 16) (s : State) : Out := ok (s.svcCommand rq r.val 0x12)
/-- R441. -/
def execSha3256 (rq : Req) (r : Fin 16) (s : State) : Out := ok (s.svcCommand rq r.val 0x18)
/-- R441. -/
def execSha3384 (rq : Req) (r : Fin 16) (s : State) : Out := ok (s.svcCommand rq r.val 0x19)
/-- R441. -/
def execSha3512 (rq : Req) (r : Fin 16) (s : State) : Out := ok (s.svcCommand rq r.val 0x1A)
/-- R441. -/
def execHmacSha256 (rq : Req) (r : Fin 16) (s : State) : Out := ok (s.svcCommand rq r.val 0x20)
/-- R441. -/
def execEcdsaP256Sign (rq : Req) (r : Fin 16) (s : State) : Out := ok (s.svcCommand rq r.val 0x30)
/-- R441. -/
def execEcdsaP384Sign (rq : Req) (r : Fin 16) (s : State) : Out := ok (s.svcCommand rq r.val 0x32)
/-- R441. -/
def execEcdsaP256Verify (rq : Req) (r : Fin 16) (s : State) : Out := ok (s.svcCommand rq r.val 0x31)
/-- R441. -/
def execEcdsaP384Verify (rq : Req) (r : Fin 16) (s : State) : Out := ok (s.svcCommand rq r.val 0x33)
/-- R441. -/
def execMlDsa65Verify (rq : Req) (r : Fin 16) (s : State) : Out := ok (s.svcCommand rq r.val 0x38)
/-- R441. -/
def execRandomBytes (rq : Req) (r : Fin 16) (s : State) : Out := ok (s.svcCommand rq r.val 0x40)
/-- R443. -/
def execDerive (rq : Req) (r : Fin 16) (s : State) : Out := ok (s.svcCommand rq r.val 0x48)
/-- R441. -/
def execUnwrap (rq : Req) (r : Fin 16) (s : State) : Out := ok (s.svcCommand rq r.val 0x49)

/-- R442. -/
def execShiQCancel (rq : Req) (r : Fin 16) (s : State) : Out := ok (s.gWrite rq (svcPage r.val + 4) 2 (fun s => s.svcCancel r.val))

/-- R442. -/
def execServiceSegmentDone (r : Fin 16) (s : State) : Out := ok (s.svcDone r.val)

/-! ## OTP and lifecycle (R444, R445) -/

/-- An OTP word. -/
def State.otp (s : State) (w : Nat) : W32 := Tbl.get (fun _ => (0 : W32)) s.sec.otp w
def State.otpBurnt (s : State) (w : Nat) : Bool := Tbl.get (fun _ => false) s.sec.burnt w

/-- The last word written of a run of 16 (R444). -/
def otpLast (f : Nat → Bool) (g : Nat → W32) (lo : Nat) : Nat :=
  (List.range 16).foldl (fun a i => if f (lo + i) then (g (lo + i)).toNat else a) 0

/-- R444: may a word be written in a lifecycle state. -/
def otpWritable (w lc : Nat) : Bool :=
  if w ≤ 0x2F then decide (lc ≤ 1)
  else if w = 0x30 then lc == 1 || lc == 2
  else if w ≤ 0x38 then lc == 0
  else if w ≤ 0x40 then lc == 1
  else if w ≤ 0x60 then lc == 1 || lc == 2
  else false

/-- R444: a minimum version in force: the last word of its 16 that was written before the last reset that reloads the manifest. -/
def State.otpMin (s : State) (lo : Nat) : Nat :=
  let w := fun (i : Nat) => Tbl.get (fun _ => (0 : W32)) s.sec.otpNow i
  otpLast (fun i => w i != 0) w lo

/-- R444: does a minimum write go below the value in force. -/
def State.otpBelow (s : State) (w : Nat) (v : W32) : Bool :=
  if 0x41 ≤ w ∧ w ≤ 0x50 then decide (v.toNat < s.otpMin 0x41)
  else if 0x51 ≤ w ∧ w ≤ 0x60 then decide (v.toNat < s.otpMin 0x51)
  else false

/-- Does a request come from an authorised guarded debug session. -/
def State.debugGuarded (s : State) (rq : Req) : Bool := rq.cls == .debug && decide (2 ≤ s.dbgLevel)

/-- R444: the write of SHI_OTP_CMD. -/
def State.otpWrite (s : State) (rq : Req) (w : W32) : State :=
  if !bit w 0 then s
  else
    let a := bits (s.reg 0x104D001014) 9 0
    let v := s.reg 0x104D001018
    if s.debugGuarded rq && otpWritable a s.sec.lc && !s.otpBurnt a && !s.otpBelow a v then
      s.modSec (fun c => { c with otp := Tbl.set (fun _ => (0 : W32)) c.otp a v, burnt := Tbl.set (fun _ => false) c.burnt a true })
    else s.secErr (2 ^ 15)

/-- Are words of OTP written. -/
def State.otpAll (s : State) (lo n : Nat) : Bool := (List.range n).all (fun i => s.otpBurnt (lo + i))

/-- R445: is a lifecycle transition allowed. -/
def State.lcAllows (s : State) (dest : Nat) : Bool :=
  let lc := s.sec.lcNext
  (dest == 4 && lc != 4) || (lc == 0 && dest == 1 && s.otpAll 0 12 && s.otpAll 0x31 8) ||
  (lc == 1 && dest == 2 && s.otpAll 0x39 8) || (lc == 2 && dest == 3)

/-- R445. -/
def State.lcWrite (s : State) (rq : Req) (w : W32) : State :=
  if s.debugGuarded rq && s.lcAllows (bits w 2 0) then s.modSec (fun c => { c with lcNext := bits w 2 0 }) else s.secErr (2 ^ 15)

/-- R445. -/
def execShiLcReqWrite (rq : Req) (w : W32) (s : State) : Out := ok (s.access rq 0x104D001010 false (some w) (fun s => s.lcWrite rq w))

/-- R444. -/
def execShiOtpCmdWrite (rq : Req) (w : W32) (s : State) : Out := ok (s.access rq 0x104D00101C false (some w) (fun s => s.otpWrite rq w))

/-! ## Commands (R305, R443) -/

/-- The SEC_STATUS word r1. -/
def State.secWord (s : State) : W32 := BitVec.ofNat 32 (s.sec.lc + b2n s.sec.cert * 2 ^ 8)

/-- R305. -/
def execSecStatus (m : Fin 69) (s : State) : Out := ok (s.harbour m.val 0x0701 (fun s _ => .done s [s.secWord, 0x0100]))

/-- R305, R443. -/
def execKeyGive (m : Fin 69) (s : State) : Out :=
  ok (s.harbour m.val 0x0702 (fun s q =>
    let k := bits (q.q 0) 7 0
    let r := bits (q.q 0) 11 8
    let x := s.slot k
    if bits (q.q 0) 31 12 ≠ 0 ∨ 63 < k then .fail stDenied 8
    else if x.berth ≠ 0 ∧ x.berth ≠ q.b then .fail stDenied 3
    else if (match s.queueTag r with
      | some b => b != q.b
      | none => false) then .fail stDenied 3
    else .done (s.setSlot k { x with berth := q.b, queue := some r }) []))

/-- R305, R442, R443: a slot's key is zeroised; the chain that uses it ends with CANCELLED. -/
def State.keyRevoke (s : State) (k : Nat) : State :=
  let rs := (List.range 16).filter (fun r =>
    let q := s.svcQ r
    (q.chain && q.slot == k) || (q.st == 1 && bit q.op 16 && bits q.op 13 8 == k))
  (rs.foldl State.svcCancel s).setSlot k {}

/-- R305. -/
def execKeyRevoke (m : Fin 69) (s : State) : Out :=
  ok (s.harbour m.val 0x0703 (fun s q =>
    let k := bits (q.q 0) 7 0
    if bits (q.q 0) 31 8 ≠ 0 ∨ 63 < k then .fail stDenied 8
    else if (s.slot k).berth ≠ q.b then .fail stDenied 3
    else .done (s.keyRevoke k) []))

/-- R305. -/
def execAttest (m : Fin 69) (s : State) : Out := ok (s.harbour m.val 0x0704 (fun s _ => .accept s []))

/-- The SHA-384 digest of the committed manifest as words, zero before commit (R305, R307). -/
def State.manWords (s : State) : List W32 :=
  if s.hm.committed then bytesWords (fit 48 s.hm.manDigest) else List.replicate 12 0

/-- R305: the results of an accepted ATTEST; `psv` is PSV of CL0 core 0. -/
def State.attestWork (s : State) (a : Accepted) (psv : W32) : State :=
  if s.sec.alarm then s.workEnds a (r0 stDenied 5) []
  else
    let ws := [s.secWord, 0x0100, s.mbxVer, psv] ++ s.manWords ++ (List.range 4).map (fun i => a.pay.getD i 0)
    let sig := fit 96 (Config.ecdsaSign 384 (Config.derive Config.duk [] 0) (Config.hash 0x11 (wordsBytes ws)) s.free)
    { s with free := s.free + 1 }.workEnds a (r0 stOk 0) (ws ++ bytesWords sig)

/-- R288, R310: requests outstanding on the queues of a berth end as cancelled. -/
def State.secBerthCancel (s : State) (b : Nat) : State :=
  ((List.range 16).filter (fun r => s.queueTag r == some b)).foldl State.svcCancel s

/-- R310: a destroyed berth's keys are zeroised and its slots return to berth 0. -/
def State.secBerthGone (s : State) (b : Nat) : State :=
  ((s.sec.slots.filter (fun e => e.2.berth == b)).map Prod.fst).foldl State.keyRevoke (s.secBerthCancel b)

end Sys2Proof.Machine
end

