-- ==== Sys2Proof/Machine/Instance.lean ====
section
/-! DEFINITION. What virtual instances share (R318, R319): their pages and errors, transfers through their IO context (R184
to R187), descriptor rings (R356), and management frames (R357). -/

namespace Sys2Proof.Machine

/-! ## Pages (R318, R319) -/

/-- The number of instances of a type (R300). -/
def instCount (ty : Nat) : Nat := [0, 32, 32, 48, 32, 16].getD ty 0

/-- The requester class (R27) and the agent (R189) of an instance's transfers. -/
def instClass (i : Nat) : Nat := [0, 3, 4, 5, 0, 6].getD (i / 256) 0
def instAgent (i : Nat) : Nat := [0, 10, 9, 11, 0, 12].getD (i / 256) 0

/-- R318: does an instance page serve a request. -/
def State.instServes (s : State) (rq : Req) (i : Nat) : Bool :=
  s.guardOk rq || ((s.inst i).on && rq.berth.val == (s.inst i).berth)

/-- R318, R321: a write to a type register of an instance: refused, or ignored while there is no instance or its reset runs. -/
def State.instAccess (s : State) (rq : Req) (pa i : Nat) (w : Option W32) (f : State → State) : State :=
  s.access rq pa false w (fun s =>
    if !s.instServes rq i then s.guardRefuse rq pa w.isSome
    else if (s.inst i).on && !(s.inst i).rst then f s else s)

/-- INST_ID (R319). -/
def State.instId (s : State) (i : Nat) : W32 :=
  let x := s.inst i
  BitVec.ofNat 32 (x.ctx * 2 ^ 24 + x.berth * 2 ^ 16 + i % 256 * 2 ^ 8 + i / 256)

/-- The instance whose work item waits (R22, R128). -/
def Wait.inst : Wait → Option Nat
  | .dma set _ => some (256 + set)
  | .gwRx q _ _ => some (512 + q)
  | .pcie (.bar0 f _ _ _ _) => some (1280 + f.val)
  | _ => none

/-- R321: have an instance's work items ended. -/
def State.instIdle (s : State) (i : Nat) : Bool :=
  !s.waits.any (fun x => x.2.inst == some i) &&
  (if i / 256 = 3 then !s.eth.egress.any (fun e => e.2.any (fun f => f.host == some (i % 256)))
   else if i / 256 = 4 then (Tbl.get (fun _ => ({} : Share)) s.csh (i % 256)).pend == 0
   else true)

/-- R320: may a work item that waits be performed: its instance is not in a reset, or drains. -/
def State.instDrains (s : State) (i : Nat) : Bool := (s.inst i).on && !((s.inst i).rst && (s.inst i).frog)

/-- INST_STAT (R319); CUT is set from the time the last work item has ended until the reset completes (R321). -/
def State.instStat (s : State) (i : Nat) : W32 :=
  let x := s.inst i
  BitVec.ofNat 32 (b2n x.tout * 8 + b2n (x.rst && s.instIdle i) * 4 + b2n x.frog * 2 + b2n x.rst)

/-! ## Translation and transfers (R185, R187) -/

/-- The flag of DMA_IOT_EVR for a failure. -/
def WFail.iotFlag : WFail → Nat
  | .s1t _ => 2 ^ 18
  | .s1p _ => 2 ^ 17
  | .nx => 2 ^ 17
  | .s2t _ _ _ => 2 ^ 16
  | .s2p _ _ _ => 2 ^ 15
  | .range => 2 ^ 14
  | .lost _ _ _ => 2 ^ 13

/-- R187: a translation failure of a context, in the record of the unit. -/
def State.iotFail (s : State) (cls berth ctx : Nat) (f : WFail) (wr : Bool) (addr : Nat) : State :=
  s.recordCap 0x1047010004 f.iotFlag (some 768)
    [(0x1047010008, BitVec.ofNat 32 (cls * 2 ^ 28 + berth * 2 ^ 22 + b2n wr * 2 ^ 21 + ctx)),
     (0x104701000C, BitVec.ofNat 32 addr), (0x1047010010, BitVec.ofNat 32 (addr / 2 ^ 32 % 256))]

/-- The pieces of a range within its 4 KiB pages: address and length. -/
def chunks (addr n : Nat) : List (Nat × Nat) :=
  (List.range ((addr % 4096 + n + 4095) / 4096)).map (fun k =>
    let lo := max addr ((addr / 4096 + k) * 4096)
    (lo, min (addr + n) ((addr / 4096 + k + 1) * 4096) - lo))

/-- The stage 2 of a berth as IO contexts walk it (R168, R184). -/
def State.berthS2 (s : State) (b : Nat) : S2 := { en := (s.berth b).s2En, base := (s.berth b).s2Base }

/-- R185: translates every page of a range before a byte moves: the pieces with their physical addresses, or the failure
and its address. -/
def State.ioRange (s : State) (blk ctx berth addr n : Nat) (wr : Bool) : Except (WFail × Nat) (List (Nat × Nat)) × State :=
  (chunks addr n).foldl (fun (r : Except (WFail × Nat) (List (Nat × Nat)) × State) c =>
    match r.1 with
    | .error e => (.error e, r.2)
    | .ok l =>
      match r.2.ioTranslate blk ctx (r.2.berthS2 berth) c.1 (if wr then .write else .read) with
      | (.ok pa, s) => (.ok (l ++ [(pa, c.2)]), s)
      | (.error f, s) => (.error (f, c.1), s)) (.ok [], s)

/-- The translation of an instance's range, its failure recorded (R187, R319). -/
def State.instRange (s : State) (i addr n slot : Nat) (wr : Bool) : Option (List (Nat × Nat)) × State :=
  let x := s.inst i
  match s.ioRange (instClass i - 3) x.ctx x.berth addr n wr with
  | (.ok l, s) => (some l, s)
  | (.error (f, a), s) => (none, (s.iotFail (instClass i) x.berth x.ctx f wr a).instError i fXlat slot wr a)

/-- R21, R230: an instance reads bytes; none where the work item stops. -/
def State.instRead (s : State) (i addr n slot : Nat) (once : Bool := false) : Option (List Byte) × State :=
  match s.instRange i addr n slot false with
  | (none, s) => (none, s)
  | (some l, s) =>
    if l.any (fun c => !s.agentMay c.1 c.2 false) || s.agentDead (instAgent i) then (none, s.instError i fBus slot false addr)
    else
      let r := l.foldl (fun (r : (List Byte × Option Nat) × State) c =>
        let x := r.2.agentRead (instAgent i) (instClass i) c.1 c.2 once
        ((r.1.1 ++ x.1.1, r.1.2.or x.1.2), x.2)) (([], none), s)
      match r.1.2 with
      | some _ => (none, r.2.instError i fLost slot false addr)
      | none => (some r.1.1, r.2)

/-- Writes bytes over physical pieces. -/
def State.agentPut (s : State) (a : Nat) : List (Nat × Nat) → List Byte → State
  | [], _ => s
  | (pa, n) :: r, bs => (s.agentWrite a pa (bs.take n)).agentPut a r (bs.drop n)

/-- R21: an instance writes bytes; false where the work item stops, with no byte moved. -/
def State.instWrite (s : State) (i addr : Nat) (bs : List Byte) (slot : Nat) : Bool × State :=
  match s.instRange i addr bs.length slot true with
  | (none, s) => (false, s)
  | (some l, s) =>
    if l.any (fun c => !s.agentMay c.1 c.2 true) || s.agentDead (instAgent i) then (false, s.instError i fBus slot true addr)
    else (true, s.agentPut (instAgent i) l bs)

/-! ## Rings (R354 to R356) -/

/-- A ring: the instance, the offset of its BASE_LO, and the size of its descriptors. -/
structure Ring where
  i : Nat
  off : Nat
  size : Nat
deriving DecidableEq, Repr

/-- A register of a ring: 0 BASE_LO, 1 BASE_HI, 2 CTL, 3 TAIL, 4 HEAD. -/
def Ring.reg (g : Ring) (k : Nat) : Nat := instPage g.i + g.off + 4 * k

/-- The number of slots, HEAD, TAIL (index bits at and above LOG2SIZE ignored), and whether the ring is enabled. -/
def State.ringSlots (s : State) (g : Ring) : Nat := 2 ^ bits (s.reg (g.reg 2)) 3 0
def State.ringHead (s : State) (g : Ring) : Nat := (s.reg (g.reg 4)).toNat % s.ringSlots g
def State.ringTail (s : State) (g : Ring) : Nat := bits (s.reg (g.reg 3)) 11 0 % s.ringSlots g
def State.ringOn (s : State) (g : Ring) : Bool := (s.inst g.i).on && !(s.inst g.i).rst && bit (s.reg (g.reg 2)) 31

/-- Is a ring enabled for a work item: a new one, or one that has waited (R320). -/
def State.ringTakes (s : State) (g : Ring) (waited : Bool) : Bool :=
  s.ringOn g || (waited && s.instDrains g.i && bit (s.reg (g.reg 2)) 31)

/-- The address of the descriptor at HEAD. -/
def State.ringAddr (s : State) (g : Ring) : Nat :=
  bits (s.reg (g.reg 1)) 7 0 * 2 ^ 32 + (s.reg (g.reg 0)).toNat + s.ringHead g * g.size

/-- R356: HEAD moves past the descriptor that is done. -/
def State.ringNext (s : State) (g : Ring) : State :=
  s.setReg (g.reg 4) (BitVec.ofNat 32 ((s.ringHead g + 1) % s.ringSlots g))

/-- R356: a completion counts towards the set's event; `coal` is the offset of its COAL register. -/
def State.instDone (s : State) (i coal : Nat) : State :=
  let n := Tbl.get (fun _ => (0 : Nat)) s.eth.unsig i + 1
  let full := decide (max 1 (bits (s.reg (instPage i + coal)) 15 0) ≤ n)
  let s := { s with eth := { s.eth with unsig := Tbl.set (fun _ => (0 : Nat)) s.eth.unsig i (if full then 0 else n) } }
  if full then s.signal (instEvent i) else s

/-- R356: TIME has passed since the first completion that was not signalled. -/
def execCoalesceTimerExpiry (i : Fin 2048) (s : State) : Out :=
  let coal := if i.val / 256 = 1 then 0xA0 else 0x48
  whenOk (decide (0 < Tbl.get (fun _ => (0 : Nat)) s.eth.unsig i.val) && decide (bits (s.reg (instPage i.val + coal)) 31 16 ≠ 0)) s
    (({ s with eth := { s.eth with unsig := Tbl.set (fun _ => (0 : Nat)) s.eth.unsig i.val 0 } }).signal (instEvent i.val))

/-- R354: a write to a CTL register of a ring: EN and LOG2SIZE, and BUFSZ where the ring has it. -/
def State.ringCtl (s : State) (pa mask : Nat) (w : W32) : State :=
  let n := bits w 3 0
  let b := bits w 23 16
  if n < 4 ∨ 12 < n ∨ (mask = 0x80FF000F ∧ (b < 1 ∨ 144 < b)) then s else s.setReg pa (w &&& BitVec.ofNat 32 mask)

/-- R354, R356: a TAIL write. -/
def State.ringTailWrite (s : State) (g : Ring) (w : W32) : State := s.setReg (g.reg 3) (w &&& 0xFFF)

/-- The rings of the instances (R354, R384, R392). -/
def txRing (i : Nat) : Ring := ⟨i, 0x20, 16⟩
def rxRing (i : Nat) : Ring := ⟨i, 0x34, 16⟩
def dmaRing (i c : Nat) : Ring := ⟨i, 0x20 + 0x20 * c, 32⟩

/-! ## Management frames (R357, R278) -/

/-- Is a mailbox free for a new request. -/
def State.mbxFree (s : State) (m : Nat) : Bool := (s.mbx m).st == 0 || (s.mbx m).st == 3

/-- R357: a management frame's message reaches the host mailbox on the Ethernet transport, or is dropped and counted. The mailbox keeps the
port and the address that its answers go to. -/
def State.mgmtRx (s : State) (port : Nat) (src : List Byte) (msg : List W32) : State :=
  let n := 5 + bits (msg.getD 0 0) 31 24
  match (List.range 4).find? (fun h => (s.hostOf h).1 == 2) with
  | none => s.satReg16 0x1044001038
  | some h =>
    let m := 64 + h
    if msg.length < n ∨ msg = [] ∨ !s.mbxFree m then s.satReg16 0x1044001038
    else
      let s := s.setBuf (mbxBase m) (msg.take n)
      (s.setMbx m { s.mbx m with dst := src, port := port }).mbxGo m none

end Sys2Proof.Machine
end

