-- ==== Sys2Proof/Machine/Stage2.lean ====
section
/-! DEFINITION. The stage-2 tables that the harbourmaster builds (R168, R170, R171, R299, R303): the table pool, leaves,
mappings and the rules a mapping obeys. -/

namespace Sys2Proof.Machine

/-! ## The pool -/

/-- The first page at or after `p` that no table uses, among `n` pages. -/
def firstFree (used : List Nat) : Nat → Nat → Option Nat
  | 0, _ => none
  | n + 1, p => if used.contains p then firstFree used n (p + 1) else some p

/-- The pages a table may take (R303, R428): the pool without its first 32 KiB; `two` asks for an 8 KiB top table, aligned. -/
def State.poolTake (s : State) (two : Bool) : Option Nat :=
  let lo := s.hm.man.poolPage + 8
  let n := s.hm.man.poolPages - 8
  let used := s.hm.pool.map Prod.fst
  if two then
    (firstFree (used.map (fun p => p / 2)) ((lo + n) / 2 - (lo + 1) / 2) ((lo + 1) / 2)).map (fun p => 2 * p)
  else firstFree used n lo

/-- Takes `k` zeroed pages for a table of a berth. -/
def State.poolPut (s : State) (b p k : Nat) : State :=
  (s.modHm (fun h => { h with pool := h.pool ++ (List.range k).map (fun i => (p + i, b)) })).agentWrite 8 (p * 4096)
    (List.replicate (k * 4096) 0)

/-- Gives a page back to the pool. -/
def State.poolGive (s : State) (p : Nat) : State :=
  s.modHm (fun h => { h with pool := h.pool.filter (fun e => e.1 != p) })

/-! ## Descriptors -/

/-- R230: the harbourmaster reads `n` bytes of memory; a poisoned word is logged (R304). -/
def State.hmRead (s : State) (pa n : Nat) : Nat × State :=
  let ((b, p), s) := s.agentRead 8 1 pa n false
  (leNat b, match p with
    | some a => s.logErr 0x10 0x02 none 0 a 0 0
    | none => s)

/-- R230: the descriptor at an index of a table. -/
def State.readDesc (s : State) (tbl i : Nat) : BitVec 64 × State :=
  let (v, s) := s.hmRead (tbl + i * 8) 8
  (BitVec.ofNat 64 v, s)

/-- Writes a descriptor. -/
def State.putDesc (s : State) (tbl i d : Nat) : State := s.agentWrite 8 (tbl + i * 8) (leBytes 8 d)

/-- The descriptor of a leaf (R171): page number and q3 flags of MEM_MAP; 0 where there is none. -/
def leafDesc (lvl page flags : Nat) : Nat := page * 0x1000 + flags % 8 * 4 + (if lvl = 2 then 3 else 1)

/-- The pages of a leaf at a level (R170). -/
def leafPages (lvl : Nat) : Nat := 2 ^ (lvlShift lvl - 12)

/-- The index of an IPA page in a table of a level (R170). -/
def s2Index (lvl page : Nat) : Nat := page / leafPages lvl % (if lvl = 0 then 1024 else 512)

/-- The tables below an entry return to the pool: a table of level 1 with its level-2 tables, or one of level 2. -/
def State.dropTable (s : State) (lvl tbl : Nat) : State :=
  let s := if lvl = 2 then s
    else (List.range 512).foldl (fun s i =>
      let (d, s) := s.readDesc tbl i
      match decodeDesc true 1 d with
      | .table t => s.poolGive (t / 4096)
      | _ => s) s
  s.poolGive (tbl / 4096)

/-- A new table of the next level: empty, or the halves of the block it replaces. -/
def State.newTable (s : State) (b lvl : Nat) (old : BitVec 64) : Option (Nat × State) :=
  match s.poolTake false with
  | none => none
  | some p =>
    let s := s.poolPut b p 1
    match decodeDesc true lvl old with
    | .leaf oa =>
      let step := leafPages (lvl + 1)
      some (p * 4096, (List.range 512).foldl (fun s i =>
        s.putDesc (p * 4096) i (leafDesc (lvl + 1) (oa / 4096 + i * step) (bits old 4 2))) s)
    | _ => some (p * 4096, s)

/-- Writes a descriptor of level `to` for an IPA page, from a table of level `2 - n`: tables are made, and blocks split, on the
way; none where the pool is exhausted. -/
def State.s2Put (s : State) (b page dest d : Nat) : Nat → Nat → Option State
  | 0, _ => none
  | n + 1, tbl =>
    let lvl := 2 - n
    let i := s2Index lvl page
    let (old, s) := s.readDesc tbl i
    if lvl = dest then
      let s := match decodeDesc true lvl old with
        | .table t => s.dropTable (lvl + 1) t
        | _ => s
      some (s.putDesc tbl i d)
    else match decodeDesc true lvl old with
      | .table t => s.s2Put b page dest d n t
      | _ =>
        match s.newTable b lvl old with
        | none => none
        | some (t, s) => (s.putDesc tbl i (t + 3)).s2Put b page dest d n t

/-- The level of the largest leaf at the start of a range: `key` aligns as the IPA and, for a mapping, the PA do. -/
def leafLevel (key n : Nat) : Nat :=
  if key % 2 ^ 18 = 0 ∧ 2 ^ 18 ≤ n then 0 else if key % 2 ^ 9 = 0 ∧ 2 ^ 9 ≤ n then 1 else 2

/-- R303: maps `n` pages at `ipa` to `pa`, each with the largest leaf that both alignments allow; fuel `f`. -/
def State.s2Map (b top flags : Nat) : Nat → State → Nat → Nat → Nat → Option State
  | 0, s, _, _, n => if n = 0 then some s else none
  | f + 1, s, ipa, pa, n =>
    if n = 0 then some s
    else
      let l := max (leafLevel ipa n) (leafLevel pa n)
      match s.s2Put b ipa l (leafDesc l pa flags) 3 top with
      | none => none
      | some s => State.s2Map b top flags f s (ipa + leafPages l) (pa + leafPages l) (n - leafPages l)

/-- R303: removes `n` pages at `ipa`; fuel `f`. -/
def State.s2Unmap (b top : Nat) : Nat → State → Nat → Nat → Option State
  | 0, s, _, n => if n = 0 then some s else none
  | f + 1, s, ipa, n =>
    if n = 0 then some s
    else
      let l := leafLevel ipa n
      match s.s2Put b ipa l 0 3 top with
      | none => none
      | some s => State.s2Unmap b top f s (ipa + leafPages l) (n - leafPages l)

/-! ## Mappings -/

/-- Does a mapping meet `n` IPA pages at `ipa`, or `n` PA pages at `pa`. -/
def Mapping.meets (m : Mapping) (ipa n : Nat) : Bool := decide (m.ipa < ipa + n) && decide (ipa < m.ipa + m.n)
def Mapping.meetsPa (m : Mapping) (pa n : Nat) : Bool := decide (m.pa < pa + n) && decide (pa < m.pa + m.n)

/-- Do ranges cover `[lo, hi)` together; fuel. -/
def covered (l : List (Nat × Nat)) (hi : Nat) : Nat → Nat → Bool
  | 0, lo => decide (hi ≤ lo)
  | f + 1, lo =>
    if hi ≤ lo then true
    else match l.find? (fun r => decide (r.1 ≤ lo) && decide (lo < r.1 + r.2)) with
      | none => false
      | some r => covered l hi f (r.1 + r.2)

/-- A mapping without `n` IPA pages at `ipa`. -/
def Mapping.without (m : Mapping) (ipa n : Nat) : List Mapping :=
  if !m.meets ipa n then [m]
  else
    let low := ipa - m.ipa
    let cut := ipa + n - m.ipa
    (if low = 0 then [] else [{ m with n := low }]) ++
    (if cut < m.n then [{ m with ipa := m.ipa + cut, pa := m.pa + cut, n := m.n - cut }] else [])

/-- Adds a mapping to a berth with its descriptors; none where the pool is exhausted. -/
def State.mapIn (s : State) (b : Nat) (m : Mapping) : Option State :=
  let x := s.berth b
  match (if x.s2En then State.s2Map b x.s2Base m.flags m.n s m.ipa m.pa m.n else some s) with
  | none => none
  | some s => some (s.modBerth b (fun x => { x with maps := x.maps ++ [m] }))

/-- Removes the pages of a range from a berth with their descriptors; none where the pool is exhausted. -/
def State.mapOut (s : State) (b ipa n : Nat) : Option State :=
  let x := s.berth b
  match (if x.s2En then State.s2Unmap b x.s2Base n s ipa n else some s) with
  | none => none
  | some s => some (s.modBerth b (fun x => { x with maps := x.maps.flatMap (fun m => m.without ipa n) }))

/-- Maps device pages at an IPA equal to the PA, or at `ipa` (R311, R318, R483): R and W, without X. -/
def devMap (ipa pa n : Nat) : Mapping := { ipa := ipa, pa := pa, n := n, flags := 3, dev := true }

/-- The identity-mapped device pages of a berth (R311). -/
def identityPages (b : Nat) : List Mapping :=
  [devMap (0x1080000 + b) (0x1080000 + b) 1, devMap (0x1049040 + b) (0x1049040 + b) 1,
   devMap 0x1041002 0x1041002 6, devMap 0x104100C 0x104100C 16]

/-- Adds mappings in order. -/
def State.mapAll (b : Nat) : List Mapping → State → Option State
  | [], s => some s
  | m :: r, s =>
    match s.mapIn b m with
    | none => none
    | some s => State.mapAll b r s

/-- A new top table for a berth, all invalid (R299). -/
def State.newTop (s : State) (b : Nat) : Option State :=
  match s.poolTake true with
  | none => none
  | some p => some ((s.poolPut b p 2).modBerth b (fun x => { x with s2Base := p * 4096, s2En := true }))

/-- R2: the DRAM channels of this part. -/
def State.channels (s : State) : Nat := if s.order = 0x930 then 6 else if s.order = 0x920 then 4 else 8

/-- R328: the installed capacity that the manifest gives, in bytes. -/
def State.dramInstalled (s : State) : Nat := s.channels * s.hm.man.dramGib * 0x40000000

/-- R329: does a page range touch a check address of a protected region. -/
def State.touchesCheck (s : State) (pa n : Nat) : Bool :=
  (List.range 64).any (fun r => Nat.testBit s.hm.man.prot r && decide (r * 0x40000 + 0x38E38 < pa + n) && decide (pa < (r + 1) * 0x40000))

/-- R329: does a page range lie wholly in data addresses of installed DRAM, or in quay SRAM. -/
def State.inDram (s : State) (pa n : Nat) : Bool := decide ((pa + n) * 4096 ≤ s.dramInstalled) && !s.touchesCheck pa n
def inQuay (pa n : Nat) : Bool := decide (0x1000000 ≤ pa) && decide (pa + n ≤ 0x1001000)

/-- R330: does a page range touch an unprotected region of DRAM. -/
def State.touchesOpen (s : State) (pa n : Nat) : Bool :=
  (List.range 64).any (fun r => !Nat.testBit s.hm.man.prot r && decide (r * 0x40000 < pa + n) && decide (pa < (r + 1) * 0x40000))

/-- R299, R330: is the configuration a safety configuration or the certified one (R90). -/
def State.strictOnly (s : State) : Bool := s.hm.man.safety || s.sec.cert

/-- R303, R329, R330: the code of the first rule of the PA range that a mapping breaks: DENIED details 8, 5; none where it keeps
them. -/
def State.paRule (s : State) (m : Mapping) : Option Nat :=
  let lo := m.pa * 4096
  let hi := (m.pa + m.n) * 4096
  let port := (lo - 0x1800000000) / 0x80000000
  let flash := decide (0x1800000000 ≤ lo) && decide (port < 2) &&
    decide (hi ≤ 0x1800000000 + port * 0x80000000 + Tbl.get (fun _ => (0 : Nat)) s.flashCap port)
  let trc := bits (s.reg 0x104C002008) 7 0 * 0x100000 + bits (s.reg 0x104C002004) 31 12
  if !(s.inDram m.pa m.n || inQuay m.pa m.n || flash) || (flash && m.flags.testBit 1) then some 8
  else if m.meetsPa 0x1000FE0 0x20 || m.meetsPa s.hm.man.poolPage s.hm.man.poolPages || m.meetsPa trc (s.reg 0x104C00200C).toNat then some 5
  else if s.strictOnly && s.touchesOpen m.pa m.n then some 5
  else none

/-- R303: may a mapping of berth b stand beside a mapping of another berth. -/
def State.mayShare (s : State) (m o : Mapping) : Bool :=
  if o.dev || !m.meetsPa o.pa o.n then true
  else if !(m.flags.testBit 1 || o.flags.testBit 1) then true
  else
    m.flags.testBit 3 && o.flags.testBit 3 &&
    covered s.hm.man.shared (min (m.pa + m.n) (o.pa + o.n)) s.hm.man.shared.length (max m.pa o.pa)

/-- R303: does a mapping of berth b break the sharing rule. -/
def State.shareBroken (s : State) (b : Nat) (m : Mapping) : Bool :=
  s.hm.berths.any (fun e => e.1 != b && e.2.maps.any (fun o => !s.mayShare m o))

/-- R303: the DENIED detail of a MEM_MAP, if it fails. -/
def State.mapRule (s : State) (b : Nat) (m : Mapping) : Option Nat :=
  if 2 ^ 28 < m.ipa + m.n ∨ m.n = 0 ∨ 2 ^ 24 < m.n then some 8
  else match s.paRule m with
    | some d => some d
    | none =>
      if (s.berth b).maps.any (fun o => o.meets m.ipa m.n) then some 9
      else if s.shareBroken b m then some 3
      else none

/-! ## MEM_MAP and MEM_UNMAP (R302, R303) -/

/-- R303. The descriptors are performed before the ACCEPTED response (log 15). -/
def execMemMap (m : Fin 69) (s : State) : Out :=
  ok (s.harbour m.val 0x0601 (fun s q =>
    let x : Mapping := { ipa := bits (q.q 0) 27 0, pa := bits (q.q 1) 27 0, n := (q.q 2).toNat, flags := bits (q.q 3) 3 0 }
    if bits (q.q 0) 31 28 ≠ 0 ∨ bits (q.q 1) 31 28 ≠ 0 ∨ bits (q.q 3) 31 4 ≠ 0 then .fail stDenied 8
    else match s.mapRule q.b x with
      | some d => .fail stDenied d
      | none =>
        match s.mapIn q.b x with
        | none => .fail stNoResource 2
        | some s => .accept s []))

/-- R303. The invalidation ends with the completion. -/
def execMemUnmap (m : Fin 69) (s : State) : Out :=
  ok (s.harbour m.val 0x0602 (fun s q =>
    let ipa := bits (q.q 0) 27 0
    let n := (q.q 1).toNat
    let x := s.berth q.b
    let mem := x.maps.filter (fun o => !o.dev)
    if bits (q.q 0) 31 28 ≠ 0 ∨ n = 0 ∨ 2 ^ 24 < n ∨ 2 ^ 28 < ipa + n then .fail stDenied 8
    else if x.maps.any (fun o => o.dev && o.meets ipa n) || !covered (mem.map (fun o => (o.ipa, o.n))) (ipa + n) mem.length ipa then
      .fail stDenied 9
    else match s.mapOut q.b ipa n with
      | none => .fail stNoResource 2
      | some s => .accept s []))

/-- R182, R303: invalidates the IPA pages of a range of a berth in every TLB. -/
def State.invalidatePages (s : State) (b ipa n : Nat) : State :=
  { s with
      tlbs := s.tlbs.filter (fun e =>
      !(e.berth == b && decide (e.ipa * 2 ^ e.size < (ipa + n) * 4096) && decide (ipa * 4096 < (e.ipa + 1) * 2 ^ e.size))) }

end Sys2Proof.Machine
end

