-- ==== Sys2Proof/Machine/Vehicle.lean ====
section
/-! DEFINITION. The vehicle buses, GPIO and timers (R368 to R383). -/

namespace Sys2Proof.Machine

/-! ## Message RAM and element headers (R371, R372) -/

/-- The page and the message RAM of CAN controller `k`. -/
def canPage (k : Nat) : Nat := 0x1045001000 + k * 0x1000
def canRam (k slot : Nat) : Nat := 0x1045100000 + k * 0x4000 + slot * 64

/-- A controller, and a change of it. -/
def State.canOf (s : State) (k : Nat) : Can := Tbl.get (fun _ => ({} : Can)) s.can k
def State.setCan (s : State) (k : Nat) (x : Can) : State := { s with can := Tbl.set (fun _ => ({} : Can)) s.can k x }
def State.modCan (s : State) (k : Nat) (f : Can → Can) : State := s.setCan k (f (s.canOf k))

/-- A share, and a change of it. -/
def State.share (s : State) (i : Nat) : Share := Tbl.get (fun _ => ({} : Share)) s.csh i
def State.setShare (s : State) (i : Nat) (x : Share) : State := { s with csh := Tbl.set (fun _ => ({} : Share)) s.csh i x }

/-- The fields of an element's header. -/
def elWord (el : List Byte) (i : Nat) : W32 := BitVec.ofNat 32 (leNat ((el.drop (4 * i)).take 4))
def elXtd (el : List Byte) : Bool := bit (elWord el 0) 30
def elId (el : List Byte) : Nat := bits (elWord el 0) 28 0
def elLen (el : List Byte) : Nat := bits (elWord el 1) 15 4
def elFmt (el : List Byte) : Nat := bits (elWord el 1) 1 0

/-- Words and bytes of a RAM from an address on. -/
def State.ramPut (s : State) (a : Nat) (bs : List Byte) : State :=
  (((bytesWords bs).zipIdx).map (fun e => (a + 4 * e.2, e.1))).foldl (fun s e => s.setReg e.1 e.2) s
def State.ramGet (s : State) (a n : Nat) : List Byte :=
  ((List.range ((n + 3) / 4)).flatMap (fun i => leBytes 4 (s.reg (a + 4 * i)).toNat)).take n

/-- The element that starts at an address. -/
def State.element (s : State) (a : Nat) : List Byte := s.ramGet a (16 + elLen (s.ramGet a 16))

/-- The slots an element occupies. -/
def elSlots (el : List Byte) : Nat := (16 + elLen el + 63) / 64

/-! ## RX FIFOs (R372) -/

/-- R372: the slot at which an element of `n` slots is written in a FIFO of `size` slots; none where it does not fit. -/
def RxFifo.place (f : RxFifo) (size n : Nat) : Option Nat :=
  if f.held = [] then (if f.put + n ≤ size then some f.put else if n ≤ size then some 0 else none)
  else if f.get < f.put then
    (if f.put + n ≤ size then some f.put else if n ≤ f.get then some 0 else none)
  else if f.put + n ≤ f.get then some f.put else none

/-- The FIFO with an element at a slot. -/
def RxFifo.push (f : RxFifo) (size at_ n : Nat) : RxFifo :=
  { get := if f.held = [] then at_ else f.get, put := (at_ + n) % size, held := f.held ++ [(at_, n)] }

/-- R372: frees the elements up to a new GET slot; a value outside the occupied slots is ignored. -/
def RxFifo.ack (f : RxFifo) (g : Nat) : RxFifo :=
  if f.held = [] ∨ g = f.get then f
  else if g = f.put then { f with get := g, held := [] }
  else match f.held.findIdx? (fun e => decide (e.1 ≤ g) && decide (g < e.1 + e.2)) with
    | some i => { f with get := g, held := f.held.drop i }
    | none => f

/-- CAN_RXF_STAT and CSH_RXF_STAT. -/
def RxFifo.stat (f : RxFifo) : W32 := BitVec.ofNat 32 (f.get * 2 ^ 16 + f.put * 2 ^ 8 + f.held.length)

/-! ## Reception (R373) -/

/-- R386: a frame enters the gateway's input queue from a source port; a full queue drops it. -/
def State.gwIn (s : State) (src : Nat) (el : List Byte) : State :=
  if 8192 ≤ s.gw.inq.length then s.record 0x1046001028 (2 ^ 18) (some 624)
  else { s with gw := { s.gw with inq := s.gw.inq ++ [(src, el, s.time)] } }

/-- The event record of a controller: 0 RX, 1 TX, 2 ERR, 3 WAKE (R369). -/
def State.canRecord (s : State) (k i flag : Nat) : State := s.record (canPage k + 0x38 + 4 * i) flag (some (384 + 4 * k + i))

/-- The event record of a share (R375). -/
def State.cshRecord (s : State) (i flag : Nat) : State := s.record (instPage (1024 + i) + 0x60) flag (some (560 + 2 * i))

/-- R373: the first valid filter that matches a frame. -/
def State.canFilter (s : State) (k : Nat) (el : List Byte) : Option Nat :=
  (List.range 128).find? (fun n =>
    let w0 := s.reg (canPage k + 0x800 + 16 * n)
    let m := bits (s.reg (canPage k + 0x804 + 16 * n)) 28 0
    bit w0 31 && bit w0 30 == elXtd el && (Nat.xor (elId el) (bits w0 28 0)) &&& m == 0)

/-- R372: a frame goes to the controller's RX FIFO. -/
def State.canStore (s : State) (k : Nat) (el : List Byte) : State :=
  let size := bits (s.reg (canPage k + 0x18)) 5 0
  let f := (s.canOf k).rxf
  match f.place size (elSlots el) with
  | none => s.canRecord k 0 (2 ^ 17)
  | some a =>
    ((s.ramPut (canRam k a) el).modCan k (fun c => { c with rxf := f.push size a (elSlots el) })).canRecord k 0 (2 ^ 18)

/-- R375: a frame goes to the RX FIFO of a share's window. -/
def State.cshStore (s : State) (i : Nat) (el : List Byte) : State :=
  let x := s.share i
  let size := bits (s.reg (instPage (1024 + i) + 0x24)) 5 0
  if !bit (s.reg (instPage (1024 + i) + 0x20)) 31 || (s.inst (1024 + i)).rst then s
  else match x.rxf.place size (elSlots el) with
    | none => s.cshRecord i (2 ^ 16)
    | some a =>
      ((s.ramPut (canRam x.can (64 + 48 * x.blk + a)) el).setShare i { x with rxf := x.rxf.push size a (elSlots el) }).cshRecord i
        (2 ^ 18)

/-- R373: an accepted frame is filtered. -/
def State.canRx (s : State) (k : Nat) (el : List Byte) : State :=
  match s.canFilter k el with
  | none => if bit (s.reg (canPage k)) 25 then s.canStore k el else s.canRecord k 0 (2 ^ 16)
  | some n =>
    let w := s.reg (canPage k + 0x808 + 16 * n)
    let sh := bits w 4 0
    let s := if !bit w 30 then s
      else if !bit w 5 then s.canStore k el
      else if (s.inst (1024 + sh)).on && (s.share sh).can == k then s.cshStore sh el
      else s.canRecord k 0 (2 ^ 16)
    if bit w 31 then s.gwIn k el else s

/-- Is a controller on its bus: CAN 0 to 11 have their logic in PD23, the others in PD16. -/
def State.canOn (s : State) (k : Nat) : Bool :=
  !s.canFused k && s.domain (if k < 12 then 23 else 16) == .on && bit (s.reg (canPage k)) 31 && decide ((s.canOf k).st < 2)

/-- R373: a frame is accepted at the last bit of its EOF; its element carries the time of its SOF. -/
def execCanFrameRx (k : Fin 24) (el : List Byte) (s : State) : Out :=
  if s.frozen then ok s else
  whenOk (s.canOn k && decide (elFmt el ≤ bits (s.reg (canPage k)) 29 28)) s (s.canRx k el)

/-! ## Transmission (R374 to R376) -/

/-- The arbitration key of an element: lower wins (R374). -/
def arbKey (el : List Byte) : Nat :=
  let id := elId el
  let rtr := b2n (bit (elWord el 0) 29)
  id / 2 ^ 18 * 2 ^ 20 + (if elXtd el then 2 ^ 19 + id % 2 ^ 18 * 2 + rtr else rtr)

/-- R374, R375, R389: the pending transmit buffers of a controller with their elements, in the order that breaks ties. -/
def State.canCands (s : State) (k : Nat) : List (TxSrc × List Byte) :=
  let c := s.canOf k
  (c.gw.zipIdx).map (fun e => (TxSrc.gw e.2, e.1)) ++
  ((List.range 32).filter (fun n => c.pend.getLsbD n)).map (fun n =>
    (TxSrc.own n, s.element (canRam k (bits (s.reg (canPage k + 0x100 + 4 * n)) 5 0)))) ++
  (List.range 4).flatMap (fun j =>
    match Tbl.get (fun _ => (0 : Nat)) c.shares j with
    | 0 => []
    | i + 1 =>
      if bit (s.reg (instPage (1024 + i) + 0x20)) 31 then
        ((List.range 8).filter (fun n => (s.share i).pend.getLsbD n)).map (fun n =>
          (TxSrc.share j n, s.element (canRam k (64 + 48 * j + bits (s.reg (instPage (1024 + i) + 0x40 + 4 * n)) 5 0))))
      else [])

/-- The first of the candidates with the lowest key. -/
def bestCand (l : List (TxSrc × List Byte)) : Option (TxSrc × List Byte) :=
  l.foldl (fun b e =>
    match b with
    | none => some e
    | some x => if arbKey e.2 < arbKey x.2 then some e else some x) none

/-- The share at block `j` of a controller. -/
def State.shareAt (s : State) (k j : Nat) : Nat := Tbl.get (fun _ => (0 : Nat)) (s.canOf k).shares j - 1

/-- R376: may a share send an identifier. -/
def State.shareMay (s : State) (i : Nat) (el : List Byte) : Bool :=
  ((s.hm.man.canRanges.lookup i).getD []).any (fun r =>
    decide (r.1 % 2 ^ 29 ≤ elId el) && decide (elId el ≤ r.2 % 2 ^ 29) && Nat.testBit r.1 31 == elXtd el)

/-- A buffer ends: as DONE or as CANCEL. -/
def State.txEnds (s : State) (k : Nat) (src : TxSrc) (sent : Bool) : State :=
  match src with
  | .own n =>
    (s.modCan k (fun c => { c with
        pend := putBit c.pend n false, done := if sent then putBit c.done n true else c.done,
        cxl := if sent then c.cxl else putBit c.cxl n true })).canRecord k 1 (if sent then 2 ^ 18 else 2 ^ 17)
  | .share j n =>
    let i := s.shareAt k j
    let x := s.share i
    let s := s.setShare i { x with pend := putBit x.pend n false, done := if sent then putBit x.done n true else x.done }
    if sent then s.cshRecord i (2 ^ 17) else s
  | .gw n => s.modCan k (fun c => { c with gw := c.gw.eraseIdx n })

/-- R374, R376: the controller chooses its next buffer and sends its SOF; a share's buffer outside its ranges ends. -/
def State.canStart (s : State) (k : Nat) : State :=
  match bestCand (s.canCands k) with
  | none => s
  | some (.share j n, el) =>
    if s.shareMay (s.shareAt k j) el then s.modCan k (fun c => { c with sof := some (.share j n, false) })
    else ((s.txEnds k (.share j n) false).cshRecord (s.shareAt k j) (2 ^ 15)).canRecord k 2 (2 ^ 14)
  | some (src, _) => s.modCan k (fun c => { c with sof := some (src, false) })

/-- The element whose SOF has been sent. -/
def State.canSending (s : State) (k : Nat) : List Byte :=
  match (s.canOf k).sof with
  | some (src, _) => (((s.canCands k).find? (fun e => e.1 == src)).map Prod.snd).getD []
  | none => []

/-- A frame in progress ends without being sent: a buffer that a cancel has reached ends as CANCEL, another stays pending. -/
def State.canAbort (s : State) (k : Nat) : State :=
  match (s.canOf k).sof with
  | some (src, true) => (s.modCan k (fun c => { c with sof := none })).txEnds k src false
  | _ => s.modCan k (fun c => { c with sof := none })

/-- R374: what becomes of transmission: 0 the frame is sent, 1 arbitration is lost, 2 an error ends it, 3 the controller
sends the SOF of its next buffer. A moored output is recessive: no frame starts or is sent whole (R435), but in internal loopback. -/
def execCanTxEnd (k : Fin 24) (how : Fin 4) (s : State) : Out :=
  if s.frozen then ok s else
  let c := s.canOf k
  let cfg := s.reg (canPage k)
  let cut := s.moored && !bit cfg 26
  if !s.canOn k || bit cfg 27 || (cut && (how.val == 0 || how.val == 3)) then ok s
  else if how.val = 3 then ok (if c.sof.isSome then s else s.canStart k)
  else match c.sof with
    | none => ok s
    | some (src, _) =>
      let el := s.canSending k
      if how.val = 0 then
        let s' := (s.modCan k (fun c => { c with sof := none })).txEnds k src true
        ok (if bit (s.reg (canPage k)) 26 then s'.canRx k el else s')
      else ok (s.canAbort k)

/-- R374: requests of own buffers. -/
def State.canReq (s : State) (k : Nat) (w : W32) : State :=
  s.modCan k (fun c => { c with pend := c.pend ||| w, done := c.done &&& ~~~w, cxl := c.cxl &&& ~~~w })

/-- R374: cancels of own buffers: at once, or when a frame whose SOF has been sent next fails. -/
def State.canCancel (s : State) (k : Nat) (w : W32) : State :=
  (List.range 32).foldl (fun s n =>
    let c := s.canOf k
    if bit w n && c.pend.getLsbD n then
      (if (c.sof.map Prod.fst) = some (.own n) then s.modCan k (fun c => { c with sof := some (.own n, true) })
       else s.txEnds k (.own n) false)
    else s) s

/-- R374. -/
def execCanTxReq (rq : Req) (k : Fin 24) (w : W32) (s : State) : Out :=
  ok (s.gWrite rq (canPage k + 0x24) w (fun s => s.canReq k w))

/-- R374. -/
def execCanTxCancel (rq : Req) (k : Fin 24) (w : W32) (s : State) : Out :=
  ok (s.gWrite rq (canPage k + 0x28) w (fun s => s.canCancel k w))

/-- R372. -/
def execCanRxfAck (rq : Req) (k : Fin 24) (w : W32) (s : State) : Out :=
  ok (s.gWrite rq (canPage k + 0x20) w (fun s => s.modCan k (fun c => { c with rxf := c.rxf.ack (bits w 5 0) })))

/-- R372: a write to CAN_RXF_CFG. -/
def State.canRxfCfg (s : State) (k : Nat) (w : W32) : State :=
  let c := s.canOf k
  if c.rxf.held ≠ [] ∨ c.pend ≠ 0 ∨ bits w 5 0 = 0 then s
  else (s.setReg (canPage k + 0x18) (w &&& 0x3F)).modCan k (fun c => { c with rxf := {} })

/-- R372. -/
def execCanRxfCfgWrite (rq : Req) (k : Fin 24) (w : W32) (s : State) : Out :=
  ok (s.gWrite rq (canPage k + 0x18) w (fun s => s.canRxfCfg k w))

/-- A bit time in kernel clocks, and whether TSEG1 and SJW are in range (R370). -/
def bitClocks (w : W32) : Nat := (bits w 7 0 + 1) * (3 + bits w 31 24 + bits w 23 16)
def segsGood (w : W32) : Bool := decide (2 ≤ bits w 31 24 + 1) && decide (bits w 15 8 + 1 ≤ bits w 23 16 + 1)

/-- R369: a write to CAN_CFG: PROTO 3 is taken as 0; PROTO keeps while EN is 1; a controller that EN puts on the bus
integrates first. -/
def State.canCfg (s : State) (k : Nat) (w : W32) : State :=
  let cur := s.reg (canPage k)
  let proto := if bit cur 31 then bits cur 29 28 else if bits w 29 28 = 3 then 0 else bits w 29 28
  let v := putBits (w &&& 0x8F000000) 28 2 proto
  let s := s.setReg (canPage k) v
  if bit v 31 == bit cur 31 then s
  else (s.canAbort k).modCan k (fun c => { c with st := 3, tec := 0, rec_ := 0 })

/-- R370: a write of a timing register: 1 NBT, 2 DBT, 3 XBT, 4 XCTL. -/
def State.canTiming (s : State) (k reg : Nat) (w : W32) : State :=
  let pg := canPage k
  let tms := bit (s.reg (pg + 0x10)) 31
  if reg = 0 then s.canCfg k w
  else if bit (s.reg pg) 31 then s
  else if reg = 4 then
    (if !bit w 31 && decide (bitClocks (s.reg (pg + 0xC)) < 40) then s else s.setReg (pg + 0x10) (w &&& 0x800000FF))
  else
    let least := if reg = 1 then 80 else if reg = 2 then 10 else if tms then 8 else 40
    if segsGood w && decide (least ≤ bitClocks w) then s.setReg (pg + 4 * reg) w else s

/-- R370: `reg` 0 is CAN_CFG with PROTO, 1 to 4 the timing registers. -/
def execCanTimingWrite (rq : Req) (k : Fin 24) (reg : Fin 5) (w : W32) (s : State) : Out :=
  ok (s.gWrite rq (canPage k + 4 * reg) w (fun s => s.canTiming k reg w))

/-- R369: the error counters change as ISO 11898-1 counts them; `proto`: a protocol error was seen. -/
def execCanBusError (k : Fin 24) (proto : Bool) (tec rec_ : Fin 512) (s : State) : Out :=
  if s.frozen then ok s else
  let c := s.canOf k
  if !s.canOn k then ok s
  else
    let st := if 256 ≤ tec.val then 2 else if 128 ≤ tec.val ∨ 128 ≤ rec_.val then 1 else 0
    let warn := (decide (c.tec < 96) && decide (96 ≤ tec.val)) || (decide (c.rec_ < 96) && decide (96 ≤ rec_.val))
    let flags := b2n proto * 2 ^ 15 + b2n warn * 2 ^ 16 + b2n (st == 1 && c.st == 0) * 2 ^ 17 + b2n (st == 2) * 2 ^ 18
    let s := s.setCan k { c with st := st, tec := tec.val, rec_ := rec_.val }
    let s := if st = 2 then s.canAbort k else s
    ok (if flags = 0 then s else s.canRecord k 2 flags)

/-- R369: 128 × 11 recessive bits have passed in bus-off. -/
def execCanBusoffRecovery (k : Fin 24) (s : State) : Out :=
  if s.frozen then ok s else
  whenOk ((s.canOf k).st == 2 && bit (s.reg (canPage k)) 31 && bit (s.reg (canPage k)) 24) s
    (s.modCan k (fun c => { c with st := 0, tec := 0, rec_ := 0 }))

/-- R369: an integrating controller has seen enough recessive bits. -/
def execCanBusIntegrated (k : Fin 24) (s : State) : Out :=
  if s.frozen then ok s else
  whenOk ((s.canOf k).st == 3 && bit (s.reg (canPage k)) 31 && !s.canFused k) s (s.modCan k (fun c => { c with st := 0 }))

/-- R369: CAN_WAKEk is asserted. -/
def execCanWake (k : Fin 24) (s : State) : Out := whenOk (!s.canFused k) s (s.canRecord k 3 (2 ^ 18))

/-- CAN_STAT (R369). -/
def State.canStat (s : State) (k : Nat) : W32 :=
  let c := s.canOf k
  BitVec.ofNat 32 (c.st * 2 ^ 30 + c.tec % 256 * 2 ^ 16 + c.rec_ % 256 * 2 ^ 8 + b2n c.sof.isSome)

/-- CSH_CTL (R375). -/
def State.cshCtl (s : State) (i : Nat) : W32 :=
  let x := s.share i
  BitVec.ofNat 32 (b2n (bit (s.reg (instPage (1024 + i) + 0x20)) 31) * 2 ^ 31 + (s.canOf x.can).st * 2 ^ 16 + x.can * 2 ^ 8)

/-- R375. -/
def execCshTxReq (rq : Req) (i : Fin 32) (w : W32) (s : State) : Out :=
  ok (s.instAccess rq (instPage (1024 + i) + 0x30) (1024 + i) (some w) (fun s =>
    let x := s.share i
    s.setShare i { x with pend := x.pend ||| w.truncate 8, done := x.done &&& ~~~(w.truncate 8) }))

/-- R375: cancels of a share's buffers. -/
def State.cshCancel (s : State) (i : Nat) (w : W32) : State :=
  (List.range 8).foldl (fun s n =>
    let x := s.share i
    if bit w n && x.pend.getLsbD n then
      (if ((s.canOf x.can).sof.map Prod.fst) = some (.share x.blk n) then
         s.modCan x.can (fun c => { c with sof := some (.share x.blk n, true) })
       else s.setShare i { x with pend := putBit x.pend n false })
    else s) s

/-- R375. -/
def execCshTxCancel (rq : Req) (i : Fin 32) (w : W32) (s : State) : Out :=
  ok (s.instAccess rq (instPage (1024 + i) + 0x34) (1024 + i) (some w) (fun s => s.cshCancel i w))

/-- R375. -/
def execCshRxfAck (rq : Req) (i : Fin 32) (w : W32) (s : State) : Out :=
  ok (s.instAccess rq (instPage (1024 + i) + 0x2C) (1024 + i) (some w) (fun s =>
    let x := s.share i
    s.setShare i { x with rxf := x.rxf.ack (bits w 5 0) }))

/-- R375: a write to CSH_RXF_CFG. -/
def State.cshRxfCfg (s : State) (i : Nat) (w : W32) : State :=
  let x := s.share i
  if x.rxf.held ≠ [] ∨ x.pend ≠ 0 ∨ bits w 5 0 = 0 ∨ 47 < bits w 5 0 then s
  else (s.setReg (instPage (1024 + i) + 0x24) (w &&& 0x3F)).setShare i { x with rxf := {} }

/-- R375: the register of message RAM that an offset of a share's window reaches. -/
def State.cshRam (s : State) (i off : Nat) : Nat :=
  let x := s.share i
  canRam x.can (64 + 48 * x.blk) + (off - 0x400)

/-! ## Other buses (R377 to R380) -/

/-- The page of bus controller `u`: LIN 0 to 15, SENT 16 to 23, SPI 24 to 35, I3C/I²C 36 to 43, UART 44 to 51, xSPI 52, 53. -/
def busPage (u : Nat) : Nat := 0x1045020000 + u * 0x1000

/-- A controller, and a change of it. -/
def State.busOf (s : State) (u : Nat) : BusCtl := Tbl.get (fun _ => ({} : BusCtl)) s.bus u
def State.setBus (s : State) (u : Nat) (x : BusCtl) : State := { s with bus := Tbl.set (fun _ => ({} : BusCtl)) s.bus u x }

/-- R378: the event of a controller's record: EVR (0) or ERR_EVR (1). -/
def busEvent (u i : Nat) : Nat :=
  if u < 16 then 480 + 2 * u + i
  else if u < 24 then 512 + 2 * (u - 16) + i
  else if u < 36 then 528 + (u - 24)
  else if u < 44 then 540 + (u - 36)
  else if u < 52 then 548 + (u - 44)
  else 556 + (u - 52)

/-- Records in a controller's EVR or ERR_EVR. -/
def State.busRecord (s : State) (u i flags : Nat) : State := s.record (busPage u + 0x10 + 4 * i) flags (some (busEvent u i))

/-- R379: the error flags [17:14] that a bus assigns. -/
def busErrMask (u : Nat) : BitVec 4 :=
  if u < 16 then 0xE else if u < 24 then 0xC else if u < 36 then 8 else if u < 52 then 0xE else 8

/-- Records the errors of a frame or transfer. -/
def State.busErr (s : State) (u : Nat) (err : BitVec 4) : State :=
  let e := (err &&& busErrMask u).toNat
  if e = 0 then s else s.busRecord u 1 (e * 2 ^ 14)

/-- Is a controller enabled: LIN 0 to 7 have their logic in PD23, the others in PD16. -/
def State.busOn (s : State) (u : Nat) : Bool := bit (s.reg (busPage u)) 31 && s.domain (if u < 8 then 23 else 16) == .on

/-- bus_STAT (R378). -/
def State.busStat (s : State) (u : Nat) : W32 :=
  let x := s.busOf u
  BitVec.ofNat 32 (b2n x.busy * 2 ^ 31 + x.rx.length * 2 ^ 16 + x.tx.length)

/-- R371: the element of a LIN or SENT frame; whether a serial SENT message is short or enhanced is open (log 5). -/
def State.busElement (s : State) (u : Nat) (ws : List W32) : List Byte × State :=
  if u < 16 then ((wordsBytes ws).take (16 + elLen (wordsBytes ws)), s)
  else
    let w := ws.getD 0 0
    let n := bits w 27 24
    let (e, s) := s.freshBool
    let id := if bit w 28 then 1 + b2n e else 0
    (wordsBytes [BitVec.ofNat 32 id, BitVec.ofNat 32 ((n + 1) / 2 * 16 + 3), 0, BitVec.ofNat 32 s.gtb] ++
      (leBytes 4 (bits w 23 0)).take ((n + 1) / 2), s)

/-- R378: a frame or word is received: its words enter the receive FIFO, LIN and SENT frames go to the gateway too. -/
def State.busRx (s : State) (u : Nat) (ws : List W32) (err : BitVec 4) : State :=
  let x := s.busOf u
  let room := 64 - x.rx.length
  let s := s.setBus u { x with rx := x.rx ++ ws.take room }
  let s := if room < ws.length then s.busRecord u 1 (2 ^ 18) else s
  let s := (s.busErr u err).busRecord u 0 (2 ^ 18)
  if u < 24 && bit (s.reg (busPage u)) 29 && err &&& busErrMask u == 0 then
    let (el, s) := s.busElement u ws
    s.gwIn (if u < 16 then 0x20 + u else 0x30 + (u - 16)) el
  else s

/-- R378. -/
def execBusFrameRx (u : Fin 54) (ws : List W32) (err : BitVec 4) (s : State) : Out :=
  if s.frozen then ok s else
  whenOk (s.busOn u) s (s.busRx u ws err)

/-- R378, R380: a transfer completes: one word, or the data words of a programmed xSPI command, leaves the transmit FIFO. -/
def State.busDone (s : State) (u : Nat) (err : BitVec 4) : State :=
  let x := s.busOf u
  let cmd := s.reg (busPage u + 0x40)
  let n := if u < 16 then 0 else if u < 52 then 1 else if bit cmd 24 then bits cmd 23 16 else 0
  let s := s.setBus u { x with tx := x.tx.drop n, busy := false, out := none }
  let s := if 52 ≤ u then (s.setReg (busPage u + 0x40) (putBit cmd 31 false)).setReg (busPage u + 0x48) 0 else s
  (s.busErr u err).busRecord u 0 (2 ^ 18)

/-- R378. -/
def execBusTransferDone (u : Fin 54) (err : BitVec 4) (s : State) : Out :=
  if s.frozen then ok s else
  whenOk (s.busOn u) s (s.busDone u err)

/-- R378: a push into the transmit FIFO. -/
def State.busTxd (s : State) (u : Nat) (w : W32) : State :=
  let x := s.busOf u
  if 64 ≤ x.tx.length then s.busRecord u 1 (2 ^ 18) else s.setBus u { x with tx := x.tx ++ [w] }

/-- R378. -/
def execBusTxdWrite (rq : Req) (u : Fin 54) (w : W32) (s : State) : Out :=
  ok (s.gWrite rq (busPage u + 0xC) w (fun s => s.busTxd u w))

/-- R378: a normal read of RXD pops one word. -/
def State.busRxd (s : State) (rq : Req) (u : Nat) : State :=
  let x := s.busOf u
  if rq.peek then s else s.setBus u { x with rx := x.rx.drop 1 }

/-- R379, R389: a schedule slot of a LIN commander starts: it publishes from the transmit FIFO, or sends what the gateway
placed for its identifier. A moored output is recessive (R435). -/
def execLinScheduleSlot (k : Fin 16) (n : Fin 48) (s : State) : Out :=
  if s.frozen then ok s else
  let e := s.reg (busPage k + 0x40 + 4 * n)
  let x := s.busOf k
  whenOk (s.busOn k && bit (s.reg (busPage k)) 30 && !x.busy && !s.moored) s
    (let id := bits e 5 0
     s.setBus k (if bit e 12 then { x with tx := x.tx.drop 6, busy := true, out := some (x.tx.take 6, 0, []) }
      else { x with
        gw := Tbl.set (fun _ => []) x.gw id [], busy := true, out := some ([], id, Tbl.get (fun _ => []) x.gw id) }))

/-- R380: a write to XSP_CMD. -/
def State.xspCmd (s : State) (k : Nat) (w : W32) : State :=
  let u := 52 + k
  let s := s.setReg (busPage u + 0x40) w
  if bit w 31 then s.setBus u { s.busOf u with busy := true } else s

/-- R380. -/
def execXspCmd (rq : Req) (k : Fin 2) (w : W32) (s : State) : Out :=
  ok (s.gWrite rq (busPage (52 + k) + 0x40) w (fun s => s.xspCmd k w))

/-- R380: does a memory-mapped read of a flash port wait. -/
def State.flashBusy (s : State) (port : Nat) : Bool :=
  bit (s.reg (busPage (52 + port) + 0x40)) 31 || bit (s.reg (busPage (52 + port) + 0x48)) 0

/-! ## GPIO and timers (R381 to R383) -/

/-- The page of a GPIO bank, and the registers of a timer channel. -/
def gpioPage (m : Nat) : Nat := 0x1049001000 + m * 0x1000
def tmrReg (t off : Nat) : Nat := 0x1049010000 + t * 0x40 + off

/-- Drives a line's output register. -/
def State.gpioOut (s : State) (g : Nat) (f : Bool → Bool) : State :=
  let a := gpioPage (g / 32) + 4
  s.setReg a (putBit (s.reg a) (g % 32) (f (bit (s.reg a) (g % 32))))

/-- R381. -/
def execGpioSet (rq : Req) (m : Fin 6) (w : W32) (s : State) : Out :=
  ok (s.gWrite rq (gpioPage m + 8) w (fun s => s.setReg (gpioPage m + 4) (s.reg (gpioPage m + 4) ||| w)))

/-- R381. -/
def execGpioClr (rq : Req) (m : Fin 6) (w : W32) (s : State) : Out :=
  ok (s.gWrite rq (gpioPage m + 0xC) w (fun s => s.setReg (gpioPage m + 4) (s.reg (gpioPage m + 4) &&& ~~~w)))

/-- GPIO_IN (R381). -/
def State.gpioIn (s : State) (m : Nat) : W32 :=
  BitVec.ofNat 32 ((List.range 32).foldl (fun n i => n + b2n (Tbl.get (fun _ => false) s.tgp.inp (32 * m + i)) * 2 ^ i) 0)

/-- R383: a timer in capture mode stores the time of an edge of its line. -/
def State.tmrCapture (s : State) (g : Nat) (lvl : Bool) (t : Nat) : State :=
  let c := s.reg (tmrReg t 0)
  let e := bits c 12 11
  if bit c 31 && bits c 30 28 == 2 && bits c 23 16 == g && (if lvl then e == 1 || e == 3 else e == 2 || e == 3) then
    (s.setRegs [(tmrReg t 0x14, BitVec.ofNat 32 s.gtb), (tmrReg t 0x18, BitVec.ofNat 32 (s.gtb / 2 ^ 32))]).record
      (tmrReg t 0x1C) (2 ^ 17) (some (1024 + t))
  else s

/-- R382, R383: the synchronised level of a line, in every state in which PD22 is clocked. -/
def execGpioEdge (g : Fin 192) (lvl : Bool) (s : State) : Out :=
  if s.frozen || s.domain 22 != .on then ok s else
  if Tbl.get (fun _ => false) s.tgp.inp g = lvl then ok s
  else
    let s := { s with tgp := { s.tgp with inp := Tbl.set (fun _ => false) s.tgp.inp g lvl } }
    let e := bits (s.reg (0x1049007000 + 8 * g)) 1 0
    let s := if (if lvl then e == 1 || e == 3 else e == 2 || e == 3) then
        s.record (0x1049007004 + 8 * g) (if lvl then 2 ^ 18 else 2 ^ 17) (some (832 + g))
      else s
    ok ((List.range 96).foldl (fun s t => s.tmrCapture g lvl t) s)

/-- The compare instant in force, and its change. -/
def State.tmrCmp (s : State) (t : Nat) : Nat := Tbl.get (fun _ => (0 : Nat)) s.tgp.cmp t
def State.setTmr (s : State) (t cmp : Nat) (wait high : Bool) : State :=
  { s with
      tgp := { s.tgp with
      cmp := Tbl.set (fun _ => (0 : Nat)) s.tgp.cmp t cmp, wait := Tbl.set (fun _ => false) s.tgp.wait t wait,
      high := Tbl.set (fun _ => false) s.tgp.high t high, miss := Tbl.set (fun _ => false) s.tgp.miss t false } }

/-- TMR_PER and TMR_DUTY as they are taken (R383). -/
def State.tmrPer (s : State) (t : Nat) : Nat := max 1000 (s.reg (tmrReg t 0xC)).toNat
def State.tmrDuty (s : State) (t : Nat) : Nat := min (s.tmrPer t) (s.reg (tmrReg t 0x10)).toNat

/-- R383: a line of a channel whose OUT is 1. -/
def State.tmrLine (s : State) (t : Nat) (f : Bool → Bool) : State :=
  let c := s.reg (tmrReg t 0)
  if bit c 15 && decide (bits c 23 16 < 192) then s.gpioOut (bits c 23 16) f else s

/-- R383: a compare matches; `miss` when its instant was past as it took effect or a step passed it. -/
def State.tmrMatch (s : State) (t : Nat) (miss : Bool) : State :=
  let c := s.reg (tmrReg t 0)
  let cmp := s.tmrCmp t
  let per := s.tmrPer t
  let duty := s.tmrDuty t
  let next := fun (d : Nat) => if miss then cmp + ((s.gtb - cmp) / per + 1) * per else cmp + d
  let note := fun (s : State) => s.record (tmrReg t 0x1C) (2 ^ 18 + b2n miss * 2 ^ 16) (some (1024 + t))
  if bits c 30 28 = 3 then
    (if Tbl.get (fun _ => false) s.tgp.high t then (s.tmrLine t (fun _ => false)).setTmr t (next (per - duty)) true false
     else if duty = 0 then note ((s.tmrLine t (fun _ => false)).setTmr t (next per) true false)
     else if duty = per then note ((s.tmrLine t (fun _ => true)).setTmr t (next per) true false)
     else note ((s.tmrLine t (fun _ => true)).setTmr t (next duty) true true))
  else
    let act := bits c 14 13
    let s := s.tmrLine t (fun b => if act = 0 then true else if act = 1 then false else if act = 2 then !b else b)
    note (if bits c 30 28 = 1 then s.setTmr t (next per) true false else s.setTmr t cmp false false)

/-- Does a channel compare: it is enabled, in a mode that compares, and waits for its instant. -/
def State.tmrArmed (s : State) (t : Nat) : Bool :=
  let c := s.reg (tmrReg t 0)
  bit c 31 && (bits c 30 28 == 0 || bits c 30 28 == 1 || bits c 30 28 == 3) && Tbl.get (fun _ => false) s.tgp.wait t

/-- R383: a compare instant takes effect; one already past matches at once. -/
def State.tmrTake (s : State) (t : Nat) : State := if s.tmrArmed t && decide (s.tmrCmp t < s.gtb) then s.tmrMatch t true else s

/-- R383: a write to TMR_CMP_HI. -/
def State.tmrCmpHi (s : State) (t : Nat) (w : W32) : State :=
  ((s.setReg (tmrReg t 8) w).setTmr t (w.toNat * 2 ^ 32 + (s.reg (tmrReg t 4)).toNat) true false).tmrTake t

/-- A write to TMR_CFG. -/
def State.tmrCfg (s : State) (t : Nat) (w : W32) : State :=
  let was := bit (s.reg (tmrReg t 0)) 31
  let s := s.setReg (tmrReg t 0) (w &&& 0xF0FFF800)
  if !was && bit w 31 then s.tmrTake t else s

/-- R383. -/
def execTmrCmpHiWrite (rq : Req) (t : Fin 96) (w : W32) (s : State) : Out :=
  ok (s.gWrite rq (tmrReg t 8) w (fun s => s.tmrCmpHi t w))

/-- R383: the first tick at or after a compare instant. -/
def execTimerMatch (t : Fin 96) (s : State) : Out :=
  whenOk (s.tmrArmed t && decide (s.tmrCmp t ≤ s.gtb) && !s.frozen && s.domain 22 == .on) s (s.tmrMatch t (Tbl.get (fun _ => false) s.tgp.miss t))

end Sys2Proof.Machine
end

