-- ==== Sys2Proof/Machine/Berths.lean ====
section
/-! DEFINITION. Berths, their threads and watchdogs, and the resets of threads, instances and berths (R38, R299, R310 to R323). -/

namespace Sys2Proof.Machine

/-! ## Threads (R38, R299) -/

/-- The context that assignment and a THREAD reset give (R38, R83, R149, R168). -/
def State.resetCtx (s : State) (b : Nat) : Ctx :=
  let x := s.berth b
  let c : Ctx := { st := putBit 0xBD 8 x.strict, ceil := x.ceil }
  let c := (c.setSysr 0x24 x.xvbH).setSysr 0x25 x.xspH
  (c.setSysr 0x48 (BitVec.ofNat 36 (x.s2Base / 0x2000))).setSysr 0x49 (BitVec.ofNat 36 (b2n x.s2En * 2 ^ 8 + b))

/-- R168: a thread's stage-2 registers take its berth's values. -/
def State.putS2 (s : State) (t : Nat) : State :=
  let x := s.berth (s.th t).berth
  s.modTh t (fun y =>
    let put (c : Ctx) : Ctx := (c.setSysr 0x48 (BitVec.ofNat 36 (x.s2Base / 0x2000))).setSysr 0x49
          (BitVec.ofNat 36 (b2n x.s2En * 2 ^ 8 + y.berth))
    { y with ctx := put y.ctx, bun := y.bun.map (fun b => { b with old := put b.old }) })

/-- The registers that wait for SYNC.C to come into force (R82): XVB of S and of H, S1_BASE, S1_CTL. -/
def Ctx.inForce (c : Ctx) : Tbl Word := c.sr.filter (fun e => [0x14, 0x24, 0x40, 0x41].contains e.1)

/-- The threads of a berth. -/
def State.berthThreads (s : State) (b : Nat) : List Nat := s.threads.filter (fun t => (s.th t).berth == b)

/-- R164: LOCKUP_N is released when no thread is LOCKED and its minimum low time is over. -/
def State.lockupUpdate (s : State) : State :=
  if s.threads.any (fun t => (s.th t).state == .locked) || s.lockMin then s else { s with lockLow := false }

/-- R299, R38: a thread becomes HELD in a berth. -/
def State.assign (s : State) (t b : Nat) : State :=
  let c := s.resetCtx b
  s.setTh t { state := .held, berth := b, ctx := c, srNow := c.inForce, sbOrder := (s.th t).sbOrder }

/-- R299, R272: a thread becomes FREE. -/
def State.release (s : State) (t : Nat) : State :=
  (((s.disableTargets t).unqueue t).setTh t { sbOrder := (s.th t).sbOrder }).lockupUpdate

/-- The primary core of the pair that a core belongs to. -/
def pairOf (c : Nat) : Nat := c / 2 * 2

/-- R63: is a thread of a pair that was taken out of service; it stays LOCKED until a SYS or stronger reset. -/
def State.outOfService (s : State) (t : Nat) : Bool := Tbl.get (fun _ => false) s.hm.outPair (pairOf (coreOf t))

/-- R63: a reset of a thread of a pair that mismatched re-initialises both cores. -/
def State.pairReset (s : State) (t : Nat) : State :=
  let c := pairOf (coreOf t)
  if Tbl.get (fun _ => (0 : Nat)) s.hm.pairAt c = 0 then s
  else
    let mine := fun (k : Nat) => k == c || k == c + 1
    let s := { s with
        tlbs := s.tlbs.filter (fun e =>
        match e.loc with
        | .itlb k => !mine k
        | .dtlb k => !mine k
        | _ => true) }
    let s := s.modCoh (fun h => { h with
      l1d := h.l1d.filter (fun e => !mine (e.1 / 2 ^ 34)), l1i := h.l1i.filter (fun e => !mine (e.1 / 2 ^ 34)) })
    let s := (s.threads.filter (fun u => mine (coreOf u))).foldl (fun s u =>
      s.modTh u (fun x => { x with buf := none, fetch := if x.bun.isNone && x.fetch == .loaded then .empty else x.fetch })) s
    s.modHm (fun h => { h with pairAt := Tbl.set (fun _ => (0 : Nat)) h.pairAt c (s.time + 2) })

/-- R38, R39: a THREAD reset reaches a thread: it is HELD at once; the context follows. -/
def State.threadReset (s : State) (t : Nat) : State :=
  let x := s.th t
  let s := (((s.launchLost t).clearTargets t).unqueue t).pairReset t
  (s.setTh t { state := .held, berth := x.berth, ctx := { x.ctx with wPend := 0 }, resetting := true, startPl := x.startPl,
               auto := x.auto, sbOrder := x.sbOrder, par := x.par }).lockupUpdate

/-- R38: the context has reached its reset values. -/
def State.contextReset (s : State) (t : Nat) : State :=
  let x := s.th t
  let c := s.resetCtx x.berth
  s.setTh t { x with ctx := c, srNow := c.inForce, resetting := false, par := [] }

/-- R395: a GATED cluster with a thread in RUN is on again. -/
def State.ungate (s : State) (n : Nat) : State :=
  if s.domain (2 + n) == .gated && s.pwr.sleep == .awake && s.threads.any (fun t => clusterOf t == n && (s.th t).state == .run) then
    s.setDom (2 + n) .on
  else s

/-- R299: a HELD thread starts at an address and PL, or returns to its remembered state. -/
def State.startTh (s : State) (t : Nat) (pc : Word) (pl : Nat) : State :=
  let x := s.th t
  if x.ran then (s.setTh t { x with state := x.memo, bnd := x.memo == .run }).ungate (clusterOf t)
  else
    ((s.setTh t { x with
      state := .run, memo := .run, ran := true, auto := true, startPl := pl, bnd := true,
      ctx := { x.ctx with pc := pc, st := putBits x.ctx.st 0 2 pl } }).modHm (fun h =>
        { h with startPc := Tbl.set (fun _ => (0 : Word)) h.startPc t pc })).ungate (clusterOf t)

/-- R2, R3, R60: is a GTN's thread fused or a checker core's. -/
def State.gtnAbsent (s : State) (t : Nat) : Bool := s.clusterFused (clusterOf t) || s.checker (coreOf t)

/-- A thread command: its payload, the thread's existence and its berth are checked first. -/
def State.threadCommand (s : State) (m op : Nat) (mask : W32) (own : Bool) (f : State → Sub → Nat → Reply) : State :=
  s.harbour m op (fun s q =>
    let t := bits (q.q 0) 9 0
    if (q.q 0) &&& ~~~mask ≠ 0 then .fail stDenied 8
    else if s.gtnAbsent t then .fail stNoResource 1
    else if own && !((s.th t).state != .free && (s.th t).berth == q.b) then .fail stDenied 3
    else f s q t)

/-- R396: a cluster that is OFF is powered when one of its threads is assigned. -/
def State.powered (s : State) (n : Nat) : State := if s.domain (2 + n) = .off then s.wakeDomain (2 + n) else s

/-- R299. -/
def execThreadAssign (m : Fin 69) (s : State) : Out :=
  ok (s.threadCommand m.val 0x0310 0x3FF false (fun s q t =>
    if (s.th t).state ≠ .free then .fail stDenied 9 else .done ((s.assign t q.b).powered (clusterOf t)) []))

/-- R299, R149, R249. -/
def execThreadStart (m : Fin 69) (s : State) : Out :=
  ok (s.threadCommand m.val 0x0311 0x303FF true (fun s q t =>
    let pl := bits (q.q 0) 17 16
    if pl = 3 ∨ bits (q.q 1) 1 0 ≠ 0 ∨ bits (q.q 2) 31 4 ≠ 0 then .fail stDenied 8
    else if (s.th t).state ≠ .held then .fail stDenied 9
    else if pl = 2 ∧ q.b ≠ 0 then .fail stDenied 5
    else if s.patLoaded (coreOf t) = 0 then .fail stNotReady 2
    else .done (s.startTh t (BitVec.ofNat 36 (bits (q.q 2) 3 0 * 2 ^ 32 + (q.q 1).toNat)) pl) []))

/-- R299, R65: the hold is on its way to the thread's core. -/
def execThreadHold (m : Fin 69) (s : State) : Out :=
  ok (s.threadCommand m.val 0x0312 0x3FF true (fun s _ t =>
    if (s.th t).state = .locked then .fail stDenied 9
    else if (s.th t).state = .held then .done s []
    else .done (s.modTh t (fun x => { x with holdSent := true })) []))

/-- R38, R63: the response follows when the context has reached its reset values. -/
def execThreadReset (m : Fin 69) (s : State) : Out :=
  ok (s.threadCommand m.val 0x0313 0x3FF true (fun s _ t =>
    if s.outOfService t then .fail stDenied 6
    else .wait (if (s.th t).resetting then s else s.threadReset t)))

/-- R299, R272. -/
def execThreadRelease (m : Fin 69) (s : State) : Out :=
  ok (s.threadCommand m.val 0x0314 0x3FF true (fun s _ t =>
    if (s.th t).state ≠ .held ∧ (s.th t).state ≠ .locked then .fail stDenied 9 else .done (s.release t) []))

/-- R38: 64 cycles after a THREAD reset; a THREAD_RESET that waits for it is answered. -/
def execThreadContextResetDone (t : Gtn) (s : State) : Out :=
  if !(s.th t).resetting then ok s
  else
    let s := s.contextReset t
    match s.hm.mbx.find? (fun e => e.2.st == 2 && (s.request e.1).op == 0x0313 && bits ((s.request e.1).q 0) 9 0 == t.val) with
    | some e => ok ((s.hostCmd (s.request e.1)).answer (s.request e.1) [r0 stOk 0])
    | none => ok s

/-! ## Instance resets (R320 to R323) -/

/-- The instances of a berth. -/
def State.berthInsts (s : State) (b : Nat) : List Nat :=
  (s.hm.insts.map Prod.fst).filter (fun i => (s.inst i).on && (s.inst i).berth == b)

/-- INST_DROP counts dropped work items (R319). -/
def State.dropped (s : State) (i n : Nat) : State :=
  let v := bits (s.reg (instPage i + 0x18)) 15 0
  s.setReg (instPage i + 0x18) (BitVec.ofNat 32 (min 0xFFFF (v + n)))

/-- Is what waits a read of a PCI Express peer. -/
def Wait.peerRead : Wait → Bool
  | .pcie (.bar0 _ _ _ none _) => true
  | _ => false

/-- R320: the work items of an instance that wait leave: a peer's read is answered Unsupported Request, the others are dropped and
counted. -/
def State.frogWaits (s : State) (i : Nat) : State :=
  let mine := s.waits.filter (fun x => x.2.inst == some i)
  let s := { s with waits := s.waits.filter (fun x => x.2.inst != some i) }
  let s := if mine.any (fun x => x.2.peerRead) then { s with pcie := { s.pcie with cpl := some (1, false, []) } } else s
  s.dropped i (mine.filter (fun x => !x.2.peerRead)).length

/-- R320: the work items that a FROG reset of an instance drops, counted. -/
def State.frogDrop (s : State) (i : Nat) : State :=
  let s := s.frogWaits i
  if i / 256 = 3 then
    let q := i % 256
    let mine := fun (f : EFrame) => f.host == some q
    let rx := (Tbl.get (fun _ => ([] : List EFrame)) s.eth.hostRx q).length
    let tx := s.eth.egress.foldl (fun n e => n + (e.2.filter mine).length) 0
    ({ s with
        eth := { s.eth with
          hostRx := Tbl.del s.eth.hostRx q,
          egress := (s.eth.egress.map (fun (e : Nat × List EFrame) => (e.1, e.2.filter (fun f => !mine f)))).filter (fun e => !e.2.isEmpty) } }).dropped i (rx + tx)
  else if i / 256 = 4 then
    let x := s.share (i % 256)
    let live := (s.canOf x.can).sof
    let keep := fun (n : Nat) => match live with
      | some (.share j k, _) => j == x.blk && k == n
      | _ => false
    let gone := (List.range 8).filter (fun n => x.pend.getLsbD n && !keep n)
    (s.setShare (i % 256) { x with pend := gone.foldl (fun p n => putBit p n false) x.pend }).dropped i gone.length
  else s

/-- R320, R321: an instance reset begins. -/
def State.instReset (s : State) (i left : Nat) (frog destroy : Bool) (hush : Bool := false) : State :=
  let s := s.modInst i (fun x => { x with
    rst := true, frog := frog, tout := false, left := left, destroy := destroy, hush := hush })
  let s := s.setReg (instPage i + 0x18) 0
  if frog then s.frogDrop i
  else if i / 256 = 3 then { s with eth := { s.eth with hostRx := Tbl.del s.eth.hostRx (i % 256) } }
  else s

/-- R321: an instance's registers return to their reset values; SEQ of INST_EVR and INST_DROP stay. -/
def State.instRegs (s : State) (i : Nat) : State :=
  let pg := instPage i
  let s := if i / 256 = 4 then (List.range 768).foldl (fun s n => s.setReg (s.cshRam (i % 256) (0x400 + 4 * n)) 0) s else s
  let s := s.setRegs [(pg + 8, putBits (s.reg (pg + 8)) 0 20 0), (pg + 0xC, 0), (pg + 0x10, 0), (pg + 0x14, 0)]
  let s := { s with regs := s.regs.filter (fun e => !(decide (pg + 0x20 ≤ e.1) && decide (e.1 < pg + 0x1000))) }
  { s with
      eth := { s.eth with unsig := Tbl.del s.eth.unsig i },
      csh := if i / 256 = 4 then Tbl.set (fun _ => ({} : Share)) s.csh (i % 256)
        { can := (s.share (i % 256)).can, blk := (s.share (i % 256)).blk } else s.csh }

/-- R186: the entries of an instance's IO context leave the IO TLB. -/
def State.ioInvalidate (s : State) (ctx : Nat) : State :=
  let c := Tbl.get (fun _ => ({} : IoCtx)) s.ioctx ctx
  { s with
      tlbs := s.tlbs.filter (fun e =>
      !(e.loc == .io && e.berth == c.berth && e.asid == (if c.s1en then some c.asid.toNat else none))) }

/-- R300: the first event number of an instance's two sources; they go to a berth, cleared (R272). -/
def State.instEvents (s : State) (i b : Nat) : State := (s.clearEntry (instEvent i) b).clearEntry (instEvent i + 1) b

/-- R299, R300: an instance leaves: page, context and events. -/
def State.instGone (s : State) (i : Nat) : State :=
  let x := s.inst i
  let s := (s.mapOut x.berth x.ipa 1).getD s
  let s := { s with ioctx := Tbl.del s.ioctx x.ctx }
  let s := s.instEvents i 0
  let s := if i / 256 = 4 then
      let y := s.share (i % 256)
      (s.modCan y.can (fun c => { c with shares := Tbl.del c.shares y.blk })).setShare (i % 256) {}
    else s
  s.setInst i {}

/-- R363: the FLR bit of PCE_FN_STAT. -/
def State.flrSet (s : State) (f : Nat) (b : Bool) : State := { s with pcie := { s.pcie with flr := putBit s.pcie.flr f b } }

/-- R321: an instance reset completes. -/
def State.instResetEnds (s : State) (i : Nat) : State :=
  let x := s.inst i
  let s := if i / 256 = 5 then s.flrSet (i % 256) false else s
  let s := (if i / 256 = 4 then s else s.ioInvalidate x.ctx).instRegs i
  let s := s.modInst i (fun y => { y with rst := false, hush := false })
  let s := if x.hush then s else s.signalBerth x.berth 4
  let s := match s.accepted (fun a => (a.opcode == 0x0403 || a.opcode == 0x0402) && a.objs.contains (.inst i)) with
    | some a => s.workEnds a (r0 stOk (if a.opcode = 0x0403 then b2n x.tout else 0)) []
    | none => s
  if x.destroy then s.instGone i else s

/-- R321. -/
def execInstanceResetComplete (i : Fin 2048) (s : State) : Out :=
  whenOk ((s.inst i.val).rst && s.instIdle i.val) s (s.instResetEnds i.val)

/-- R322: a DRAIN that still runs at TIMEOUT continues as FROG. -/
def execInstResetTimeout (i : Fin 2048) (s : State) : Out :=
  whenOk ((s.inst i.val).rst && !(s.inst i.val).frog && (s.inst i.val).left == 0 && !s.frozen) s
    ((s.modInst i.val (fun x => { x with frog := true, tout := true })).frogDrop i.val)

/-- R323, R363: a Function Level Reset turns a DRAIN into FROG, or runs a FROG reset of its own; the function's own enables and
masks return to what they were before configuration. -/
def State.functionReset (s : State) (f : Nat) : State :=
  let i := 1280 + f
  let s := { s with
    pcie := { s.pcie with
      bme := putBit s.pcie.bme f false, msix := putBit s.pcie.msix f false, fmask := putBit s.pcie.fmask f false,
      vmask := Tbl.del s.pcie.vmask f, pba := Tbl.del s.pcie.pba f } }
  let x := s.inst i
  if !x.on then s
  else if x.rst then (if x.frog then s else (s.modInst i (fun y => { y with frog := true })).frogDrop i).flrSet f true
  else (s.instReset i 0 true false).flrSet f true

/-- R323. -/
def execFunctionLevelReset (f : Fin 16) (s : State) : Out := ok (s.functionReset f.val)

/-! ## Berth resets (R314, R315) -/

/-- R272, R314: every entry and copy of a berth is cleared, with ownership kept, and for a doorbell with its ACC kept (R310). -/
def State.clearBerthEntries (s : State) (b : Nat) : State :=
  let s := (List.range 1536).foldl (fun s e =>
    if rteOwner (s.rteCfg e) = b ∧ !bit (s.rteCfg e) 19 then
      let acc := if 1280 ≤ e then s.reg (bellAddr (e - 1280) + 0x40) else 0
      let s := s.clearEntry e b
      if 1280 ≤ e then s.setReg (bellAddr (e - 1280) + 0x40) acc else s
    else s) s
  (List.range 16).foldl (fun s i => s.clearEntry (copyEntry b i) b) s

/-- A new window of a berth's watchdog (R317). -/
def State.wdWindow (s : State) (b : Nat) : State :=
  s.modBerth b (fun x => { x with elapsed := 0, wdArmed := false, warned := false, wdWaive := false })

/-- R314, steps 1 to 4. -/
def State.berthReset (s : State) (b : Nat) (auto : Bool) : State :=
  let s := (s.mbxHush b).modBerth b (fun x => { x with st := .resetting, auto := auto, quiesced := false })
  let s := ((s.berthThreads b).filter (fun t => !s.outOfService t)).foldl State.threadReset s
  let s := ((s.berthInsts b).filter (fun i => !(s.inst i).rst)).foldl (fun s i => s.instReset i 0 true false true) s
  (s.clearBerthEntries b).secBerthCancel b

/-- R314, step 5. -/
def execBerthResetQuiesced (b : BerthId) (s : State) : Out :=
  whenOk ((s.berth b.val).st == .resetting && (s.berthInsts b.val).all (fun i => !(s.inst i).rst) &&
    (s.berthThreads b.val).all (fun t => !(s.th t).resetting && (s.sbOf t).isEmpty)) s
    (s.modBerth b.val (fun x => { x with quiesced := true }))

/-- R314, steps 6 to 8. -/
def execBerthResetComplete (b : BerthId) (s : State) : Out :=
  let x := s.berth b.val
  if !(x.st == .resetting && x.quiesced) then ok s
  else
    let s := (s.invalidateBerth b.val).mbxReset b.val
    let s := (s.modBerth b.val (fun x => { x with st := .ready, quiesced := false })).wdWindow b.val
    let s := if x.auto then ((s.berthThreads b.val).filter (fun t => (s.th t).auto && (s.th t).state == .held)).foldl (fun s t =>
        s.startTh t (Tbl.get (fun _ => (0 : Word)) s.hm.startPc t) (s.th t).startPl) s else s
    match s.accepted (fun a => a.opcode == 0x0303 && a.berth == b.val) with
    | some a => ok (s.workEnds a (r0 stOk 0) [])
    | none => ok s

/-! ## The berth watchdog (R316, R317) -/

/-- The watchdog page of a berth (R316). -/
def wdPage (b : Nat) : Nat := 0x1049040000 + b * 0x1000

/-- R316: does a watchdog page serve a request: (served, in effect). -/
def State.wdServes (s : State) (rq : Req) (b : Nat) : Bool :=
  s.guardOk rq || ((b == 0 || (s.berth b).st != .absent) && rq.berth.val == b &&
    (rq.cls == .thread || rq.cls == .dma || rq.cls == .gateway || rq.cls == .switch || rq.cls == .pcie))

/-- TGP_BWD_STAT (R316). -/
def State.wdStat (s : State) (b : Nat) : W32 :=
  let x := s.berth b
  BitVec.ofNat 32 (b2n x.wdEn * 2 ^ 31 + b2n x.wdAct * 2 ^ 30 + b2n x.wdArmed * 2 ^ 29 + min 0xFFFFFF (x.elapsed / 1000))

/-- R317, R313, R426: a failure: 0 EXP, 1 EARLY, 2 BADKEY. -/
def State.wdFail (s : State) (b kind : Nat) : State :=
  let x := s.berth b
  let s := s.record (wdPage b + 8) (2 ^ (17 - kind)) none
  let s := ((s.count (0x100 + b) 2).count 0x40 6).logErr 0xA 1 none b 0
    (kind + b2n x.wdAct * 4 + min 0xFFFFFF (x.elapsed / 1000) * 2 ^ 8) 0
  let s := s.wdWindow b
  if b = 0 ∧ !s.hm.full then
    let v := s.reg 0x104A004000
    (s.setReg 0x104A004000 (putBits v 8 2 (satInc 3 (bits v 9 8)))).sysReset 2
  else if x.wdAct then s
  else if b = 0 then s.deviceReset 4 1 0 false
  else if x.st = .ready then s.berthReset b true
  else s

/-- R317: a write to TGP_BWD_SVC. -/
def State.wdService (s : State) (b : Nat) (w : W32) : State :=
  let x := s.berth b
  if !x.wdEn then s
  else if w = 0xA5 ∧ !x.wdArmed then s.modBerth b (fun x => { x with wdArmed := true })
  else if w = 0x5A ∧ x.wdArmed then
    (if x.elapsed / 1000 < x.wdLb ∧ !x.wdWaive then s.wdFail b 1 else s.wdWindow b)
  else s.wdFail b 2

/-- R316, R317. -/
def execWatchdogServiceWrite (rq : Req) (b : BerthId) (w : W32) (s : State) : Out :=
  ok (s.access rq (wdPage b.val) false (some w) (fun s =>
    if s.wdServes rq b.val then s.wdService b.val w else s.guardRefuse rq (wdPage b.val) true))

/-- R317: ELAPSED reaches UB less an eighth. -/
def execWatchdogWarning (b : BerthId) (s : State) : Out :=
  let x := s.berth b.val
  whenOk (x.wdEn && !x.warned && !s.frozen && decide (x.wdUb - x.wdUb / 8 ≤ x.elapsed / 1000)) s
    (((s.modBerth b.val (fun x => { x with warned := true })).record (wdPage b.val + 8) (2 ^ 18) none).signalBerth b.val 2)

/-- R317: ELAPSED reaches UB. -/
def execWatchdogExpiry (b : BerthId) (s : State) : Out :=
  let x := s.berth b.val
  whenOk (x.wdEn && !s.frozen && decide (x.wdUb ≤ x.elapsed / 1000)) s (s.wdFail b.val 0)

/-! ## The berth commands (R299) -/

/-- R299, R311. -/
def execBerthCreate (m : Fin 69) (s : State) : Out :=
  ok (s.harbour m.val 0x0301 (fun s q =>
    let x : Berth := { st := .ready, strict := bit (q.q 0) 0, ceil := bits (q.q 0) 5 4,
                       xvbH := BitVec.ofNat 36 (bits (q.q 1) 23 0 * 0x1000),
                       xspH := BitVec.ofNat 36 (bits (q.q 3) 3 0 * 2 ^ 32 + (q.q 2).toNat) }
    if (q.q 0) &&& 0xFFFFFFCE ≠ 0 ∨ bits (q.q 1) 31 24 ≠ 0 ∨ bits (q.q 3) 31 4 ≠ 0 then .fail stDenied 8
    else if q.b = 0 ∨ (s.berth q.b).st ≠ .absent then .fail stDenied 9
    else if !x.strict && s.strictOnly then .fail stDenied 5
    else
      let s := { s.setBerth q.b x with errCnt := s.errCnt.filter (fun e => e.1 / 32 != 0x100 + q.b) }
      let s := s.setReg (wdPage q.b + 8) 0
      match s.newTop q.b with
      | none => .fail stNoResource 2
      | some s =>
        match State.mapAll q.b (identityPages q.b) s with
        | none => .fail stNoResource 2
        | some s => .done s []))

/-- R299: the threads of the berth are held first. -/
def execBerthDestroy (m : Fin 69) (s : State) : Out :=
  ok (s.harbour m.val 0x0302 (fun s q =>
    if q.b = 0 then .fail stDenied 5
    else
      let s := (s.mbxHush q.b).modBerth q.b (fun x => { x with st := .destroying, wdEn := false })
      .accept ((s.berthThreads q.b).foldl (fun s t => s.modTh t (fun x =>
        { x with holdSent := x.state == .run || x.state == .wait })) s) []))

/-- R299, R314. -/
def execBerthReset (m : Fin 69) (s : State) : Out :=
  ok (s.harbour m.val 0x0303 (fun s q =>
    if bits (q.q 0) 31 1 ≠ 0 then .fail stDenied 8
    else if q.b = 0 then .fail stDenied 5
    else .accept (s.berthReset q.b (bit (q.q 0) 0)) []))

/-- R299. -/
def execBerthStatus (m : Fin 69) (s : State) : Out :=
  ok (s.harbour m.val 0x0304 (fun s q =>
    let x := s.berth q.b
    let ts := s.berthThreads q.b
    let locked := (ts.filter (fun t => (s.th t).state == .locked)).length
    .done s [BitVec.ofNat 32 (b2n x.strict + x.ceil * 16), BitVec.ofNat 32 (ts.length + locked * 2 ^ 16),
             BitVec.ofNat 32 (s.berthInsts q.b).length,
             BitVec.ofNat 32 ((x.maps.filter (fun o => !o.dev)).foldl (fun n o => n + o.n) 0)]))

/-- R299, R317. -/
def execBerthWdog (m : Fin 69) (s : State) : Out :=
  ok (s.harbour m.val 0x0305 (fun s q =>
    let ub := (q.q 0).toNat
    let lb := (q.q 1).toNat
    if ub = 0 ∨ 10000000 < ub ∨ ub ≤ lb ∨ bits (q.q 2) 31 2 ≠ 0 then .fail stDenied 8
    else
      let en := bit (q.q 2) 0
      let s := s.modBerth q.b (fun x => { x with wdEn := en, wdAct := bit (q.q 2) 1, wdUb := ub, wdLb := lb, wdArmed := false })
      .done (if en then s.wdWindow q.b else s) []))

/-- R299, R233: the cluster's agent must be dead. -/
def execClusterRestart (m : Fin 69) (s : State) : Out :=
  ok (s.harbour m.val 0x0306 (fun s q =>
    let n := bits (q.q 0) 2 0
    if bits (q.q 0) 31 3 ≠ 0 then .fail stDenied 8
    else if s.clusterFused n then .fail stNoResource 1
    else if !s.agentDead n then .fail stDenied 9
    else .accept s []))

/-- R233, R299: the cluster's L2 is empty and its agent answers again. -/
def State.clusterBack (s : State) (n : Nat) : State :=
  ((s.modCoh (fun h => { h with dead := putBit h.dead n false })).emptyAgent n).emptyL1s n

/-! ## The end of BERTH_DESTROY (R299) -/

/-- R483: a counter unit goes to an owner: zeroed, with the pages of the berth mapped or removed
(berth 0 has them by R311). -/
def State.cntGive (s : State) (u : Nat) (o : Option Nat) : Option State :=
  let pgs := fun (b : Nat) => if b = 0 then [] else [cntPage u / 4096, smpPage u / 4096]
  let s := match s.cntOwner u with
    | some b => (pgs b).foldl (fun (s : State) p => ((s.mapOut b p 1).getD s).invalidatePages b p 1) s
    | none => s
  let s := s.modPerf (fun p => { p with owner := Tbl.set (fun _ => (none : Option Nat)) p.owner u o })
  let s := s.cntZero u
  let s := s.setReg (cntPage u + 4) 0
  let s := (List.range 16).foldl (fun s i => s.setReg (cntPage u + 0x40 + 4 * i) 0) s
  match o with
  | none => some s
  | some b => State.mapAll b ((pgs b).map (fun p => devMap p p 1)) s

/-- The alarm page of alarm a does not stand among the register maps; its owner does (R308). -/
def State.alarmGive (s : State) (a b : Nat) : State :=
  { s.clearEntry (1176 + a) b with alarms := Tbl.set (fun _ => (0 : Nat)) s.alarms a b }

/-- R272, R310: what a destroyed berth held returns to berth 0. -/
def State.berthReturns (s : State) (b : Nat) : State :=
  let s := (List.range 1536).foldl (fun s e => if rteOwner (s.rteCfg e) = b then s.clearEntry e 0 else s) s
  let s := (List.range 16).foldl (fun s i => s.clearEntry (copyEntry b i) b) s
  let s := s.secBerthGone b
  let s := (List.range 32).foldl (fun s u => if s.cntOwner u = some b then (s.cntGive u none).getD s else s) s
  (List.range 8).foldl (fun s a => if Tbl.get (fun _ => (0 : Nat)) s.alarms a = b then s.alarmGive a 0 else s) s

/-- R299: the next steps of a BERTH_DESTROY that can be made; `some` when it has ended. -/
def State.destroyWork (s : State) (b : Nat) : State × Bool :=
  let ts := s.berthThreads b
  if ts.any (fun t => (s.th t).state != .held && (s.th t).state != .locked || (s.th t).resetting) then (s, false)
  else
    let s := ts.foldl State.release s
    let is := s.berthInsts b
    if is ≠ [] then ((is.filter (fun i => !(s.inst i).rst)).foldl (fun s i => s.instReset i 0 true true) s, false)
    else
      let s := (s.berthReturns b).modHm (fun h => { h with pool := h.pool.filter (fun e => e.2 != b) })
      (((s.setBerth b {}).invalidateBerth b).mbxReset b, true)

end Sys2Proof.Machine
end

