-- ==== Sys2Proof/Machine/Ethernet.lean ====
section
/-! DEFINITION. The Ethernet switch (chapter 16): ports, tables, forwarding, gates, MACsec, host queue sets, and the time
discipline. The fields of table entries whose layout the spec does not state are read by uninterpreted functions (log 14). -/

namespace Sys2Proof.Machine

/-! ## Ports and tables (R343 to R347) -/

/-- Changes the switch. -/
def State.modEth (s : State) (f : Eth → Eth) : State := { s with eth := f s.eth }

/-- The page of a port, and its configuration. -/
def portPage (p : Nat) : Nat := 0x1044002000 + p * 0x1000
def State.portCfg (s : State) (p : Nat) : W32 := s.reg (portPage p)

/-- Is a port present, powered and enabled. -/
def State.portUp (s : State) (p : Nat) : Bool :=
  !s.portFused p && bit (s.portCfg p) 31 && s.domain 14 == .on && (decide (p < 12) || s.domain 15 == .on)

/-- R346: a record of a port: i = 0 RX, 1 TX, 2 LINK, 3 ERR, 4 SEC, 5 AUX. -/
def State.portRecord (s : State) (p i flag : Nat) : State := s.record (portPage p + 8 + 4 * i) flag (some (160 + 6 * p + i))

/-- R346: a write to ESW_PORT_CFG: a MODE the port does not support is ignored as a whole; PRE reads 0 on ports 12 to 19. -/
def State.portCfgWrite (s : State) (p : Nat) (w : W32) : State :=
  let m := bits w 30 28
  let good := if p < 4 then decide (m ≤ 4) else if p < 12 then m == 4 || m == 5 else m == 6
  if good then s.setReg (portPage p) (w &&& (if p < 12 then 0xFF8FFFFF else 0xFD8FFFFF)) else s

/-- ESW_PORT_STAT (R346). -/
def State.portStat (s : State) (p : Nat) : W32 :=
  let l := Tbl.get (fun _ => (0 : Nat)) s.eth.links p
  let plca := decide (12 ≤ p) && l != 0 && s.hm.man.ports.any (fun x => x.port == p && x.count != 0)
  BitVec.ofNat 32 (b2n (l != 0) * 2 ^ 31 + (l - 1) * 2 ^ 28 + b2n (Tbl.get (fun _ => false) s.eth.pver p) * 2 ^ 27 +
    b2n plca * 2 ^ 26)

/-- The entry of a table of the switch; with a double-bit error it acts as invalid, an entry of zeros (R345). -/
def State.ethEntry (s : State) (tbl idx : Nat) : BitVec 256 :=
  let k := tbl * 2 ^ 16 + idx
  if Tbl.get (fun _ => (0 : Nat)) s.eth.flips k < 2 then Tbl.get (fun _ => (0 : BitVec 256)) s.eth.tbl k else 0

/-- Word `i` of an entry. -/
def entryWord (e : BitVec 256) (i : Nat) : W32 := BitVec.ofNat 32 (e.toNat / 2 ^ (32 * i))

/-- The number of entries of a table of the switch and of the gateway (R347, R387); 0 where the code is not assigned. -/
def tblSize (gwy : Bool) (tbl : Nat) : Nat :=
  if gwy then [4096, 1024, 2048, 64, 32].getD tbl 0
  else [16384, 4096, 4096, 1024, 1024, 20 * 512, 20, 1024, 400, 400, 100, 48].getD tbl 0

/-- The global page of the switch or the gateway: TBL_CMD at 4, DATA0 at 8. -/
def tblPage (gwy : Bool) : Nat := if gwy then 0x1046001000 else 0x1044001000

/-- R347: a write to TBL_CMD, of which GO, WR, TBL and INDEX are stored; while GO reads 1 it is ignored. -/
def State.tblCmd (s : State) (gwy : Bool) (w : W32) : State :=
  let a := tblPage gwy + 4
  if bit (s.reg a) 31 then s else s.setReg a (w &&& 0xCF00FFFF)

/-- DATA0 to DATA7 as one entry. -/
def State.tblData (s : State) (gwy : Bool) : BitVec 256 :=
  BitVec.ofNat 256 ((List.range 8).foldl (fun a i => a + (s.reg (tblPage gwy + 8 + 4 * i)).toNat * 2 ^ (32 * i)) 0)

/-- Loads DATA0 to DATA7. -/
def State.setTblData (s : State) (gwy : Bool) (e : BitVec 256) : State :=
  (List.range 8).foldl (fun s i => s.setReg (tblPage gwy + 8 + 4 * i) (entryWord e i)) s

/-- The list length, cycle and base of a port's admin schedule (table 6). -/
def State.adminSched (s : State) (p : Nat) : Sched :=
  let e := s.ethEntry 6 p
  { base := e.toNat % 2 ^ 64, cycle := (entryWord e 2).toNat, len := bits (entryWord e 3) 8 0, pos := 0 }

/-- R347: what a read of a switch entry loads. -/
def State.ethTblRead (s : State) (tbl idx : Nat) : BitVec 256 :=
  if tbl = 8 then 0
  else if tbl = 9 then
    Config.saWords (s.ethEntry 9 idx) (Tbl.get (fun k => (Config.saEntry (s.ethEntry 9 k)).1) s.eth.pn idx)
  else if tbl = 0 then
    (match s.eth.learned.find? (fun l => Config.fdbSlot l.vid l.mac % 16384 == idx) with
     | some l => if (Config.fdbEntry (s.ethEntry 0 idx)).1 then s.ethEntry 0 idx else Config.fdbWords l.vid l.mac l.port
     | none => s.ethEntry 0 idx)
  else s.ethEntry tbl idx

/-- R347: a write of a switch entry. -/
def State.ethTblWrite (s : State) (tbl idx : Nat) (e : BitVec 256) : State :=
  if tbl = 5 ∧ bits (BitVec.ofNat 16 idx) 8 8 = 0 then s
  else
    let s := s.modEth (fun x => { x with
        tbl := Tbl.set (fun _ => (0 : BitVec 256)) x.tbl (tbl * 2 ^ 16 + idx) e, flips := Tbl.del x.flips (tbl * 2 ^ 16 + idx) })
    if tbl = 6 then
      (if bit (entryWord e 3) 31 then s.modEth (fun x => { x with change := Tbl.set (fun _ => false) x.change idx true }) else s)
    else if tbl = 9 then s.modEth (fun x => { x with
        pn := Tbl.set (fun _ => (0 : Nat)) x.pn idx (Config.saEntry e).1,
        pnNoted := Tbl.set (fun _ => false) x.pnNoted idx false })
    else s

/-- R347: a write of a gateway entry; COUNT of a route is set to 0. -/
def State.gwyTblWrite (s : State) (tbl idx : Nat) (e : BitVec 256) : State :=
  let e := if tbl = 0 then putBits e 192 16 0 else e
  { s with gw := { s.gw with
      tbl := Tbl.set (fun _ => (0 : BitVec 256)) s.gw.tbl (tbl * 2 ^ 16 + idx) e, flips := Tbl.del s.gw.flips (tbl * 2 ^ 16 + idx) } }

/-- The entry of a table of the gateway; with a double-bit error it acts as invalid, an entry of zeros (R387). -/
def State.gwEntry (s : State) (tbl idx : Nat) : BitVec 256 :=
  let k := tbl * 2 ^ 16 + idx
  if Tbl.get (fun _ => (0 : Nat)) s.gw.flips k < 2 then Tbl.get (fun _ => (0 : BitVec 256)) s.gw.tbl k else 0

/-- Records SBE or DBE of a table (R345, R387). -/
def State.tblRecord (s : State) (gwy : Bool) (flag : Nat) : State :=
  if gwy then s.record 0x104600102C flag (some 625) else s.record 0x1044001028 flag (some 284)

/-- R345, R387: entry `k` is used: a single-bit error is corrected and recorded; with a double-bit error the entry is invalid from here on, and
DBE is recorded. -/
def State.tblUse (gwy : Bool) (s : State) (k : Nat) : State :=
  let n := Tbl.get (fun _ => (0 : Nat)) (if gwy then s.gw.flips else s.eth.flips) k
  if n = 0 then s
  else
    let keep := fun (t : Tbl (BitVec 256)) => if n = 1 then t else Tbl.set (fun _ => (0 : BitVec 256)) t k 0
    let s := if gwy then { s with gw := { s.gw with tbl := keep s.gw.tbl, flips := Tbl.del s.gw.flips k } }
      else s.modEth (fun e => { e with tbl := keep e.tbl, flips := Tbl.del e.flips k })
    s.tblRecord gwy (if n = 1 then 2 ^ 18 else 2 ^ 17)

/-- The entries of a table that have flipped bits, of the keys that a search reads. -/
def State.tblSearch (gwy : Bool) (s : State) (reads : Nat → Bool) : State :=
  ((if gwy then s.gw.flips else s.eth.flips).map Prod.fst |>.filter reads).foldl (State.tblUse gwy) s

/-- R347: the access in progress is done. -/
def State.tblDone (s : State) (gwy : Bool) : State :=
  let c := s.reg (tblPage gwy + 4)
  if bit c 31 then
    let s := s.setReg (tblPage gwy + 4) (putBit c 31 false)
    let t := bits c 27 24
    let i := bits c 15 0
    let there := decide (i < tblSize gwy t)
    if bit c 30 then
      (if there then (if gwy then s.gwyTblWrite t i (s.tblData gwy) else s.ethTblWrite t i (s.tblData gwy)) else s)
    else
      let s := if there then s.tblUse gwy (t * 2 ^ 16 + i) else s
      s.setTblData gwy (if there then (if gwy then s.gwEntry t i else s.ethTblRead t i) else 0)
  else s

/-- R347: a read is started. -/
def execTblRead (rq : Req) (gwy : Bool) (tbl : Fin 16) (idx : BitVec 16) (s : State) : Out :=
  let w := BitVec.ofNat 32 (2 ^ 31 + tbl.val * 2 ^ 24 + idx.toNat)
  ok (s.gWrite rq (tblPage gwy + 4) w (fun s => s.tblCmd gwy w))

/-- R347: a write is started. -/
def execTblWrite (rq : Req) (gwy : Bool) (tbl : Fin 16) (idx : BitVec 16) (s : State) : Out :=
  let w := BitVec.ofNat 32 (2 ^ 31 + 2 ^ 30 + tbl.val * 2 ^ 24 + idx.toNat)
  ok (s.gWrite rq (tblPage gwy + 4) w (fun s => s.tblCmd gwy w))

/-- R347. -/
def execTableAccessDone (gwy : Bool) (s : State) : Out :=
  if s.frozen then ok s else
  ok (s.tblDone gwy)

/-! ## Frames -/

/-- A big-endian number of bytes, and its bytes. -/
def beNat (l : List Byte) : Nat := leNat l.reverse
def beBytes (n x : Nat) : List Byte := (leBytes n x).reverse

/-- The destination, the source and the EtherType of frame bytes. -/
def frameDa (d : List Byte) : Nat := beNat (d.take 6)
def frameSa (d : List Byte) : Nat := beNat ((d.drop 6).take 6)
def frameType (d : List Byte) : Nat := beNat ((d.drop 12).take 2)

/-- The frames that the buffer holds, in bytes (R344). -/
def State.buffered (s : State) : Nat :=
  let sum := fun (l : List EFrame) => l.foldl (fun n f => n + f.data.length) 0
  s.eth.egress.foldl (fun n e => n + sum e.2) 0 + s.eth.hostRx.foldl (fun n e => n + sum e.2) 0

/-- R360: may a frame go unprotected: its EtherType is in the bypass list. -/
def State.bypassed (s : State) (d : List Byte) : Bool := frameType d == 0x888E || s.hm.man.bypass.contains (frameType d)

/-- R360: MACsec at ingress: the frame and whether it was validated, or the flag of its drop. -/
def State.macsecIn (s : State) (p : Nat) (d : List Byte) : Except Nat (List Byte × Bool) × State :=
  if !bit (s.portCfg p) 24 then (.ok (d, false), s)
  else if frameType d ≠ 0x88E5 then
    (if bit (s.portCfg p) 23 && !s.bypassed d then .error (2 ^ 16) else .ok (d, false), s)
  else
    let tag := Config.macsecTagOf d
    match (List.range 20).find? (fun k =>
        let e := Config.saEntry (s.ethEntry 9 (20 * p + k))
        e.2.1 == tag.1 && !e.2.2.2.1) with
    | none => (.error (2 ^ 16), s)
    | some k =>
      let i := 20 * p + k
      let next := Tbl.get (fun _ => (0 : Nat)) s.eth.pn i
      let win := Config.scWindow (s.ethEntry 10 (5 * p + (Config.saEntry (s.ethEntry 9 i)).2.2.1 % 5))
      if tag.2 + win < next then (.error (2 ^ 17), s)
      else match Config.macsecOpen (s.ethEntry 8 i) (s.ethEntry 9 i) d with
        | none => (.error (2 ^ 18), s)
        | some plain =>
          (.ok (plain, true), s.modEth (fun x => { x with pn := Tbl.set (fun _ => (0 : Nat)) x.pn i (max next (tag.2 + 1)) }))

/-- R360: MACsec at egress: the bytes on the wire, or none where the frame is dropped for its PN. -/
def State.macsecOut (s : State) (p : Nat) (d : List Byte) : Option (List Byte) × State :=
  if !bit (s.portCfg p) 24 || s.bypassed d then (some d, s)
  else match (List.range 20).find? (fun k => (Config.saEntry (s.ethEntry 9 (20 * p + k))).2.2.2.1) with
    | none => (none, s.portRecord p 4 (2 ^ 16))
    | some k =>
      let i := 20 * p + k
      let e := s.ethEntry 9 i
      let pn := Tbl.get (fun _ => (0 : Nat)) s.eth.pn i
      let last := if (Config.saEntry e).2.2.2.2 < 2 ^ 32 then 2 ^ 32 - 1 else 2 ^ 64 - 1
      if last ≤ pn then (none, s.portRecord p 1 (2 ^ 16))
      else
        let s := s.modEth (fun x => { x with pn := Tbl.set (fun _ => (0 : Nat)) x.pn i (pn + 1) })
        let s := if (Config.saEntry e).2.2.2.2 < pn + 1 && !Tbl.get (fun _ => false) s.eth.pnNoted i then
            (s.modEth (fun x => { x with pnNoted := Tbl.set (fun _ => false) x.pnNoted i true })).portRecord p 4 (2 ^ 15)
          else s
        (some (Config.macsecSeal (s.ethEntry 8 i) e pn d), s)

/-! ## Gates (R350) -/

/-- The schedule in force of a port. -/
def State.sched (s : State) (p : Nat) : Sched := Tbl.get (fun _ => ({} : Sched)) s.eth.sched p

/-- Replaces it. -/
def State.setSched (s : State) (p : Nat) (x : Sched) : State :=
  s.modEth (fun e => { e with sched := Tbl.set (fun _ => ({} : Sched)) e.sched p x })

/-- An entry of a port's gate control list: list 0 operative, 1 admin. -/
def State.gateEntry (s : State) (p list i : Nat) : W32 := entryWord (s.ethEntry 5 (p * 512 + list * 256 + i)) 0

/-- Is the gate of a class open; with no list every gate is. -/
def State.gateOpen (s : State) (p tc : Nat) : Bool :=
  let x := s.sched p
  x.len == 0 || bit (s.gateEntry p 0 x.pos) tc

/-- The longest time in ns for which the gate of a class stays open in a cycle, going round the list twice. -/
def State.openSpan (s : State) (p tc : Nat) : Nat :=
  let x := s.sched p
  ((List.range (2 * x.len)).foldl (fun (r : Nat × Nat) i =>
    let e := s.gateEntry p 0 (i % x.len)
    let n := if bit e tc then r.1 + bits e 31 8 else 0
    (n, max r.2 n)) (0, 0)).2

/-- The time in ns that a byte takes at the link rate of a port, × 100. -/
def State.byteTime (s : State) (p : Nat) : Nat :=
  [80000, 80000, 8000, 800, 320, 160, 80].getD (Tbl.get (fun _ => (0 : Nat)) s.eth.links p) 80000

/-- R350, R351: is a class preemptable on a port now. -/
def State.preemptable (s : State) (p tc : Nat) : Bool :=
  bit (s.portCfg p) 25 && Tbl.get (fun _ => false) s.eth.pver p && !bit (s.portCfg p) (12 + tc)

/-- R350: can a frame never be sent within one open interval of its class. -/
def State.neverFits (s : State) (p tc len : Nat) : Bool :=
  let x := s.sched p
  let always := (List.range x.len).all (fun i => bit (s.gateEntry p 0 i) tc)
  let need := if s.preemptable p tc then min len 64 else len
  !always && decide (s.openSpan p tc * 100 < (8 + need + 12) * s.byteTime p)

/-- R350: the next gate states apply; an admin list is swapped in at a cycle start of its phase. -/
def execGateControlAdvance (port : Fin 12) (s : State) : Out :=
  if s.frozen || s.portFused port.val then ok s else
  let p := port.val
  let x := s.sched p
  let a := s.adminSched p
  if Tbl.get (fun _ => false) s.eth.change p && decide (a.base ≤ s.gtb) && (a.cycle == 0 || (s.gtb - a.base) % a.cycle == 0) then
    let s := State.tblSearch false s (fun k => k / 512 == 640 + p)
    let s := (List.range 256).foldl (fun s i =>
      let oper := s.ethEntry 5 (p * 512 + i)
      let admin := s.ethEntry 5 (p * 512 + 256 + i)
      s.modEth (fun e => { e with
          tbl := Tbl.set (fun _ => (0 : BitVec 256)) (Tbl.set (fun _ => (0 : BitVec 256)) e.tbl (5 * 2 ^ 16 + p * 512 + i) admin)
            (5 * 2 ^ 16 + p * 512 + 256 + i) oper })) s
    let s := s.modEth (fun e => { e with change := Tbl.set (fun _ => false) e.change p false })
    let e6 := s.ethEntry 6 p
    let s := s.modEth (fun e => { e with tbl := Tbl.set (fun _ => (0 : BitVec 256)) e.tbl (6 * 2 ^ 16 + p) (putBit e6 127 false) })
    ok ((s.setSched p { a with len := min a.len 256 }).portRecord p 5 (2 ^ 18))
  else if x.len = 0 then ok s
  else ok (s.setSched p { x with pos := (x.pos + 1) % x.len })

/-! ## Stream filters (R349, R352) -/

/-- R349: does a filter match. -/
def filterMatches (e : BitVec 256) (port pcp vid : Nat) (d : List Byte) : Bool :=
  let w0 := entryWord e 0
  let w2 := entryWord e 2
  let mac := (entryWord e 1).toNat + bits w2 15 0 * 2 ^ 32
  bit w0 31 && (bits w0 30 26 == 31 || bits w0 30 26 == port) && (bit w0 25 || bits w0 24 22 == pcp) && bits w0 11 0 == vid &&
  (bit w2 17 || mac == (if bit w2 16 then frameSa d else frameDa d))

/-- The filter that governs a frame: the first that matches. -/
def State.filterFor (s : State) (port pcp vid : Nat) (d : List Byte) : Option (BitVec 256) :=
  (s.eth.tbl.find? (fun e => e.1 / 2 ^ 16 == 2 && decide (Tbl.get (fun _ => (0 : Nat)) s.eth.flips e.1 < 2) &&
    filterMatches e.2 port pcp vid d)).map Prod.snd

/-- R352: 802.1CB recovery of a sequence number by a function: the frame goes on (true), with the flag to record. -/
def State.frerRecover (s : State) (f sq : Nat) : Bool × Nat × State :=
  let cfg := Config.frerEntry (s.ethEntry 7 f)
  let st := Tbl.get (fun _ => (0, 0)) s.eth.frer f
  let put := fun (a h : Nat) => s.modEth (fun e => { e with frer := Tbl.set (fun _ => (0, 0)) e.frer f (a + 1, h % 2 ^ cfg.1) })
  if st.1 = 0 then (true, 0, put sq 1)
  else
    let last := st.1 - 1
    let d := (sq + 65536 - last) % 65536
    if cfg.2 then (if d = 0 then (false, 0, s) else (true, 0, put sq 1))
    else if d ≠ 0 ∧ d < 32768 ∧ d < cfg.1 then (true, 0, put sq (st.2 * 2 ^ d + 1))
    else
      let back := (65536 - d) % 65536
      if back < cfg.1 then
        (if Nat.testBit st.2 back then (false, 0, s) else (true, 0, put last (st.2 + 2 ^ back)))
      else (false, 2 ^ 18, s)

/-- R352: sequence generation or recovery by FRER function `f`: the frame, or none where it is discarded. -/
def State.frer (s : State) (f : Nat) (d : List Byte) : Option (List Byte) × State :=
  if f < 512 then
    let n := Tbl.get (fun _ => (0 : Nat)) s.eth.frerGen f
    (some (d.take 12 ++ beBytes 2 0xF1C1 ++ beBytes 2 0 ++ beBytes 2 n ++ d.drop 12),
     s.modEth (fun e => { e with frerGen := Tbl.set (fun _ => (0 : Nat)) e.frerGen f ((n + 1) % 65536) }))
  else if frameType d = 0xF1C1 then
    let (go, flag, s) := s.frerRecover f (beNat ((d.drop 16).take 2))
    (if go then some d else none, if flag = 0 then s else s.record 0x1044001030 flag (some 283))
  else (some d, s)

/-- R352: the reset time of a recovery function passes: it takes any number next. -/
def execFrerResetTimer (f : Fin 1024) (s : State) : Out :=
  if s.frozen then ok s else
  ok (s.modEth (fun e => { e with frer := Tbl.set (fun _ => (0, 0)) e.frer f.val (0, 0) }))

/-- R349: the checks of the filter that governs a frame; none where it is dropped. The outcome of a flow meter, whose words
the spec does not lay out, is open (log 5). -/
def State.streamFilter (s : State) (port pcp vid : Nat) (d : List Byte) : Option (List Byte × Option Nat) × State :=
  match s.filterFor port pcp vid d with
  | none => (some (d, none), s)
  | some e =>
    let w3 := entryWord e 3
    let w4 := entryWord e 4
    let w5 := entryWord e 5
    let drop := fun (s : State) (flag : Nat) => ((none : Option (List Byte × Option Nat)), s.record 0x104400102C flag (some 282))
    if bits w3 31 16 ≠ 0 ∧ bits w3 31 16 < d.length - 14 then drop s (2 ^ 18)
    else if bit w3 10 && !Config.gateOpen (s.ethEntry 3 (bits w3 9 0)) s.gtb then drop s (2 ^ 17)
    else
      let (pass, s) := if bit w4 10 then s.freshBool else (true, s)
      if !pass then drop s (2 ^ 16)
      else
        let q := if bit w5 6 then some (bits w5 5 0) else none
        if bit w5 18 then
          let (r, s) := s.frer (bits w5 17 8) d
          (r.map (fun d => (d, q)), s)
        else (some (d, q), s)

/-! ## Forwarding (R348, R353) -/

/-- Members, untagged members and learning of a VLAN. -/
def State.vlan (s : State) (vid : Nat) : Nat × Nat × Bool := Config.vlanEntry (s.ethEntry 1 vid)

/-- Is a destination a group address. -/
def isGroup (mac : Nat) : Bool := Nat.testBit mac 40

/-- The reserved destinations of R348. -/
def isReserved (mac : Nat) : Bool := decide (mac / 16 = 0x0180C200000)

/-- R348: the ports a frame goes to. -/
def State.egressMask (s : State) (port vid : Nat) (d : List Byte) : List Nat :=
  let da := frameDa d
  let members := (s.vlan vid).1
  let static := (s.eth.tbl.find? (fun e =>
    e.1 / 2 ^ 16 == 0 && decide (Tbl.get (fun _ => (0 : Nat)) s.eth.flips e.1 < 2) && (let x := Config.fdbEntry e.2
      x.1 && x.2.1 == vid && x.2.2.1 == da))).map (fun e => (Config.fdbEntry e.2).2.2.2)
  let learned := (s.eth.learned.find? (fun l => l.vid == vid && l.mac == da)).map (fun l => 2 ^ l.port)
  let mask := if isReserved da then 2 ^ 20 else (static.or (if isGroup da then none else learned)).getD members
  (List.range 21).filter (fun p => p != port && Nat.testBit mask p && (isReserved da || Nat.testBit members p))

/-- R353: the host queue set of a frame. -/
def State.queueSetFor (s : State) (f : EFrame) : Option Nat :=
  if isReserved (frameDa f.data) then some s.hm.man.llq
  else f.qset.or ((List.range 48).find? (fun q => (Config.qsPolicy (s.ethEntry 11 q)).1 == f.vid))

/-- Adds one to a drop count of a queue set: [15:0] TXDROP or [31:16] RXDROP (R354). -/
def State.hqDrop (s : State) (i : Nat) (rx : Bool) : State :=
  let a := instPage i + 0x4C
  let v := s.reg a
  let lo := if rx then 16 else 0
  s.setReg a (putBits v lo 16 (satInc 0xFFFF (bits v (lo + 15) lo)))

/-- R353: a frame reaches the host port. -/
def State.toHost (s : State) (f : EFrame) : State :=
  match s.queueSetFor f with
  | none => if f.port < 20 then s.portRecord f.port 0 (2 ^ 15) else s
  | some q =>
    if s.ringOn (rxRing (768 + q)) || s.hm.man.gwSets.contains q then
      s.modEth (fun e => { e with hostRx := Tbl.set (fun _ => []) e.hostRx q (Tbl.get (fun _ => []) e.hostRx q ++ [f]) })
    else s.hqDrop (768 + q) true

/-- A frame is queued at an egress port, or dropped as LATE (R350). -/
def State.toPort (s : State) (p : Nat) (f : EFrame) : State :=
  if p = 20 then s.toHost f
  else if !s.portUp p then s
  else if p < 12 && s.neverFits p f.tc (f.data.length + 4) then s.portRecord p 1 (2 ^ 18)
  else s.modEth (fun e => { e with
      egress := Tbl.set (fun _ => []) e.egress (8 * p + f.tc) (Tbl.get (fun _ => []) e.egress (8 * p + f.tc) ++ [f]) })

/-- R348: learning. -/
def State.learn (s : State) (vid mac port : Nat) : State :=
  if (s.vlan vid).2.2 && !isGroup mac then
    s.modEth (fun e => { e with
        learned := { vid := vid, mac := mac, port := port, seen := s.time } :: e.learned.filter (fun l => !(l.vid == vid && l.mac == mac)) })
  else s

/-- R348, R349: a whole frame is filtered and forwarded; false where a stream filter drops it. `limit` masks its egress; `plain`: a host queue
set sends it and its policy does not tag. The lookups use the VLAN's entry, the filters and the destination's FDB entry (R345). -/
def State.forward (s : State) (port vid pcp : Nat) (d : List Byte) (sec : Bool) (limit : Nat)
    (host : Option Nat := none) (plain : Bool := false) : Bool × State :=
  let s := State.tblSearch false s (fun k => k == 2 ^ 16 + vid || k / 2 ^ 16 == 2 || k == Config.fdbSlot vid (frameDa d) % 16384)
  match s.streamFilter port pcp vid d with
  | (none, s) => (false, s)
  | (some (d, q), s) =>
    let f : EFrame := { port := port, vid := vid, tc := pcp, data := d, time := s.gtb, sec := sec, qset := q, host := host, plain := plain }
    let s := if port < 20 then s.learn vid (frameSa d) port else s
    (true, ((s.egressMask port vid d).filter (fun p => Nat.testBit limit p)).foldl (fun s p => s.toPort p f) s)

/-- R357: is a frame that carries a VID (0 for an untagged one) a management frame of this device. -/
def State.isMgmt (s : State) (p vid : Nat) (d : List Byte) : Bool :=
  vid != 0 &&
  Nat.testBit s.hm.man.mgmtPorts p && s.hm.committed && !s.hm.held && vid == s.hm.man.mgmtVid && frameType d == 0x88B5 &&
  d.take 6 == s.hm.man.mgmtMac

/-- R344, R348, R357, R360: a frame is received; `frame` runs from the destination address to the FCS. -/
def State.ethRx (s : State) (p : Nat) (frame : List Byte) (fcsOk : Bool) : State :=
  if !s.portUp p then s
  else if !fcsOk then s.portRecord p 0 (2 ^ 18)
  else match s.macsecIn p (frame.take (frame.length - 4)) with
    | (.error flag, s) => s.portRecord p 4 flag
    | (.ok (d, sec), s) =>
      let len := d.length + 4
      if len < 64 then s.portRecord p 0 (2 ^ 17)
      else if 9216 < len then s.portRecord p 0 (2 ^ 16)
      else if 4194304 < s.buffered + len then s.portRecord p 0 (2 ^ 15)
      else
        let tagged := frameType d == 0x8100
        let tci := beNat ((d.drop 14).take 2)
        let vid := if tagged && tci % 4096 != 0 then tci % 4096 else bits (s.portCfg p) 11 0
        let d' := if tagged then d.take 12 ++ d.drop 16 else d
        if s.isMgmt p (if tagged then tci % 4096 else 0) d' then s.mgmtRx p ((d'.drop 6).take 6) (bytesWords (d'.drop 14))
        else if !Nat.testBit (s.vlan vid).1 p then s
        else (s.forward p vid (if tagged then tci / 8192 else 0) d' sec (2 ^ 21 - 1)).2

/-- R344. -/
def execEthernetFrameRx (port : Fin 20) (frame : List Byte) (fcsOk : Bool) (s : State) : Out :=
  if s.frozen then ok s else
  ok (s.ethRx port.val frame fcsOk)

/-- R348, R350, R360: the frame that leaves a port: the oldest of the highest class whose gate is open. -/
def State.ethTx (s : State) (p : Nat) : State :=
  if !s.portUp p then s
  else match ((List.range 8).reverse).find? (fun tc =>
      !(Tbl.get (fun _ => ([] : List EFrame)) s.eth.egress (8 * p + tc)).isEmpty && s.gateOpen p tc) with
    | none => s
    | some tc =>
      match Tbl.get (fun _ => ([] : List EFrame)) s.eth.egress (8 * p + tc) with
      | [] => s
      | f :: r =>
        let s := s.modEth (fun e => { e with egress := Tbl.set (fun _ => []) e.egress (8 * p + tc) r })
        let tag := !Nat.testBit (s.vlan f.vid).2.1 p && !f.plain
        let d := if tag then f.data.take 12 ++ beBytes 2 0x8100 ++ beBytes 2 (f.tc * 8192 + f.vid) ++ f.data.drop 12 else f.data
        match s.macsecOut p d with
        | (none, s) => s
        | (some w, s) => s.modEth (fun e => { e with sent := e.sent ++ [(p, w)] })

/-- R350. -/
def execEthernetFrameTxDone (port : Fin 20) (s : State) : Out :=
  if s.frozen then ok s else
  ok (s.ethTx port.val)

/-- R347: learned entries unused for the ageing time go. -/
def execFdbAgeing (s : State) : Out :=
  if s.frozen then ok s else
  ok (s.modEth (fun e => { e with learned := e.learned.filter (fun l => decide (s.time < l.seen + s.hm.man.ageing * 1000000000)) }))

/-- R346: the link of a port changes: up at a rate, or down. -/
def execLinkChange (port : Fin 20) (rate : Option (Fin 6)) (s : State) : Out :=
  let p := port.val
  if s.portFused p then ok s
  else
    let n := match rate with
      | some r => r.val + 1
      | none => 0
    let was := Tbl.get (fun _ => (0 : Nat)) s.eth.links p
    let s := s.modEth (fun e => { e with
        links := Tbl.set (fun _ => (0 : Nat)) e.links p n,
        pver := if n = 0 then Tbl.set (fun _ => false) e.pver p false else e.pver })
    ok (if (was == 0) == (n == 0) then s else s.portRecord p 2 (if n = 0 then 2 ^ 17 else 2 ^ 18))

/-- R351: verification of frame preemption ends. -/
def execPreemptionVerifyDone (port : Fin 12) (pass : Bool) (s : State) : Out :=
  if s.frozen then ok s else
  whenOk (bit (s.portCfg port.val) 25 && s.portUp port.val) s
    ((s.modEth (fun e => { e with pver := Tbl.set (fun _ => false) e.pver port.val pass })).portRecord port.val 2
      (if pass then 2 ^ 16 else 2 ^ 15))

/-! ## Host queue sets (R353 to R356) -/

/-- R354, R356. -/
def execHqTxTailWrite (rq : Req) (q : Fin 48) (w : W32) (s : State) : Out :=
  ok (s.instAccess rq ((txRing (768 + q.val)).reg 3) (768 + q.val) (some w) (fun s => s.ringTailWrite (txRing (768 + q.val)) w))

/-- R354, R356. -/
def execHqRxTailWrite (rq : Req) (q : Fin 48) (w : W32) (s : State) : Out :=
  ok (s.instAccess rq ((rxRing (768 + q.val)).reg 3) (768 + q.val) (some w) (fun s => s.ringTailWrite (rxRing (768 + q.val)) w))

/-- R353, R355: what the switch does with a transmitted frame: its STATUS. -/
def State.hostSend (s : State) (q tc : Nat) (d : List Byte) : Nat × State :=
  let s := s.tblUse false (11 * 2 ^ 16 + q)
  let x := Config.qsPolicy (s.ethEntry 11 q)
  if frameSa d ≠ x.2.2.1 ∨ x.2.2.2.2 < tc then (1, s)
  else
    let (sent, s) := s.forward 20 x.1 tc d false x.2.2.2.1 (some q) (!x.2.1)
    (if sent then 0 else 2, s)

/-- R355, R356: the frame of the transmit descriptor at HEAD: STATUS. -/
def State.txFrame (s : State) (g : Ring) (q slot : Nat) (desc : List Byte) : Nat × State :=
  let w := leNat ((desc.drop 8).take 4)
  let len := w % 16384
  if len < 60 ∨ 9212 < len then (4, s)
  else match s.instRead g.i (leNat (desc.take 8)) len slot true with
    | (none, s) => (3, s)
    | (some d, s) => s.hostSend q (w / 2 ^ 16 % 8) d

/-- R356: the switch completes a transmit descriptor: frame, write-back, HEAD, event. -/
def State.txDone (s : State) (q : Nat) : State :=
  let g := txRing (768 + q)
  if !s.ringOn g || s.ringHead g == s.ringTail g || s.domain 14 ≠ .on then s
  else if s.domain 19 ≠ .on then s.wakeDomain 19
  else
    let a := s.ringAddr g
    let slot := s.ringHead g
    match s.instRead g.i a 16 slot with
    | (none, s) => (s.ringNext g).instDone g.i 0x48
    | (some desc, s) =>
      let (st, s) := s.txFrame g q slot desc
      let s := if st = 1 ∨ st = 2 then s.hqDrop g.i false else s
      let stamp := st == 0 && bit (BitVec.ofNat 32 (leNat ((desc.drop 8).take 4))) 19
      let back := (if stamp then leBytes 8 s.gtb else desc.take 8) ++ (desc.drop 8).take 4 ++ leBytes 4 (2 ^ 31 + st * 2 ^ 28)
      (((s.instWrite g.i a back slot).2).ringNext g).instDone g.i 0x48

/-- R356. -/
def execTxDescriptorDone (q : Fin 48) (s : State) : Out :=
  if s.frozen then ok s else
  ok (s.unlessHeld (s.txDone q.val))

/-- R355, R356: the oldest frame of a set is written to the buffer at HEAD: data, write-back, HEAD, event. -/
def State.rxDone (s : State) (q : Nat) : State :=
  let g := rxRing (768 + q)
  match Tbl.get (fun _ => ([] : List EFrame)) s.eth.hostRx q with
  | [] => s
  | f :: r =>
    let pop := fun (s : State) => s.modEth (fun e => { e with hostRx := Tbl.set (fun _ => []) e.hostRx q r })
    if !s.ringOn g then s
    else if bits (s.reg (g.reg 2)) 23 16 * 64 < f.data.length then (pop s).hqDrop g.i true
    else if s.ringHead g == s.ringTail g then s
    else if s.domain 19 ≠ .on then s.wakeDomain 19
    else
      let s := pop s
      let a := s.ringAddr g
      let slot := s.ringHead g
      match s.instRead g.i a 16 slot with
      | (none, s) => (s.ringNext g).instDone g.i 0x48
      | (some desc, s) =>
        let (good, s) := s.instWrite g.i (leNat (desc.take 8) / 64 * 64) f.data slot
        let w2 := f.data.length + f.tc * 2 ^ 16 + f.port * 2 ^ 19 + b2n f.sec * 2 ^ 24
        let back := leBytes 8 f.time ++ leBytes 4 w2 ++ leBytes 4 (2 ^ 31 + (if good then 0 else 3) * 2 ^ 28 + f.vid)
        (((s.instWrite g.i a back slot).2).ringNext g).instDone g.i 0x48

/-- R356. -/
def execRxDescriptorDone (q : Fin 48) (s : State) : Out :=
  if s.frozen then ok s else
  ok (s.unlessHeld (s.rxDone q.val))

/-! ## Time (R361, R308) -/

/-- R361, R308, R383: the time base steps to a new value; the instants that a forward step passes are missed. -/
def State.timeStepTo (s : State) (t : Nat) : State :=
  let passed := (s.tgp.cmp.filter (fun e => decide (e.2 < t) && decide (s.gtb < e.2))).map Prod.fst
  let s := { s with
    gtb := t % 2 ^ 64,
    tgp := { s.tgp with miss := passed.foldl (fun m k => Tbl.set (fun _ => false) m k true) s.tgp.miss } }
  (s.signalAll 8).signal 1184

/-- R361: a write to ESW_TD_OFFS. -/
def State.tdOffs (s : State) (w : W32) : State :=
  let o := w.toInt
  if s.eth.source = 0 then s
  else if o ≤ 1000000 ∧ -1000000 ≤ o then s.modEth (fun e => { e with slew := -o * 2 ^ 32, slewing := o != 0 })
  else (s.modEth (fun e => { e with slew := 0, slewing := false })).timeStepTo (((s.gtb : Int) - o).toNat)

/-- R361: a write to ESW_TD_RATE, clamped to ±500 ppm. -/
def State.tdRate (s : State) (w : W32) : State :=
  if s.eth.source = 0 then s
  else
    let r := max (-2147483) (min 2147483 w.toInt)
    s.setReg 0x1044016008 (BitVec.ofInt 32 r)

/-- R361. -/
def execEswTdOffsWrite (rq : Req) (w : W32) (s : State) : Out := ok (s.gWrite rq 0x1044016004 w (fun s => s.tdOffs w))

/-- R361: what was left of a slew below one ns is done. -/
def execSlewComplete (s : State) : Out :=
  whenOk (s.eth.slewing && decide (s.eth.slew < 2 ^ 32) && decide (-(2 ^ 32) < s.eth.slew)) s
    (s.modEth (fun e => { e with slew := 0, slewing := false }))

/-- ESW_TD_STAT (R361). -/
def State.tdStat (s : State) : W32 := BitVec.ofNat 32 (s.eth.source + b2n s.eth.slewing * 2 ^ 31)

/-- R254: a time alarm reaches its instant. -/
def execGtbAlarmMatch (a : Fin 8) (s : State) : Out := ok (s.signal (1176 + a.val))

/-- R254: global time reaches a whole second. -/
def execGtbPps (s : State) : Out := ok (s.signal 1185)

end Sys2Proof.Machine
end

