-- ==== Sys2Proof/Machine/Eligible.lean ====
section
/-! DEFINITION. Eligibility (R40): what a thread's next bundle asks of the store buffer, and CLC_TSTATEt (R64). -/

namespace Sys2Proof.Machine

/-- The syllables of the next bundle of a thread, from its line buffer; `strict` adds the checks of ST.STRICT = 1. -/
def Thread.nextBundle (x : Thread) (strict : Bool) : Option Framed :=
  match x.buf with
  | some l => some (frameBundle strict (l.bytes.drop (x.ctx.pc.toNat % 64)))
  | none => none

/-- R69: the immediate of an IMM syllable in a bundle. -/
def immOf (ws : List W32) (w : W32) : Word := formImm (limOf ws) (bits w 7 0)

/-- The bytes a storing M-unit syllable writes (R117, R120); 0 for the entries of R213, which are never split. -/
def storeBytes (w : W32) : Nat :=
  let plain (o : Nat) : Nat := [1, 2, 4, 8, 8].getD (o - 8) 0
  if sylFmt w = 1 then plain (bits w 21 18)
  else
    let opc := bits w 21 15
    if opc ≤ 0xC then plain opc
    else if opc ≤ 0x15 then 2 ^ ((opc - 0x10) / 2)
    else 0

/-- R40: the store buffer entries that the M-slot store of the next bundle needs: two for a split store. -/
def Thread.storeNeed (x : Thread) : Nat :=
  match x.nextBundle false with
  | some (.good ws) =>
    match ws.find? sylStores with
    | some w =>
      let a : Word := if sylFmt w = 1 then x.ctx.rd (bits w 12 8) + immOf ws w else x.ctx.rd (bits w 9 5) + x.ctx.rd (bits w 4 0)
      if storeBytes w ≤ 64 - a.toNat % 64 then 1 else 2
    | none => 0
  | _ => 0

/-- The bytes that a load of the M unit reads, and whether it may take them from the store buffer (R117, R118, R200); none for any other
syllable. -/
def loadOf (w : W32) : Option (Nat × Bool) :=
  let plain (o : Nat) : Nat := [1, 2, 4, 8, 1, 2, 4, 8].getD o 1
  if sylLim w || sylUnit w != 2 then none
  else if sylFmt w = 1 then (if bits w 21 18 < 8 then some (plain (bits w 21 18), true) else none)
  else if sylFmt w = 0 then
    (if bits w 21 15 < 8 then some (plain (bits w 21 15), true)
     else if bits w 21 15 = 0x20 ∨ bits w 21 15 = 0x30 then some (4, false)
     else if bits w 21 15 = 0x21 ∨ bits w 21 15 = 0x31 then some (8, false)
     else none)
  else none

/-- The effective address of an M-unit syllable of a bundle, from a context (R116). -/
def Ctx.sylEa (c : Ctx) (ws : List W32) (w : W32) : Word :=
  if sylFmt w = 1 then c.rd (bits w 12 8) + immOf ws w
  else if 0x30 ≤ bits w 21 15 ∧ bits w 21 15 ≤ 0x34 then c.rd (bits w 9 5)
  else c.rd (bits w 9 5) + c.rd (bits w 4 0)

/-- R40, R201: is a load held behind older entries of its thread: `fwd` may take its bytes from the youngest that overlaps it. -/
def State.heldAt (s : State) (t pa n : Nat) (fwd : Bool) : Bool :=
  match ((s.sbReal t).filter (fun e => e.overlaps pa n)).getLast? with
  | some e => !(fwd && e.coversAll pa n)
  | none => false

/-- R40, R201: is the load of the thread's next bundle held behind a partially overlapping older store: where its address is known from a
TLB of the cluster; else the load waits when it executes. -/
def State.loadHeld (s : State) (t : Nat) : Bool :=
  let x := s.th t
  if (s.sbReal t).isEmpty || x.bun.isSome || x.fetch != .loaded then false
  else match x.nextBundle false with
    | some (.good ws) =>
      (match ws.findSome? (fun w => (loadOf w).map (fun l => (w, l))) with
       | some (w, n, fwd) =>
         (x.ctx.rdP (bits w 28 26) != bit w 25) &&
         (pieces (x.ctx.sylEa ws w) n).any (fun p => match s.peekPa t p.va with
           | some pa => s.heldAt t pa p.len fwd
           | none => false)
       | none => false)
    | _ => false

/-- R40: is a thread eligible in its core's present cycle. -/
def State.eligible (s : State) (t : Nat) : Bool :=
  let x := s.th t
  let inPat := match x.bun with
    | some b => x.pat.isSome && !b.grant && decide (b.ready ≤ s.cycleOf t)
    | none => false
  let fresh := x.bun.isNone && !x.bnd && x.fetch == .loaded && decide (x.readyAt ≤ s.cycleOf t) &&
    (x.storeNeed == 0 || s.sbRoom t x.storeNeed false) && !s.loadHeld t
  s.coreRuns (coreOf t) && x.state == .run && !s.queued t && x.mem == .idle && x.stall == .none && !x.resetting &&
    !x.resuming && x.pend.isNone && (inPat || fresh)

/-- CLC_TSTATEt (R64). -/
def State.tstate (s : State) (t : Nat) : W32 :=
  let x := s.th t
  BitVec.ofNat 32 ((if x.state = .free then 0 else x.berth) * 2 ^ 26 + x.ctx.cls * 2 ^ 24 + x.ctx.wMask.toNat * 2 ^ 16 +
    x.ctx.wPend.toNat * 2 ^ 8 + b2n (stDyn x.ctx.st) * 2 ^ 7 + b2n (s.queued t) * 2 ^ 6 + b2n (s.eligible t) * 2 ^ 5 +
    stPl x.ctx.st * 2 ^ 3 + x.state.code)

end Sys2Proof.Machine
end

