-- ==== Sys2Proof/Machine/Pattern.lean ====
section
/-! DEFINITION. Patterns (R103, R104, R141 to R147, R235 to R252): the vendor instructions by what they do, customer
patterns word by word, safe points, completion, faults and repair. -/

namespace Sys2Proof.Machine

/-! ## Entering a pattern -/

/-- A pattern instruction starts: it must come first in its bundle (log 12). Its first word is the bundle's own issue; each further word
is an issue of its own (R41, R104). -/
def State.startPat (s : State) (t : Nat) (q : Pred) (p : PatRun) : State :=
  match s.openSyl t with
  | none => s
  | some b => if b.pos = 0 then s.syl t q 4 (fun s => s.modTh t (fun x => { x with
    pat := some p, bun := x.bun.map (fun b => { b with grant := true }) })) else s

/-- R103, R104. -/
def State.startDiv (s : State) (t : Nat) (q : Pred) (rd ra rb : Reg) (rem signed : Bool) : State :=
  match s.openSyl t with
  | none => s
  | some b =>
    let r := divResult rem signed (b.old.rd ra) (b.old.rd rb)
    s.startPat t q { kind := .div rd.val r.1 r.2, rd := rd.val, ra := ra.val, rb := rb.val }

/-- R103. -/
def execDiv (t : Gtn) (q : Pred) (rd ra rb : Reg) (s : State) : Out :=
  s.ask (.div t q rd ra rb) (ok (s.startDiv t q rd ra rb false true))

/-- R103. -/
def execDivu (t : Gtn) (q : Pred) (rd ra rb : Reg) (s : State) : Out :=
  s.ask (.divu t q rd ra rb) (ok (s.startDiv t q rd ra rb false false))

/-- R103. -/
def execRem (t : Gtn) (q : Pred) (rd ra rb : Reg) (s : State) : Out :=
  s.ask (.rem t q rd ra rb) (ok (s.startDiv t q rd ra rb true true))

/-- R103. -/
def execRemu (t : Gtn) (q : Pred) (rd ra rb : Reg) (s : State) : Out :=
  s.ask (.remu t q rd ra rb) (ok (s.startDiv t q rd ra rb true false))

/-- The pattern of an instruction with three register fields. -/
def patOf (k : PatKind) (rd ra rb : Reg) : PatRun := { kind := k, rd := rd.val, ra := ra.val, rb := rb.val }

/-- R141, R142. -/
def execCopy (t : Gtn) (q : Pred) (rd ra rb : Reg) (s : State) : Out :=
  s.ask (.copy t q rd ra rb) (ok (s.startPat t q (patOf .copy rd ra rb)))

/-- R141, R142. -/
def execFill (t : Gtn) (q : Pred) (rd ra rb : Reg) (s : State) : Out :=
  s.ask (.fill t q rd ra rb) (ok (s.startPat t q (patOf .fill rd ra rb)))

/-- R141, R142. -/
def execCmpb (t : Gtn) (q : Pred) (rd ra rb : Reg) (s : State) : Out :=
  s.ask (.cmpb t q rd ra rb) (ok (s.startPat t q (patOf .cmpb rd ra rb)))

/-- R141, R142. -/
def execCrc32c (t : Gtn) (q : Pred) (rd ra rb : Reg) (s : State) : Out :=
  s.ask (.crc32c t q rd ra rb) (ok (s.startPat t q (patOf (.crc .c32) rd ra rb)))

/-- R141, R142. -/
def execCrc16 (t : Gtn) (q : Pred) (rd ra rb : Reg) (s : State) : Out :=
  s.ask (.crc16 t q rd ra rb) (ok (s.startPat t q (patOf (.crc .c16) rd ra rb)))

/-- R141, R142. -/
def execCrc8 (t : Gtn) (q : Pred) (rd ra rb : Reg) (s : State) : Out :=
  s.ask (.crc8 t q rd ra rb) (ok (s.startPat t q (patOf (.crc .c8) rd ra rb)))

/-- R141, R142. -/
def execCrc8h (t : Gtn) (q : Pred) (rd ra rb : Reg) (s : State) : Out :=
  s.ask (.crc8h t q rd ra rb) (ok (s.startPat t q (patOf (.crc .c8h) rd ra rb)))

/-- R146, R147. -/
def execSunpk (t : Gtn) (q : Pred) (rd ra rb : Reg) (s : State) : Out :=
  s.ask (.sunpk t q rd ra rb) (ok (s.startPat t q (patOf .unpack rd ra rb)))

/-- R146, R147. -/
def execSpack (t : Gtn) (q : Pred) (rd ra rb : Reg) (s : State) : Out :=
  s.ask (.spack t q rd ra rb) (ok (s.startPat t q (patOf .pack rd ra rb)))

/-- R250: what the error marks of a micro-address (or 0x2000 + entry) do on a read: a double-bit error is recorded and
counted (answer true), a corrected single-bit error is recorded and counted. -/
def State.patRead (s : State) (core addr : Nat) : State × Bool :=
  if Tbl.get (fun _ => false) s.pat.bad (patKey core addr) then
    ((s.patRecord core addr (2 ^ 17) true).count (core / 4) 13, true)
  else if Tbl.get (fun _ => false) s.pat.sbe (patKey core addr) then
    (((s.patRecord core addr (2 ^ 18) false).count (core / 4) 12).count 0x40 1, false)
  else (s, false)

/-- R247: UCALL. -/
def execUcall (t : Gtn) (q : Pred) (i : Fin 64) (s : State) : Out :=
  s.ask (.ucall t q i) (match s.openSyl t with
  | none => ok s
  | some b =>
    if b.holds q then
      let s := (s.patRead (coreOf t) (0x2000 + i.val)).1
      match s.ucallFault t i.val b.addr with
      | some c => ok (s.syl t q 4 (fun s => s.fault t c))
      | none =>
        let e := s.patEntry (coreOf t) i.val
        ok (s.startPat t q { kind := .user i.val, rd := bits e 82 78, ra := bits e 77 73, rb := bits e 72 68,
                             maddr := 0x1800 + bits e 93 83 })
    else ok (s.syl t q 4 id))

/-! ## The bytes of a pattern (R145, R207) -/

/-- What one byte of a pattern's access meets: its physical address, a wait, or a fault. -/
inductive BRes where
  | ok (pa : Nat)
  | wait
  | fault (c : Cause)
deriving DecidableEq, Repr

/-- Does a thread hold entries that overlap a byte (`wr = false`) or lie in its line (R200, R201). -/
def State.sbBlocks (s : State) (t pa : Nat) (wr : Bool) : Bool :=
  (s.sbReal t).any (fun e => if wr then e.pa / 64 == pa / 64 else e.overlaps pa 1)

/-- Does a FENCE.SS marker of a thread stand behind entries that have not drained (R206). -/
def State.marked (s : State) (t : Nat) : Bool := (s.sbOf t).any (fun e => e.op == .marker)

/-- Translates one byte and obtains its line (R145, R173); `rd` and `wr` say what the access needs. A store waits behind a FENCE.SS
(R132). W of the Data lost of a byte that SPACK reads before it rewrites it is 1, as for its other faults (log 106). -/
def State.patByte (s : State) (t : Nat) (addr : Word) (va : Nat) (rd wr : Bool) : BRes × State :=
  let acc : Acc := if rd && wr then .both else if wr then .write else .read
  match s.translate t va acc with
  | (.miss, s) => (.wait, (s.startWalk t va).modTh t (fun x => { x with mem := .pattern (BitVec.ofNat 36 va) acc }))
  | (.fail f, s) => (.fault (failCause f wr false addr va), s)
  | (.hit pa _, s) =>
    let line := pa / 64
    let cl := clusterOf t
    match s.region pa with
    | .device => (.fault (busCause wr false 4 addr va), s)
    | .pcie => (.fault (busCause wr false 4 addr va), s)
    | .absent => (.fault (busCause wr false 0 addr va), s)
    | r =>
      if wr && r != .dram && r != .quay then (.fault (busCause wr false 1 addr va), s)
      else if s.sbBlocks t pa wr || (wr && s.marked t) then (.wait, s)
      else if wr && !s.writable cl line then (.wait, s.wantWrite cl line)
      else if !wr && !s.readable cl line then (.wait, s.wantRead cl line)
      else if !rd then (.ok pa, s)
      else match s.coreRead (coreOf t) pa 1 with
        | (false, s) => (.wait, s)
        | (true, s) => if s.poisoned pa then (.fault (lostCause wr false addr va), s) else (.ok pa, s)

/-- The running values of a pattern word: destination, source, count, the CRC, the bytes done, and the addresses stored. -/
structure Prog where
  d : Nat
  a : Nat
  n : Nat
  crc : Nat := 0
  stored : List Nat := []
  diff : Bool := false
deriving DecidableEq, Repr

/-- How a pattern word ends. -/
inductive WRes where
  | done
  | wait
  | fault (c : Cause)
deriving DecidableEq, Repr

/-- COPY of up to `k` bytes (R142); `desc` is the descending mode. Its stores, like those of FILL and SPACK, leave the thread's own link
(log 106). -/
def State.copyBytes (t : Nat) (addr : Word) (desc : Bool) : Nat → State → Prog → WRes × State × Prog
  | 0, s, p => (.done, s, p)
  | k + 1, s, p =>
    if p.n = 0 then (.done, s, p)
    else
      let o := if desc then p.n - 1 else 0
      let sa := (p.a + o) % 2 ^ 36
      let da := (p.d + o) % 2 ^ 36
      match s.patByte t addr sa true false with
      | (.wait, s) => (.wait, s, p)
      | (.fault c, s) => (.fault c, s, p)
      | (.ok src, s) =>
        match s.patByte t addr da false true with
        | (.wait, s) => (.wait, s, p)
        | (.fault c, s) => (.fault c, s, p)
        | (.ok dst, s) =>
          let s := s.perform t dst [s.coreByte t src]
          let p := { p with n := p.n - 1, stored := dst :: p.stored }
          let p := if desc then p else { p with d := (p.d + 1) % 2 ^ 36, a := (p.a + 1) % 2 ^ 36 }
          State.copyBytes t addr desc k s p

/-- FILL of up to `k` bytes with the pattern `v` (R142). -/
def State.fillBytes (t : Nat) (addr : Word) (v : Word) : Nat → State → Prog → WRes × State × Prog
  | 0, s, p => (.done, s, p)
  | k + 1, s, p =>
    if p.n = 0 then (.done, s, p)
    else match s.patByte t addr p.d false true with
      | (.wait, s) => (.wait, s, p)
      | (.fault c, s) => (.fault c, s, p)
      | (.ok dst, s) =>
        let s := s.perform t dst [BitVec.ofNat 8 (bits v (8 * (p.d % 4) + 7) (8 * (p.d % 4)))]
        State.fillBytes t addr v k s { p with n := p.n - 1, d := (p.d + 1) % 2 ^ 36, stored := dst :: p.stored }

/-- CMPB of up to `k` bytes (R142). -/
def State.cmpBytes (t : Nat) (addr : Word) : Nat → State → Prog → WRes × State × Prog
  | 0, s, p => (.done, s, p)
  | k + 1, s, p =>
    if p.n = 0 then (.done, s, p)
    else match s.patByte t addr p.d true false with
      | (.wait, s) => (.wait, s, p)
      | (.fault c, s) => (.fault c, s, p)
      | (.ok x, s) =>
        match s.patByte t addr p.a true false with
        | (.wait, s) => (.wait, s, p)
        | (.fault c, s) => (.fault c, s, p)
        | (.ok y, s) =>
          if s.coreByte t x ≠ s.coreByte t y then (.done, s, { p with diff := true })
          else State.cmpBytes t addr k s { p with n := p.n - 1, d := (p.d + 1) % 2 ^ 36, a := (p.a + 1) % 2 ^ 36 }

/-- CRC of up to `k` bytes (R142). -/
def State.crcBytes (t : Nat) (addr : Word) (c : CrcKind) : Nat → State → Prog → WRes × State × Prog
  | 0, s, p => (.done, s, p)
  | k + 1, s, p =>
    if p.n = 0 then (.done, s, p)
    else match s.patByte t addr p.a true false with
      | (.wait, s) => (.wait, s, p)
      | (.fault f, s) => (.fault f, s, p)
      | (.ok x, s) =>
        State.crcBytes t addr c k s
          { p with n := p.n - 1, a := (p.a + 1) % 2 ^ 36, crc := crcByte c p.crc (s.coreByte t x).toNat }

/-- R231: a word all of whose bytes were stored loses its poison. -/
def State.clearStored (s : State) (l : List Nat) : State :=
  l.foldl (fun s a => if a % 8 = 0 ∧ (List.range 8).all (fun i => l.contains (a + i)) then s.setPoison a false else s) s

/-! ## Words -/

/-- A word that cannot go on keeps its issue, and the thread is not eligible until it can (R201, R240). -/
def State.wordWaits (s : State) (t : Nat) : State := s.modTh t (fun x => if x.mem = .idle then { x with mem := .word } else x)

/-- A word that waited goes on. -/
def State.wordGoes (s : State) (t : Nat) : State :=
  s.modTh t (fun x => { x with
    mem := .idle, bun := x.bun.map (fun b => { b with grant := true, ready := Nat.max b.ready (s.cycleOf t + 2) }) })

/-- Writes a progress register (R141): the live context; what the rest of the bundle reads follows at the next word. -/
def Thread.prog (x : Thread) (r : Nat) (v : Nat) : Thread :=
  { x with ctx := x.ctx.wr r (BitVec.ofNat 36 v), par := Tbl.del x.par r }

/-- A pattern ends (R241, R144): the registers it wrote stand against the units before `unit`. -/
def Thread.patDone (x : Thread) (unit : Nat) (keep : List Nat) : Thread :=
  match x.bun with
  | some b => { x with pat := none, bun := some { b with keep := b.keep ++ keep, keepUnit := unit } }
  | none => { x with pat := none }

/-- Is a safe point to be left (R143): an interrupt the thread would accept, a hold, a freeze, a reset. -/
def State.patLeaves (s : State) (t : Nat) : Bool :=
  (s.acceptable t).isSome || (s.th t).holdReq || s.frzReq || s.frozen || (s.th t).resetting

/-- R143, R144: an exit at a safe point: the thread goes back to the bundle's address with its other syllables unexecuted. -/
def Thread.patExit (x : Thread) : Thread :=
  match x.bun with
  | some b => { x with pat := none, bun := some { b with pos := b.len, next := b.addr, exited := true } }
  | none => { x with pat := none }

/-- The words before the main loop, the bytes of a main word and the words between safe points (R244). -/
def patShape : PatKind → Nat × Nat × Nat
  | .copy => (3, 32, 8)
  | .fill => (1, 64, 8)
  | .cmpb => (2, 32, 8)
  | .crc .c32 => (1, 8, 16)
  | _ => (1, 4, 16)

/-- The bytes of a main word of a resumable instruction, less those that it has moved before it waited. -/
def State.patBytes (s : State) (t : Nat) (p : PatRun) (c : Ctx) (addr : Word) : WRes × State × Prog :=
  let g : Prog := { d := (c.rd p.rd).toNat, a := (c.rd p.ra).toNat, n := (c.rd p.rb).toNat, crc := (c.rd p.rd).toNat }
  match p.kind with
  | .copy => State.copyBytes t addr (p.maddr == 1) (32 - p.part) s g
  | .fill => State.fillBytes t addr (c.rd p.ra) (64 - p.part) s g
  | .cmpb => State.cmpBytes t addr (32 - p.part) s g
  | .crc k => State.crcBytes t addr k ((patShape p.kind).2.1 - p.part) s g
  | _ => (.done, s, g)

/-- Writes the progress registers of a resumable instruction (R141), RD first, then RA, then RB: where two fields name one register the
last stands (log 106). -/
def Thread.patProg (x : Thread) (p : PatRun) (g : Prog) : Thread :=
  match p.kind with
  | .copy => ((x.prog p.rd g.d).prog p.ra g.a).prog p.rb g.n
  | .fill => (x.prog p.rd g.d).prog p.rb g.n
  | .cmpb => ((x.prog p.rd g.d).prog p.ra g.a).prog p.rb g.n
  | .crc _ => ((x.prog p.rd g.crc).prog p.ra g.a).prog p.rb g.n
  | _ => x

/-- The registers a resumable instruction rewrites. -/
def patKeeps (p : PatRun) : List Nat :=
  match p.kind with
  | .fill => [p.rd, p.rb]
  | _ => [p.rd, p.ra, p.rb]

/-- The width of a CRC's register (R142). -/
def crcWidth : CrcKind → Nat
  | .c32 => 32
  | .c16 => 16
  | _ => 8

/-- One word of a resumable instruction (R141 to R145, R244). -/
def State.wordResumable (s : State) (t : Nat) (p : PatRun) (b : Bundle) : State :=
  let c := (s.th t).ctx
  let shape := patShape p.kind
  if p.issued < shape.1 ∧ (c.rd p.rb) ≠ 0 then
    let d := (c.rd p.rd).toNat
    let a := (c.rd p.ra).toNat
    let desc := decide (a < d ∧ d < a + (c.rd p.rb).toNat)
    s.modTh t (fun x => { x with pat := some { p with issued := p.issued + 1, maddr := b2n (p.kind == .copy && desc) } })
  else
    let r := s.patBytes t p c b.addr
    let moved := (c.rd p.rb).toNat - r.2.2.n
    let s := (r.2.1.clearStored r.2.2.stored).modTh t (fun x => x.patProg p r.2.2)
    match r.1 with
    | .wait => (s.modTh t (fun x => { x with pat := some { p with part := p.part + moved } })).wordWaits t
    | .fault f => (s.modTh t (fun x => { x with bun := some { b with old := x.ctx } })).faultLate t f
    | .done =>
      if r.2.2.n = 0 ∨ r.2.2.diff then
        s.modTh t (fun x =>
          let x := match p.kind with
            | .crc k => x.prog p.rd ((x.ctx.rd p.rd).toNat % 2 ^ crcWidth k)
            | _ => x
          x.patDone 2 (patKeeps p))
      else if (p.issued + 1 - shape.1) % shape.2.2 = 0 ∧ s.patLeaves t then
        s.modTh t (fun x => x.patExit)
      else s.modTh t (fun x => { x with pat := some { p with issued := p.issued + 1, part := 0 } })

/-- The addresses of the bytes a signal touches (R146). -/
def sigBytes (base : Nat) (d : Word) : List Nat :=
  let w := bits d 18 14 + 1
  ((List.range w).map (fun k => (base + sigPos (bit d 19) (bits d 13 0) w k / 8) % 2 ^ 36)).eraseDups

/-- Translates every byte of a signal before any is read or written (R147), in the order of the signal's bits from bit 0: the first that
fails is the one reported (log 106). -/
def State.sigCheck (t : Nat) (addr : Word) (wr : Bool) : List Nat → State → List Nat → WRes × State × List Nat
  | [], s, acc => (.done, s, acc)
  | v :: r, s, acc =>
    match s.patByte t addr v true wr with
    | (.wait, s) => (.wait, s, acc)
    | (.fault c, s) => (.fault c, s, acc)
    | (.ok pa, s) => State.sigCheck t addr wr r s (acc ++ [pa])

/-- The physical address of the byte at a virtual address, from the checked lists. -/
def paOf (vas pas : List Nat) (va : Nat) : Nat := ((vas.zip pas).lookup va).getD 0

/-- The signal's value (R146). -/
def State.sigGet (s : State) (t : Nat) (vas pas : List Nat) (base : Nat) (d : Word) : Nat :=
  let w := bits d 18 14 + 1
  (List.range w).foldl (fun acc k =>
    let p := sigPos (bit d 19) (bits d 13 0) w k
    acc + b2n (bit (s.coreByte t (paOf vas pas ((base + p / 8) % 2 ^ 36))) (p % 8)) * 2 ^ k) 0

/-- The frame with a signal's bits replaced (R146). -/
def State.sigPut (s : State) (t : Nat) (vas pas : List Nat) (base : Nat) (d v : Word) : State :=
  let w := bits d 18 14 + 1
  (List.range w).foldl (fun s k =>
    let p := sigPos (bit d 19) (bits d 13 0) w k
    let pa := paOf vas pas ((base + p / 8) % 2 ^ 36)
    s.perform t pa [putBit (s.rdByte pa) (p % 8) (bit v k)]) s

/-- SUNPK and SPACK in their twelfth word (R146, R147). -/
def State.wordSignal (s : State) (t : Nat) (p : PatRun) (b : Bundle) : State :=
  if p.issued < 11 then s.modTh t (fun x => { x with pat := some { p with issued := p.issued + 1 } })
  else
    let base := (b.old.rd p.ra).toNat
    let d := b.old.rd p.rb
    let vas := sigBytes base d
    let pack := p.kind == .pack
    let r := State.sigCheck t b.addr pack vas s []
    match r.1 with
    | .wait => r.2.1.wordWaits t
    | .fault f => r.2.1.faultLate t f
    | .done =>
      if pack then (r.2.1.sigPut t vas r.2.2 base d (b.old.rd p.rd)).modTh t (fun x => x.patDone 2 [])
      else
        let w := bits d 18 14 + 1
        let v : Word := BitVec.ofNat 36 (r.2.1.sigGet t vas r.2.2 base d)
        let v := if bit d 20 then signExtFrom w v else v
        r.2.1.modTh t (fun x => (x.prog p.rd v.toNat).patDone 2 [p.rd])

/-! ## Customer words (R236 to R243) -/

/-- A select code as a source (R237); `v` is what the vendor-only code 0xF gives, which no rule states (log 117). -/
def PatRun.source (p : PatRun) (c : Ctx) (imm v : Word) (code : Nat) : Word :=
  if code = 0 then 0
  else if code = 1 then c.rd p.rd
  else if code = 2 then c.rd p.ra
  else if code = 3 then c.rd p.rb
  else if code ≤ 0xB then Tbl.get (fun _ => (0 : Word)) p.t (code - 4)
  else if code = 0xC then p.mdr
  else if code = 0xD then imm
  else if code = 0xE then BitVec.ofNat 36 p.cnt
  else v

/-- The ALU result of a customer word and its carry (R238, R242). -/
def patAlu (aop : Nat) (a b : Word) : Word × Bool :=
  let ops : List AluOp := [.add, .sub, .and, .or, .xor, .shl, .shr, .sra, .min, .max, .minu, .maxu]
  let carry := if aop = 1 then decide (2 ^ 36 ≤ a.toNat + b.toNat) else if aop = 2 then decide (b.toNat ≤ a.toNat) else false
  if aop = 0 then (0, false)
  else if aop ≤ 0xC then (aluResult (ops.getD (aop - 1) .add) a b, carry)
  else if aop = 0xD then (signExtFrom 8 a, false)
  else if aop = 0xE then (signExtFrom 16 a, false)
  else if aop = 0xF then (signExtFrom 32 a, false)
  else (zeroExtFrom 32 a, false)

/-- A condition selector (R242): on the results of the word, and RB and RA before it. -/
def patCond (sel : Nat) (alu : Word) (carry : Bool) (cnt : Nat) (mdr rb ra : Word) : Bool :=
  match sel with
  | 1 => alu == 0
  | 2 => bit alu 35
  | 3 => carry
  | 4 => bit alu 0
  | 5 => cnt == 0
  | 6 => mdr == 0
  | 7 => bit mdr 0
  | 8 => rb == 0
  | 9 => bits ra 2 0 == 0
  | 15 => true
  | _ => false

/-- A destination of a word (R237): the pattern and the thread after it. -/
def patWrite (x : Thread) (p : PatRun) (code : Nat) (v : Word) : Thread × PatRun :=
  if code = 1 then (x.prog p.rd v.toNat, p)
  else if code = 2 then (x.prog p.ra v.toNat, p)
  else if code = 3 then (x.prog p.rb v.toNat, p)
  else if 4 ≤ code ∧ code ≤ 0xB then (x, { p with t := Tbl.set (fun _ => (0 : Word)) p.t (code - 4) v })
  else if code = 0xC then (x, { p with mdr := v })
  else (x, p)

/-- The pieces of a customer memory operation obtained one by one, each with its translation (R123, R239). -/
def State.patPieces (t : Nat) (addr : Word) (wr : Bool) : List Piece → State → List PPiece → WRes × State × List PPiece
  | [], s, acc => (.done, s, acc)
  | k :: r, s, acc =>
    let a : Acc := if wr then .write else .read
    match s.translate t k.va a with
    | (.miss, s) => (.wait, (s.startWalk t k.va).modTh t (fun x => { x with mem := .pattern (BitVec.ofNat 36 k.va) a }), acc)
    | (.fail f, s) => (.fault (failCause f wr false addr k.va), s, acc)
    | (.hit pa via, s) =>
      match s.region pa with
      | .device => (.fault (busCause wr false 4 addr k.va), s, acc)
      | .pcie => (.fault (busCause wr false 4 addr k.va), s, acc)
      | .absent => (.fault (busCause wr false 0 addr k.va), s, acc)
      | .flash _ =>
        if wr then (.fault (busCause wr false 1 addr k.va), s, acc) else State.patPieces t addr wr r s (acc ++ [⟨k.va, pa, k.len, via⟩])
      | _ => State.patPieces t addr wr r s (acc ++ [⟨k.va, pa, k.len, via⟩])

/-- Reads pieces for a pattern load (R201, R230): every line readable, no buffered overlap, no poison. -/
def State.patLoad (t : Nat) (addr : Word) : List PPiece → State → List Byte → WRes × State × List Byte
  | [], s, acc => (.done, s, acc)
  | p :: r, s, acc =>
    if (s.sbReal t).any (fun e => e.overlaps p.pa p.len) then (.wait, s, acc)
    else if !s.readable (clusterOf t) (p.pa / 64) then (.wait, s.wantRead (clusterOf t) (p.pa / 64), acc)
    else match s.coreRead (coreOf t) p.pa p.len with
      | (false, s) => (.wait, s, acc)
      | (true, s) =>
        match s.firstPoison p.pa p.len with
        | some a => (.fault (lostCause false false addr (p.va + (a - p.pa))), s, acc)
        | none => State.patLoad t addr r s (acc ++ s.coreBytes (clusterOf t) p.pa p.len)

/-- Places the stores of pieces in the store buffer (R196); the second is the upper half of a split store (R123). -/
def State.pushPieces (t : Nat) (upper : Bool) : List PPiece → List Byte → State → State
  | [], _, s => s
  | p :: r, bs, s =>
    State.pushPieces t true r (bs.drop p.len) ((s.ownUnlink t p.pa).sbPush t .store p.pa (bs.take p.len) p.via upper)

/-- The bytes of a customer memory operation (R239). -/
def mopBytes (mop : Nat) : Nat :=
  match mop with
  | 1 => 1 | 2 => 2 | 3 => 4 | 4 => 8 | 5 => 1 | 6 => 2 | 7 => 4 | 8 => 8
  | _ => 0

/-- The next micro-address (R241, R243): none where the pattern completes. -/
def patNext (w : BitVec 96) (maddr : Nat) (cond : Nat → Bool) : Option Nat :=
  let fix (a : Nat) : Nat := a % 0x800 + 0x1800
  match bits w 82 81 with
  | 0 => some (fix (maddr + 1))
  | 1 => some (fix (bits w 95 83))
  | 2 =>
    let c (k : Nat) : Nat := b2n (cond (bits w (67 + 4 * k) (64 + 4 * k))) * 2 ^ k
    some (fix (Nat.lor (bits w 95 83) (c 0 + c 1 + c 2 + c 3)))
  | _ => none

/-- The select codes of the sources that a word uses (R237 to R239). -/
def wordSources (w : BitVec 96) : List Nat :=
  let aop := bits w 63 58
  let mop := bits w 45 42
  (if aop = 0 then [] else if 0xD ≤ aop ∧ aop ≤ 0x10 then [bits w 53 50] else [bits w 53 50, bits w 49 46]) ++
  (if mop = 0 then [] else if mop ≤ 4 then [bits w 41 38] else [bits w 41 38, bits w 37 34])

/-- The operand registers that a word reads (R79). -/
def PatRun.wordReads (p : PatRun) (w : BitVec 96) : List Nat :=
  ((wordSources w).flatMap (fun k => if k = 1 then [p.rd] else if k = 2 then [p.ra] else if k = 3 then [p.rb] else [])).filter
    (fun r => r != 0)

/-- One customer word (R240): its memory operation first, without which nothing of it happens. -/
def State.wordUser (s : State) (t : Nat) (p : PatRun) (b : Bundle) : State :=
  let rd := s.patRead (coreOf t) p.maddr
  let s := rd.1
  let w := s.patWord (coreOf t) p.maddr
  let src (k code : Nat) : Word := p.source (s.th t).ctx (signExtFrom 24 (BitVec.ofNat 36 (bits w 23 0))) (Config.freeBits 36 (s.free + k)) code
  let s := if (wordSources w).contains 15 then { s with free := s.free + 4 } else s
  if rd.2 then s.faultLate t (patCause b.addr 2 p.maddr)
  else match (p.wordReads w).find? (s.th t).badPar with
  | some r => s.lockThread t 2 0 b.addr r
  | none =>
    let c := (s.th t).ctx
    let mop := bits w 45 42
    let va := src 0 (bits w 41 38)
    let wr := decide (5 ≤ mop)
    let st := State.patPieces t b.addr wr (if mop = 0 then [] else pieces va (mopBytes mop)) s []
    match st.1 with
    | .wait => st.2.1.wordWaits t
    | .fault f => st.2.1.faultLate t f
    | .done =>
      let room := !wr || st.2.1.sbRoom t st.2.2.length b.wake
      let ld := if wr || mop == 0 then (WRes.done, st.2.1, []) else State.patLoad t b.addr st.2.2 st.2.1 []
      if !room then st.2.1.wordWaits t
      else match ld.1 with
        | .wait => ld.2.1.wordWaits t
        | .fault f => ld.2.1.faultLate t f
        | .done =>
          let s := ld.2.1
          let dat := src 1 (bits w 37 34)
          let stb := leBytes (mopBytes mop) (if mop = 8 then (extSlot dat).toNat else dat.toNat)
          let s := if wr then State.pushPieces t false st.2.2 stb s else s
          let alu := patAlu (bits w 63 58) (src 2 (bits w 53 50)) (src 3 (bits w 49 46))
          let cnt := match bits w 33 32 with
            | 1 => bits w 15 0
            | 2 => p.cnt - 1
            | 3 => bits alu.1 15 0
            | _ => p.cnt
          let x := s.th t
          let x := match bits w 57 54 with
            | k => patWrite x p k alu.1
          let p1 := if wr || mop == 0 then x.2 else { x.2 with mdr := BitVec.ofNat 36 (leNat ld.2.2 % 2 ^ 36) }
          let p1 := { p1 with cnt := cnt, issued := p.issued + 1 }
          let y := x.1.setSov (bit w 31)
          let keep : List Nat := match bits w 57 54 with
            | 1 => [p.rd] | 2 => [p.ra] | 3 => [p.rb]
            | _ => []
          let y := match y.bun with
            | some k => { y with bun := some { k with keep := k.keep ++ keep, keepUnit := 3,
                                                      ready := Nat.max k.ready (k.issued + (if !wr && mop != 0 then 8 else 4)) } }
            | none => y
          match patNext w p.maddr (fun sel => patCond sel alu.1 alu.2 cnt p1.mdr (c.rd p.rb) (c.rd p.ra)) with
          | none => s.setTh t (y.patDone 3 [])
          | some a =>
            let s' := s.setTh t { y with pat := some { p1 with maddr := a } }
            if bit w 80 ∧ s'.patLeaves t then s'.modTh t (fun x => x.patExit) else s'

/-- A DIV word (R104): the twentieth writes the result. -/
def State.wordDiv (s : State) (t : Nat) (p : PatRun) (rd : Nat) (v : Word) (sov : Bool) : State :=
  if p.issued < 19 then s.modTh t (fun x => { x with pat := some { p with issued := p.issued + 1 } })
  else s.modTh t (fun x => ((x.prog rd v.toNat).setSov sov).patDone 1 [rd])

/-- Does a word in the customer area use a vendor-only operation, destination or selector (R237, R238, R239, R242), whose effect the spec
does not give. No image that R245 accepts holds one; the vendor-only source code 0xF, which R245 accepts, reads a free value. -/
def vendorOnly (w : BitVec 96) : Bool :=
  decide (0x10 < bits w 63 58) || decide (8 < bits w 45 42) || decide (0xC < bits w 57 54) ||
  (bits w 82 81 == 2 && (List.range 4).any (fun k =>
    let c := bits w (67 + 4 * k) (64 + 4 * k)
    decide (10 ≤ c ∧ c < 15)))

/-- The number of a vendor pattern (R141 to R147, R104). -/
def PatKind.number : PatKind → Nat
  | .div _ _ _ => 0
  | .copy => 1
  | .fill => 2
  | .cmpb => 3
  | .crc .c32 => 4
  | .crc .c16 => 5
  | .crc .c8 => 6
  | .crc .c8h => 7
  | .unpack => 8
  | .pack => 9
  | .user _ => 10

/-- The micro-address of the word that a vendor pattern is at (R235). -/
def PatRun.vendorAt (p : PatRun) : Nat := Config.vendorAddr p.kind.number p.issued % 0x1800

/-- R250: a vendor word is read from the store: one with a double-bit error does not execute. -/
def State.vendorWord (s : State) (t : Nat) (p : PatRun) (b : Bundle) (go : State → State) : State :=
  let r := s.patRead (coreOf t) p.vendorAt
  if r.2 then r.1.faultLate t (patCause b.addr 2 p.vendorAt) else go r.1

/-- R240: one micro-word of the pattern a thread runs, on the issue that ISSUE_SELECT gave it. What earlier words did is
what the rest of the bundle reads (R144). -/
def execPatternMicroWord (t : Gtn) (s : State) : Out :=
  let x := s.th t
  match x.pat, x.bun with
  | some p, some b =>
    if !(s.coreRuns (coreOf t) && x.state == .run && x.mem == .idle && b.grant) then ok s
    else
      let b := { b with grant := false, old := x.ctx, sbMark := x.sbOrder }
      let s := s.setTh t { x with bun := some b }
      match p.kind with
      | .div rd v sov => ok (s.vendorWord t p b (fun s => s.wordDiv t p rd v sov))
      | .unpack => ok (s.vendorWord t p b (fun s => s.wordSignal t p b))
      | .pack => ok (s.vendorWord t p b (fun s => s.wordSignal t p b))
      | .user _ =>
        if !Tbl.get (fun _ => false) s.pat.bad (patKey (coreOf t) p.maddr) &&
            vendorOnly (s.patWord (coreOf t) p.maddr) then .refused .vendorMicroWord
        else ok (s.wordUser t p b)
      | _ => ok (s.vendorWord t p b (fun s => s.wordResumable t p b))
  | _, _ => ok s

end Sys2Proof.Machine
end

