-- ==== Sys2Proof/Machine/Gateway.lean ====
section
/-! DEFINITION. The signal gateway (R386 to R394): routes, PDU buffers, ACF streams, gateway queues, the island's table. -/

namespace Sys2Proof.Machine

/-- Changes the gateway. -/
def State.modGw (s : State) (f : Gw → Gw) : State := { s with gw := f s.gw }

/-- GWY_ERR_EVR: OVF 18, FMT 17, FANOUT 16, DST 15; GWY_ACF_EVR: NOSTR 18, SEQGAP 17, BADMSG 16 (R387). -/
def State.gwErr (s : State) (flag : Nat) : State := s.record 0x1046001028 flag (some 624)
def State.gwAcf (s : State) (flag : Nat) : State := s.record 0x1046001030 flag (some 626)

/-- An element with another identifier, or another format without the FD bits. -/
def elWithId (el : List Byte) (id : Nat) : List Byte := leBytes 4 (putBits (elWord el 0) 0 29 id).toNat ++ el.drop 4
def elClassic (el : List Byte) : List Byte :=
  leBytes 4 (putBit (elWord el 0) 31 false).toNat ++ leBytes 4 (putBits (elWord el 1) 0 3 0).toNat ++ el.drop 8

/-! ## Destinations (R389 to R392) -/

/-- R389: a copy to a CAN controller's gateway buffers. -/
def State.gwToCan (s : State) (k : Nat) (el : List Byte) : State :=
  let proto := bits (s.reg (canPage k)) 29 28
  let fmt := elFmt el
  let fits := if fmt = 2 then proto == 2 else if fmt = 1 then decide (1 ≤ proto) || decide (elLen el ≤ 8) else decide (elLen el ≤ 8)
  let el := if fmt = 3 ∨ (fmt = 1 ∧ proto = 0) then elClassic el else el
  let same := fun (x : List Byte) => elId x == elId el && elXtd x == elXtd el
  if s.canFused k || !bit (s.reg (canPage k)) 31 then s.gwErr (2 ^ 15)
  else if !fits then s.gwErr (2 ^ 17)
  else
    let c := s.canOf k
    if c.gw.length < 8 then s.setCan k { c with gw := c.gw ++ [el] }
    else match c.gw.findIdx? same with
      | some i => s.setCan k { c with gw := c.gw.set i el }
      | none => s.gwErr (2 ^ 18)

/-- R389: data for a LIN identifier. -/
def State.gwToLin (s : State) (u : Nat) (el : List Byte) : State :=
  if !s.busOn u then s.gwErr (2 ^ 15)
  else if 8 < elLen el then s.gwErr (2 ^ 17)
  else
    let x := s.busOf u
    s.setBus u { x with gw := Tbl.set (fun _ => []) x.gw (elId el % 64) ((el.drop 16).take (elLen el)) }

/-- R391: the fields of a stream entry. -/
def State.stream (s : State) (n : Nat) : BitVec 256 := s.gwEntry 3 n
def strValid (e : BitVec 256) : Bool := bit (entryWord e 4) 31
def strTscf (e : BitVec 256) : Bool := bit (entryWord e 4) 15
def strId (e : BitVec 256) : Nat := e.toNat % 2 ^ 64

/-- R391: the AVTPDU of a stream is sent through its host queue set. -/
def State.acfFlush (s : State) (n : Nat) : State :=
  let e := s.stream n
  let msgs := Tbl.get (fun _ => ([] : List (List Byte))) s.gw.wait n
  if msgs = [] then s
  else
    let sq := Tbl.get (fun _ => (0 : Nat)) s.gw.seqTx n
    let q := bits (entryWord e 4) 23 16
    let p := Config.qsPolicy (s.ethEntry 11 q)
    let mac := e.toNat / 2 ^ 64 % 2 ^ 48
    let d := beBytes 6 mac ++ beBytes 6 p.2.2.1 ++ beBytes 2 0x22F0 ++ Config.avtpdu (strTscf e) (strId e) sq msgs
    let s := s.modGw (fun g => { g with
        wait := Tbl.set (fun _ => []) g.wait n [], seqTx := Tbl.set (fun _ => (0 : Nat)) g.seqTx n ((sq + 1) % 256) })
    (s.forward 20 (bits (entryWord e 4) 11 0) (bits (entryWord e 4) 14 12) d false p.2.2.2.1).2

/-- R391: a message is placed in a stream's AVTPDU; one that would exceed its length starts the next. -/
def State.gwToAcf (s : State) (n : Nat) (el : List Byte) : State :=
  let s := s.tblUse true (3 * 2 ^ 16 + n)
  let e := s.stream n
  if !strValid e then s.gwErr (2 ^ 15)
  else
    let m := Config.acfMessage el
    let have_ := Tbl.get (fun _ => ([] : List (List Byte))) s.gw.wait n
    let size := (Config.avtpdu (strTscf e) (strId e) 0 (have_ ++ [m])).length
    let s := if have_ ≠ [] ∧ bits (entryWord e 6) 10 0 < size then s.acfFlush n else s
    let now := Tbl.get (fun _ => ([] : List (List Byte))) s.gw.wait n
    let s := s.modGw (fun g => { g with
        wait := Tbl.set (fun _ => []) g.wait n (now ++ [m]),
        since := if now = [] then Tbl.set (fun _ => (0 : Nat)) g.since n s.time else g.since })
    if bits (entryWord e 5) 15 0 = 0 then s.acfFlush n else s

/-- R391: a stream's window has run. -/
def execAcfWindowExpiry (n : Fin 64) (s : State) : Out :=
  if s.frozen then ok s else
  let start := Tbl.get (fun _ => (0 : Nat)) s.gw.since n
  whenOk (decide (start + bits (entryWord (s.stream n) 5) 15 0 * 1000 ≤ s.time)) s (s.acfFlush n)

/-- R392: an element is written to the receive ring of a gateway queue. -/
def State.gwWrite (s : State) (q : Nat) (el : List Byte) (src : Nat) : State :=
  let i := 512 + q
  let g := rxRing i
  let a := s.ringAddr g
  let slot := s.ringHead g
  match s.instRead i a 16 slot with
  | (none, s) => (s.ringNext g).instDone i 0x48
  | (some desc, s) =>
    let (good, s) := s.instWrite i (leNat (desc.take 8) / 64 * 64) el slot
    let back := leBytes 8 s.gtb ++ leBytes 4 (el.length + src * 2 ^ 16) ++ leBytes 4 (2 ^ 31 + (if good then 0 else 3) * 2 ^ 28)
    (((s.instWrite i a back slot).2).ringNext g).instDone i 0x48

/-- Does a gateway queue wait for its memory. -/
def Wait.gateway : Nat × Wait → Bool
  | (_, .gwRx _ _ _) => true
  | _ => false

/-- R392: an element for a gateway queue. It waits behind the elements that wait already, while PD19 is off (R187) and while the
hold of a link delays its write (R128); `waited`: it has waited so (R320). -/
def State.gwToQueue (s : State) (q : Nat) (el : List Byte) (src : Nat) (waited : Bool := false) : State :=
  let i := 512 + q
  let g := rxRing i
  let later := fun (s : State) => { s with waits := s.waits ++ [(24, .gwRx q el src)] }
  if !(s.inst i).on then s.gwErr (2 ^ 15)
  else if s.waits.any Wait.gateway then later s
  else if !s.ringTakes g waited || s.ringHead g == s.ringTail g || decide (bits (s.reg (g.reg 2)) 23 16 * 64 < el.length) then s.hqDrop i true
  else if s.domain 19 ≠ .on then later (s.wakeDomain 19)
  else
    let s' := s.gwWrite q el src
    if s.linkBroken s' then later s else s'

/-- R389: a copy of a frame to a gateway port. -/
def State.gwSend (s : State) (dst : Nat) (el : List Byte) (src : Nat) : State :=
  if dst < 0x18 then s.gwToCan dst el
  else if 0x20 ≤ dst ∧ dst < 0x30 then s.gwToLin (dst - 0x20) el
  else if 0x40 ≤ dst ∧ dst < 0x80 then s.gwToAcf (dst - 0x40) el
  else if 0x80 ≤ dst ∧ dst < 0xA0 then s.gwToQueue (dst - 0x80) el src
  else s.gwErr (2 ^ 15)

/-! ## PDU buffers (R390) -/

/-- The 64 bytes of a buffer's data. -/
def State.pduData (s : State) (b : Nat) : List Byte :=
  leBytes 32 (s.gwEntry 2 (2 * b)).toNat ++ leBytes 32 (s.gwEntry 2 (2 * b + 1)).toNat

/-- Replaces them. -/
def State.setPduData (s : State) (b : Nat) (d : List Byte) : State :=
  let put := fun (g : Gw) (i : Nat) (l : List Byte) =>
    { g with
      tbl := Tbl.set (fun _ => (0 : BitVec 256)) g.tbl (2 * 2 ^ 16 + i) (BitVec.ofNat 256 (leNat l)), flips := Tbl.del g.flips (2 * 2 ^ 16 + i) }
  s.modGw (fun g => put (put g (2 * b) (d.take 32)) (2 * b + 1) (d.drop 32))

/-- R390: sends a buffer, once in a µs. -/
def State.pduSend (s : State) (b : Nat) : State :=
  let s := State.tblSearch true s (fun k => k == 2 ^ 16 + b || k / 2 == 2 ^ 16 + b)
  let e := s.gwEntry 1 b
  let us := s.time / 1000 + 1
  if !bit (entryWord e 0) 31 || Tbl.get (fun _ => (0 : Nat)) s.gw.lastUs b == us then s
  else
    let head := leBytes 4 (entryWord e 1).toNat ++ leBytes 4 (entryWord e 2).toNat ++ leBytes 4 0 ++ leBytes 4 0
    let s := s.modGw (fun g => { g with lastUs := Tbl.set (fun _ => (0 : Nat)) g.lastUs b us })
    s.gwSend (bits (entryWord e 0) 7 0) (head ++ (s.pduData b).take (elLen head)) 0

/-- R390: the period of a buffer has passed since its last send. -/
def execPduBufferPeriod (b : Fin 1024) (s : State) : Out :=
  if s.frozen then ok s else
  whenOk (decide (bits (entryWord (s.gwEntry 1 b) 3) 23 0 ≠ 0)) s (s.pduSend b)

/-- A bit of a byte string. -/
def bitOf (d : List Byte) (p : Nat) : Bool := bit (d.getD (p / 8) 0) (p % 8)

/-- R389: a SIGNAL route: the source signal of a frame enters a PDU buffer. -/
def State.gwSignal (s : State) (e : BitVec 256) (el : List Byte) : State :=
  let sd := entryWord e 4
  let dd := entryWord e 5
  let b := bits (entryWord e 3) 9 0
  let data := (el.drop 16).take (elLen el)
  let w := bits sd 18 14 + 1
  let wd := bits dd 18 14 + 1
  let spos := (List.range w).map (fun k => sigPos (bit sd 19) (bits sd 13 0) w k)
  if spos.any (fun p => decide (8 * data.length ≤ p)) then s.gwErr (2 ^ 17)
  else
    let v := (spos.zipIdx).foldl (fun n p => n + b2n (bitOf data p.1) * 2 ^ p.2) 0
    let s := State.tblSearch true s (fun k => k / 2 == 2 ^ 16 + b)
    let old := s.pduData b
    let new := (List.range wd).foldl (fun d k =>
      let p := sigPos (bit dd 19) (bits dd 13 0) wd k
      d.set (p / 8) (putBit (d.getD (p / 8) 0) (p % 8) (Nat.testBit v k))) old
    let s := s.setPduData b new
    let cfg := entryWord (s.gwEntry 1 b) 0
    if (bit dd 31 && bit cfg 30) || (bit cfg 29 && new != old) then s.pduSend b else s

/-! ## Routes (R388) -/

/-- R388: does an entry apply to a frame of a source port. -/
def routeMatches (e : BitVec 256) (src : Nat) (el : List Byte) : Bool :=
  let w := entryWord e 0
  bit w 31 && decide (bits w 29 28 < 2) && bits w 15 8 == src && bit w 30 == elXtd el && bits (entryWord e 1) 28 0 == elId el

/-- R388: one route is applied: COUNT, then the frame or the signal. -/
def State.gwRoute (s : State) (idx : Nat) (e : BitVec 256) (src : Nat) (el : List Byte) : State :=
  let n := satInc 0xFFFF (e.toNat / 2 ^ 192 % 2 ^ 16)
  let s := s.modGw (fun g => { g with tbl := Tbl.set (fun _ => (0 : BitVec 256)) g.tbl idx (putBits e 192 16 n) })
  if bits (entryWord e 0) 29 28 = 0 then
    let w2 := entryWord e 2
    s.gwSend (bits (entryWord e 0) 7 0) (if bit w2 31 then elWithId el (bits w2 28 0) else el) src
  else s.gwSignal e el

/-- R388: a frame leaves the input queue: at most 16 routes apply. The search uses every route entry (R387). -/
def State.gwFrame (s : State) (src : Nat) (el : List Byte) : State :=
  let s := State.tblSearch true s (fun k => k / 2 ^ 16 == 0)
  let hits := s.gw.tbl.filter (fun e => e.1 < 2 ^ 16 && routeMatches e.2 src el)
  let s := (hits.take 16).foldl (fun s e => s.gwRoute e.1 e.2 src el) s
  (hits.drop 16).foldl (fun s _ => s.gwErr (2 ^ 16)) s

/-- Did a frame arrive after the hand-over (R394). -/
def State.afterHandover (s : State) (t : Nat) : Bool :=
  match s.gw.handover with
  | some h => decide (h ≤ t)
  | none => false

/-- R388, R394: the gateway takes the oldest frame. -/
def execGatewayFrameIn (s : State) : Out :=
  if s.frozen then ok s else
  if s.domain 17 ≠ .on then ok (s.wakeDomain 17)
  else match s.gw.inq with
    | [] => ok s
    | (src, el, t) :: r =>
      if s.afterHandover t then ok (((s.modGw (fun g => { g with inq := r })).histAdd 6 0 (s.time - t)).gwFrame src el) else ok s

/-- R394, R425: the island forwards the oldest frame that arrived before the hand-over, by the manifest's static routes. -/
def execIslandRouteForward (s : State) : Out :=
  if s.frozen then ok s else
  match s.gw.inq with
  | [] => ok s
  | (src, el, t) :: r =>
    if s.afterHandover t || !s.hm.island then ok s
    else
      let s := s.modGw (fun g => { g with inq := r })
      ok ((s.hm.man.iroute.filter (fun x => x.1 == src && Nat.testBit x.2.2.1 0 == elXtd el && x.2.2.2.1 == elId el)).foldl
        (fun s x => s.gwSend x.2.1 (if Nat.testBit x.2.2.1 1 then elWithId el x.2.2.2.2 else el) src) s)

/-! ## ACF reception and queues (R391, R392) -/

/-- R391: the oldest frame of a host queue set that belongs to the gateway is unpacked. -/
def execAcfAvtpduRx (q : Fin 48) (s : State) : Out :=
  if s.frozen then ok s else
  match Tbl.get (fun _ => ([] : List EFrame)) s.eth.hostRx q with
  | [] => ok s
  | f :: r =>
    if !s.hm.man.gwSets.contains q.val then ok s
    else
      let s := s.modEth (fun e => { e with hostRx := Tbl.set (fun _ => []) e.hostRx q r })
      let pdu := Config.avtpParse (f.data.drop 14)
      match (List.range 64).find? (fun n => strValid (s.stream n) && strId (s.stream n) == pdu.1) with
      | none => ok (s.gwAcf (2 ^ 18))
      | some n =>
        let want := Tbl.get (fun _ => (0 : Nat)) s.gw.seqRx n
        let s := if want ≠ 0 ∧ want - 1 ≠ pdu.2.1 then s.gwAcf (2 ^ 17) else s
        let s := s.modGw (fun g => { g with seqRx := Tbl.set (fun _ => (0 : Nat)) g.seqRx n ((pdu.2.1 + 1) % 256 + 1) })
        ok (pdu.2.2.foldl (fun s m =>
          match m with
          | some el => s.gwIn (0x40 + n) el
          | none => s.gwAcf (2 ^ 16)) s)

/-- R392: the element of the transmit descriptor at HEAD of a gateway queue: STATUS. -/
def State.gwqFrame (s : State) (q slot : Nat) (desc : List Byte) : Nat × State :=
  let i := 512 + q
  let dst := leNat ((desc.drop 8).take 4) / 2 ^ 16 % 256
  let addr := leNat (desc.take 8)
  let s := s.tblUse true (4 * 2 ^ 16 + q)
  let pol := s.gwEntry 4 q
  if !(decide (dst < 0x80) && Nat.testBit pol.toNat dst) then (1, s)
  else match s.instRead i addr 16 slot with
    | (none, s) => (3, s)
    | (some head, s) =>
      if 2048 < elLen head then (4, s)
      else match s.instRead i addr (16 + elLen head) slot with
        | (none, s) => (3, s)
        | (some el, s) => (0, s.gwSend dst el (0x80 + q))

/-- R392, R356: the gateway works through the transmit ring of a queue. -/
def State.gwqRun (q : Nat) : Nat → State → State
  | 0, s => s
  | n + 1, s =>
    let i := 512 + q
    let g := txRing i
    if !s.ringOn g || s.ringHead g == s.ringTail g then s
    else
      let a := s.ringAddr g
      let slot := s.ringHead g
      match s.instRead i a 16 slot with
      | (none, s) => State.gwqRun q n ((s.ringNext g).instDone i 0x48)
      | (some desc, s) =>
        let (st, s) := s.gwqFrame q slot desc
        let s := if st = 1 then s.hqDrop i false else s
        let back := desc.take 12 ++ leBytes 4 (2 ^ 31 + st * 2 ^ 28)
        State.gwqRun q n ((((s.instWrite i a back slot).2).ringNext g).instDone i 0x48)

/-- R392: the transmit ring of a gateway queue is worked through, once PD19 is awake (R187) and no link's hold delays it (R128). -/
def State.gwqWork (s : State) (q : Nat) : State :=
  if s.domain 19 ≠ .on then s.waitOn 19 (.gwTx q)
  else
    let s' := State.gwqRun q 4096 s
    if s.linkBroken s' then { s with waits := s.waits ++ [(24, .gwTx q)] } else s'

/-- R392: the doorbell of a gateway queue's transmit ring. -/
def State.gwqDoorbell (s : State) (q : Nat) (w : W32) : State :=
  (s.ringTailWrite (txRing (512 + q)) w).gwqWork q

/-- R392. -/
def execGwqTxTailWrite (rq : Req) (q : Fin 32) (w : W32) (s : State) : Out :=
  ok (s.instAccess rq ((txRing (512 + q)).reg 3) (512 + q) (some w) (fun s => s.gwqDoorbell q w))

end Sys2Proof.Machine
end

