-- ==== Sys2Proof/Machine/Pcie.lean ====
section
/-! DEFINITION. PCI Express (R362 to R367) but for inbound requests: links, vectors, outbound errors. -/

namespace Sys2Proof.Machine

/-- Changes PCI Express. -/
def State.modPcie (s : State) (f : Pcie → Pcie) : State := { s with pcie := f s.pcie }

/-- R366: the role of controller `c` as the manifest configures it: 0 off, 1 root port, 2 endpoint. -/
def State.pceRole (s : State) (c : Nat) : Nat :=
  if !s.hm.man.pcie then 0
  else if c = 0 then s.hm.man.pcieRole0
  else if s.hm.man.pcieBif && s.order != 0x920 then s.hm.man.pcieRole1 else 0

/-- Is some controller a root port. -/
def State.pceRoot (s : State) : Bool := s.pceRole 0 == 1 || s.pceRole 1 == 1

/-- PCE_CFG (R366). -/
def State.pceCfg (s : State) : W32 :=
  BitVec.ofNat 32 (b2n (s.hm.man.pcie && s.hm.man.pcieBif) * 2 ^ 8 + s.pceRole 1 * 16 + s.pceRole 0)

/-- The link of a controller: rate code and width. -/
def State.pceLink (s : State) (c : Nat) : Nat × Nat := Tbl.get (fun _ => (0, 0)) s.pcie.link c

/-- PCE_LINK_STAT (R366). -/
def State.pceLinkStat (s : State) : W32 :=
  let f := fun (c : Nat) => b2n ((s.pceLink c).1 != 0) * 128 + (s.pceLink c).1 * 16 + (s.pceLink c).2
  BitVec.ofNat 32 (f 1 * 2 ^ 16 + f 0)

/-- PCE_FN_STAT (R363). -/
def State.pceFnStat (s : State) (f : Nat) : W32 :=
  BitVec.ofNat 32 (b2n (s.pcie.bme.getLsbD f) * 2 ^ 31 + b2n (s.pcie.msix.getLsbD f) * 2 ^ 30 +
    b2n (s.pcie.fmask.getLsbD f) * 2 ^ 29 + b2n (s.pcie.flr.getLsbD f) * 2 ^ 28 +
    (Tbl.get (fun _ => (0 : BitVec 16)) s.pcie.pba f).toNat)

/-- A thread whose outbound access is in flight gets an error response (R367: Bus error with detail 1). -/
def Thread.outFails (x : Thread) : Thread :=
  match x.mem with
  | .device r pa none true => { x with mem := .device r pa (some 1) true }
  | _ => x

/-- R367: no completion within 500 µs. -/
def execPcieCompletionTimeout (t : Gtn) (s : State) : Out := ok (s.modTh t Thread.outFails)

/-- Does an agent hold any line. -/
def State.holdsLines (s : State) (a : Nat) : Bool := s.coh.agents.any (fun e => e.1 / 2 ^ 34 == a && e.2.st != .I)

/-- R367, R232: the link of a controller drops. -/
def execPcieLinkDown (ctl : Fin 2) (s : State) : Out :=
  if (s.pceLink ctl.val).1 = 0 then ok s
  else
    let s := s.modPcie (fun p => { p with link := Tbl.set (fun _ => (0, 0)) p.link ctl.val (0, 0) })
    let s := (s.thr.map Prod.fst).foldl (fun s t => s.modTh t Thread.outFails) s
    let s := if s.holdsLines 12 then s.declareDead 12 (2 ^ 15) 0 else s
    ok (s.record 0x1048001008 (2 ^ 17) (some 816))

/-- R2, R362: is a width one of a link of a controller: eight lanes, four when the manifest bifurcates and on the part that has four. -/
def State.pceFits (s : State) (width : Nat) : Bool :=
  width == 1 || width == 2 || width == 4 || (width == 8 && !s.hm.man.pcieBif && s.order != 0x920)

/-- R366, R367: the link of a controller comes up at a rate and width, or recovers without loss of the data link layer. -/
def execPcieLinkUp (ctl : Fin 2) (rate : Fin 6) (width : Fin 9) (s : State) : Out :=
  if s.pceRole ctl.val = 0 ∨ s.domain 18 ≠ .on ∨ rate.val = 0 ∨ s.pceFits width.val = false then ok s
  else
    let was := (s.pceLink ctl.val).1
    let s := s.modPcie (fun p => { p with link := Tbl.set (fun _ => (0, 0)) p.link ctl.val (rate.val, width.val) })
    ok (s.record 0x1048001008 (if was = 0 then 2 ^ 18 else 2 ^ 16) (some 816))

/-- Is a host mailbox on the PCIe endpoint (R277). -/
def State.pceHost (s : State) : Option Nat := (List.range 4).find? (fun h => (s.hostOf h).1 == 3)

/-- R363: a write to PCE_FN_MSI. -/
def State.pceMsi (s : State) (f : Nat) (w : W32) : State :=
  let v := bits w 3 0
  if f = 0 ∧ v = 0 ∧ s.pceHost.isSome then s else s.pceVector f v

/-- R363. -/
def execPceFnMsiWrite (rq : Req) (f : Fin 16) (w : W32) (s : State) : Out :=
  ok (s.instAccess rq (instPage (1280 + f.val) + 0x28) (1280 + f.val) (some w) (fun s => s.pceMsi f.val w))

/-- R363: a pending vector goes out. -/
def execMsiPendingSend (f v : Fin 16) (s : State) : Out :=
  if s.frozen then ok s else
  ok (s.pceSend f.val v.val)

end Sys2Proof.Machine
end

