-- ==== Sys2Proof/Machine/Scrub.lean ====
section
/-! DEFINITION. Scrubbers (R335, R336) and the DRAM commands of chapter 15. -/

namespace Sys2Proof.Machine

/-! ## Scrubbers (R335, R336) -/

/-- A scrubber. -/
def State.scrub (s : State) (kind unit : Nat) : Scrub := Tbl.get (fun _ => ({} : Scrub)) s.dram.scrubs (kind * 16 + unit)
def State.setScrub (s : State) (kind unit : Nat) (x : Scrub) : State :=
  { s with dram := { s.dram with scrubs := Tbl.set (fun _ => ({} : Scrub)) s.dram.scrubs (kind * 16 + unit) x } }

/-- The lines of a scrubber's memory, but for DRAM. -/
def scrubLines (kind : Nat) : Nat := if kind = 0 then 65536 else if kind = 1 then 49152 else 32768

/-- R335: the first data line of a protected region at or after `line` in a channel, below the installed capacity. -/
def State.dramNext (s : State) (c line : Nat) : Option Nat :=
  let fits := fun (l : Nat) => s.protLine l && channelOf l == c && !s.checkAddr (l * 64 + 63)
  match ((List.range 16).map (fun i => line + i)).find? fits with
  | some l => some l
  | none =>
    let r := line * 64 / 0x40000000
    ((List.range 64).filter (fun k => decide (r < k))).findSome? (fun k =>
      ((List.range 16).map (fun i => k * 0x1000000 + i)).find? fits)

/-- The lap limit of a kind in ns; 0 for none. -/
def State.lapLimit (s : State) (kind : Nat) : Nat :=
  if kind = 2 then s.dram.limDram * 1000000000
  else (if kind = 0 then s.dram.limL2 else if kind = 1 then s.dram.limSlc else s.dram.limQuay) * 1000000

/-- R336: LATE is recorded, and counted where the group has a counter for it. -/
def State.scrubLate (s : State) (kind unit : Nat) : State :=
  if kind = 2 then (s.record (chPage unit + 8) (2 ^ 17) (some (80 + 6 * unit + 2))).count (0x10 + unit) 8
  else if kind = 0 then s.record (0x1040007000 + unit * 0x100000) (2 ^ 14) (some (8 * unit + 4))
  else if kind = 1 then (s.record (0x1043003000 + 4 * unit) (2 ^ 14) (some (131 + unit))).count (0x20 + unit) 5
  else (s.record (0x1043003040 + 4 * unit) (2 ^ 14) (some (147 + unit))).count (0x30 + unit) 6

/-- R335: the line of a scrubber's memory at a place of its order: a way of a set of a cache, or a line of its quay bank. -/
def State.scrubLine (s : State) (kind unit pos : Nat) : Option Nat :=
  let wayLine (c : CacheId) (set w : Nat) : Option Nat := (Tbl.get (fun _ => ({} : CSet)) s.coh.sets (c.key set)).line w
  if kind = 0 then wayLine (.l2 unit) (pos / 16) (pos % 16)
  else if kind = 1 then wayLine (.slc unit) (pos / 12) (pos % 12)
  else some (0x1000000000 / 64 + pos * 8 + unit)

/-- R335, R204: a scrubber of an L2 reads a line that the L2 holds; a clean copy that is lost leaves. -/
def State.scrubL2 (s : State) (a line : Nat) : State :=
  let st := (s.aline a line).st
  if st = .I then s
  else
    let r := s.copyRead (1 + a) line 0 15 true st.only
    if r.1 then r.2.evict a line else r.2

/-- R335, R204: a scrubber of a slice reads a line that it holds; a clean copy that is lost is fetched again. -/
def State.scrubSlc (s : State) (line : Nat) : State :=
  if s.slcOf line = .absent then s
  else
    let r := s.copyRead 9 line 0 15 true (s.slcOf line == .dirty)
    if r.1 then r.2.dramRead line 15 else r.2

/-- R335: what a scrubber does with the line it reads. -/
def State.scrubRead (s : State) (kind unit line : Nat) : State :=
  if kind = 0 then s.scrubL2 unit line
  else if kind = 1 then s.scrubSlc line
  else (List.range 8).foldl (fun s i => s.eccWord line 15 true i) s

/-- R335, R336: a scrubber reads its next line; its lap ends behind the last. -/
def State.scrubStep (s : State) (kind unit : Nat) : State :=
  let x := s.scrub kind unit
  let start := x.start.getD s.time
  let at_ := if kind = 2 then s.dramNext unit x.pos else if x.pos < scrubLines kind then some x.pos else none
  let lim := s.lapLimit kind
  let late := !x.late && decide (lim ≠ 0) && decide (start + lim < s.time)
  let s := if late then s.scrubLate kind unit else s
  let x := { x with start := some start, late := x.late || late }
  match at_ with
  | none => s.setScrub kind unit x
  | some p =>
    let s := match if kind = 2 then some p else s.scrubLine kind unit p with
      | some l => s.scrubRead kind unit l
      | none => s
    let more := if kind = 2 then (s.dramNext unit (p + 1)).isSome else decide (p + 1 < scrubLines kind)
    if more then s.setScrub kind unit { x with pos := p + 1 }
    else
      let lap := (s.time - start + 999999) / 1000000
      let s := s.setScrub kind unit { lap := some lap }
      if kind = 2 then
        (s.setReg (chPage unit + 0x24) (BitVec.ofNat 32 lap)).record (chPage unit + 8) (2 ^ 18) (some (80 + 6 * unit + 2))
      else s

/-- Is a scrubber's or a channel's unit fused by the order code (R2, R3). -/
def State.scrubFused (s : State) (kind unit : Nat) : Bool :=
  (kind == 0 && s.clusterFused unit) || (kind == 2 && s.channelFused unit)

/-- R335. A scrubber rests in S1, S2 and a freeze (R336), and while its memory is disabled (R337) or off. -/
def execScrubRead (kind : Fin 4) (unit : Fin 16) (s : State) : Out :=
  let there := if kind.val = 1 then true else decide (unit.val < 8)
  let off := Tbl.get (fun _ => false) s.memOff ([1, 2, 3, 0].getD kind.val 0 * 256 + unit.val)
  whenOk (there && !off && !s.scrubFused kind.val unit.val && (kind.val != 0 || s.domain (2 + unit.val) != .off) && !s.frozen && s.pwr.sleep == .awake) s (s.scrubStep kind.val unit.val)

/-- R327, R339: the device temperature report of a channel, read every 32 ms: its refresh multiplier, and whether it is above
its operating range. -/
def execDramTemperatureRead (c : Fin 8) (rate : Nat) (hot : Bool) (s : State) : Out :=
  if s.channelFused c.val then ok s else
  let was := Tbl.get (fun _ => (0 : Nat)) s.dram.refresh c.val
  let s := { s with dram := { s.dram with refresh := Tbl.set (fun _ => (0 : Nat)) s.dram.refresh c.val rate } }
  let fl := b2n (decide (was < rate)) * 2 ^ 18 + b2n (decide (rate < was)) * 2 ^ 17 + b2n hot * 2 ^ 16
  ok (if fl = 0 then s else s.record (chPage c.val + 0xC) fl (some (80 + 6 * c.val + 3)))

/-- R327: the WCK-to-DQ tracking of a channel changes nothing that a command can see. -/
def execWckTracking (_ : Fin 8) (s : State) : Out := ok s

end Sys2Proof.Machine
end

