-- ==== Sys2Proof/Machine/Commands.lean ====
section
/-! DEFINITION. The remaining harbour commands of chapter 13: system, instances, routes, errors and counters, time, counters and
trace (R297, R300 to R302, R304, R308, R309). -/

namespace Sys2Proof.Machine

/-! ## System (R297) -/

/-- R297. -/
def execSysInfo (m : Fin 69) (s : State) : Out :=
  ok (s.harbour m.val 0x0101 (fun s _ =>
    let h := s.hm
    .done s [BitVec.ofNat 32 (s.order * 2 ^ 16 + 0x0100), s.mbxVer,
             BitVec.ofNat 32 (b2n h.held + b2n h.committed * 2 + b2n h.full * 4 + b2n h.man.safety * 8 + b2n s.sec.cert * 16),
             BitVec.ofNat 32 (bits (s.reg 0x104A004000) 31 28)]))

/-- R297: the reset follows the response (log 6). -/
def execSysReset (m : Fin 69) (s : State) : Out :=
  ok (s.harbour m.val 0x0102 (fun s q =>
    if q.q 0 ≠ 3 ∧ q.q 0 ≠ 4 then .fail stDenied 8
    else if s.hm.acc.any (fun a => a.opcode == 0x0902) then .fail stBusy 1
    else .done { s with rstReq := some (q.q 0).toNat } []))

/-- R297. -/
def execSysEcho (m : Fin 69) (s : State) : Out := ok (s.harbour m.val 0x0103 (fun s q => .done s q.pay))

/-! ## Instances (R300, R318, R375) -/

/-- The instance that a name of R300 means, if its type and index exist. -/
def instName (w : Nat) : Option Nat :=
  let ty := w % 16
  let ix := w / 256 % 256
  if w / 16 % 16 = 0 ∧ 1 ≤ ty ∧ ty ≤ 5 ∧ ix < instCount ty then some (ty * 256 + ix) else none

/-- The lowest IO context that no instance uses; context 255 belongs to the root port (R365). -/
def State.freeCtx (s : State) : Option Nat :=
  (List.range 255).find? (fun c => !s.hm.insts.any (fun e => e.2.on && e.2.ctx == c))

/-- The lowest free block of a CAN controller (R375). -/
def State.freeBlock (s : State) (k : Nat) : Option Nat :=
  (List.range 4).find? (fun j => Tbl.get (fun _ => (0 : Nat)) (s.canOf k).shares j == 0)

/-- R300: creates an instance whose checks have passed. -/
def State.instMake (s : State) (i b sub ctx blk ipa : Nat) (s1en : Bool) (s1base asid : Nat) : Option State :=
  match s.mapIn b (devMap ipa (instPage i / 4096) 1) with
  | none => none
  | some s =>
    let s := s.setInst i { on := true, berth := b, sub := sub, ctx := ctx, ipa := ipa }
    let s := if i / 256 = 4 then
        (s.modCan sub (fun c => { c with shares := Tbl.set (fun _ => (0 : Nat)) c.shares blk (i % 256 + 1) })).setShare (i % 256)
          { can := sub, blk := blk }
      else { s with
          ioctx := Tbl.set (fun _ => ({} : IoCtx)) s.ioctx ctx
              { berth := b, s1en := s1en, s1base := BitVec.ofNat 31 s1base, asid := BitVec.ofNat 12 asid } }
    some (s.instEvents i b)

/-- R300. -/
def execInstCreate (m : Fin 69) (s : State) : Out :=
  ok (s.harbour m.val 0x0401 (fun s q =>
    let sub := bits (q.q 0) 23 16
    let ipa := bits (q.q 3) 27 0
    match instName (bits (q.q 0) 15 0) with
    | none => .fail stDenied 8
    | some i =>
      let can := decide (i / 256 = 4)
      if bits (q.q 0) 31 25 ≠ 0 ∨ bit (q.q 1) 31 ∨ bits (q.q 2) 31 12 ≠ 0 ∨ bits (q.q 3) 31 28 ≠ 0 ∨
          (if can then 23 < sub else sub ≠ 0) then .fail stDenied 8
      else if !s.holdsP q && !s.hm.man.lists.any (fun l => l.1 == q.b && l.2.contains (bits (q.q 0) 15 0)) then .fail stDenied 3
      else if can && s.canFused sub then .fail stNoResource 1
      else if (i / 256 = 5 && s.pceRoot) || (i / 256 = 3 && s.hm.man.gwSets.contains (i % 256)) then .fail stDenied 5
      else if (s.inst i).on then .fail stNoResource 3
      else if (s.berth q.b).maps.any (fun o => o.meets ipa 1) then .fail stDenied 9
      else match (if can then some 0xFF else s.freeCtx), (if can then s.freeBlock sub else some 0) with
        | some ctx, some blk =>
          (match s.instMake i q.b sub ctx blk ipa (bit (q.q 0) 24) (bits (q.q 1) 30 0) (bits (q.q 2) 11 0) with
          | none => .fail stNoResource 2
          | some s => .done s [BitVec.ofNat 32 ctx, BitVec.ofNat 32 (instEvent i + 2 * 2 ^ 16)])
        | _, _ => .fail stNoResource 2))

/-- An instance command that names an instance of BERTH. -/
def State.instCommand (s : State) (m op : Nat) (f : State → Sub → Nat → Reply) : State :=
  s.harbour m op (fun s q =>
    match instName (q.q 0).toNat with
    | none => .fail stDenied 8
    | some i =>
      if !(s.inst i).on then .fail stNoResource 4
      else if (s.inst i).berth ≠ q.b then .fail stDenied 3
      else f s q i)

/-- R300. -/
def execInstDestroy (m : Fin 69) (s : State) : Out :=
  ok (s.instCommand m.val 0x0402 (fun s _ i => .accept (s.instReset i 0 true true) []))

/-- R300, R322. -/
def execInstReset (m : Fin 69) (s : State) : Out :=
  ok (s.instCommand m.val 0x0403 (fun s q i =>
    let t := bits (q.q 1) 31 16
    if bits (q.q 1) 15 1 ≠ 0 then .fail stDenied 8
    else
      let frog := bit (q.q 1) 0 || ((s.inst i).rst && (s.inst i).frog)
      .accept (s.instReset i (if t = 0 then 1000000 else t * 10000) frog false) []))

/-- R300. -/
def execInstQuery (m : Fin 69) (s : State) : Out :=
  ok (s.harbour m.val 0x0404 (fun s q =>
    match instName (q.q 0).toNat with
    | none => .fail stDenied 8
    | some i =>
      let x := s.inst i
      .done s [if x.on then BitVec.ofNat 32 (x.berth + 2 ^ 8 + b2n x.rst * 2 ^ 9 + x.ctx * 2 ^ 16) else 0]))

/-! ## Event routes (R301) -/

/-- Does an instance hold an entry. -/
def State.instHolds (s : State) (e : Nat) : Bool :=
  s.hm.insts.any (fun x => x.2.on && (instEvent x.1 == e || instEvent x.1 + 1 == e))

/-- A route range command: checks every entry of the range, then clears each and gives it to a berth. -/
def State.routeRange (s : State) (q : Sub) (owner dest : Nat) : Reply :=
  let lo := bits (q.q 0) 10 0
  let n := bits (q.q 0) 26 16
  let all := (List.range n).map (fun i => lo + i)
  let es := all.filter (fun e => !(srcNever e && !decide (1216 ≤ e ∧ e < 1232)))
  if (q.q 0) &&& 0xF800F800 ≠ 0 ∨ n = 0 ∨ 256 < n ∨ 1536 < lo + n then .fail stDenied 8
  else if all.any s.srcFused then .fail stNoResource 1
  else if es.any (fun e => decide (1216 ≤ e ∧ e < 1232) || bit (s.rteCfg e) 19 || s.instHolds e) then .fail stDenied 4
  else if es.any (fun e => rteOwner (s.rteCfg e) != owner) then .fail stDenied 3
  else .done (es.foldl (fun s e => s.clearEntry e dest) s) []

/-- R301. -/
def execRouteGive (m : Fin 69) (s : State) : Out := ok (s.harbour m.val 0x0501 (fun s q => s.routeRange q 0 q.b))

/-- R301. -/
def execRouteReturn (m : Fin 69) (s : State) : Out := ok (s.harbour m.val 0x0502 (fun s q => s.routeRange q q.b 0))

/-- R301, R268. -/
def execDbShare (m : Fin 69) (s : State) : Out :=
  ok (s.harbour m.val 0x0503 (fun s q =>
    let d := bits (q.q 0) 7 0
    if (q.q 0) &&& 0xFFFEC000 ≠ 0 then .fail stDenied 8
    else if rteOwner (s.rteCfg (1280 + d)) ≠ q.b then .fail stDenied 3
    else .done (s.setReg (bellAddr d + 0x40) (BitVec.ofNat 32 (b2n (bit (q.q 0) 16) * 2 ^ 31 + bits (q.q 0) 13 8 * 2 ^ 24))) []))

/-- R301. -/
def execRouteQuery (m : Fin 69) (s : State) : Out :=
  ok (s.harbour m.val 0x0504 (fun s q =>
    let n := (q.q 0).toNat
    if 1536 ≤ n then .fail stDenied 8
    else if s.srcFused n then .fail stNoResource 1
    else
      let e := if 1216 ≤ n ∧ n < 1232 then copyEntry q.b (n - 1216) else n
      let c := s.rteCfg e
      .done s [BitVec.ofNat 32 (rteOwner c + b2n (bit c 19) * 2 ^ 8 + b2n (bit c 20) * 2 ^ 9 + b2n (s.instHolds n) * 2 ^ 10)]))

/-! ## Errors and counters (R302, R304, R341, R342) -/

/-- The eight words of a log entry (R304). -/
def LogEntry.words (e : LogEntry) : List W32 :=
  [BitVec.ofNat 32 (e.seq.toNat * 2 ^ 16 + e.source * 2 ^ 8 + e.kind), BitVec.ofNat 32 e.time, BitVec.ofNat 32 (e.time / 2 ^ 32),
   BitVec.ofNat 32 ((match e.gtn with
     | some t => 2 ^ 31 + t * 2 ^ 16
     | none => 0) + e.berth),
   BitVec.ofNat 32 e.addr, BitVec.ofNat 32 (e.addr / 2 ^ 32 % 256), e.w6, e.w7]

/-- The first `n` entries that may be returned, and the sequence number after the last entry looked at. -/
def logTake (ok : LogEntry → Bool) (last : BitVec 16) : Nat → List LogEntry → List LogEntry × BitVec 16
  | _, [] => ([], last)
  | n, e :: r =>
    if n = 0 then ([], e.seq)
    else if ok e then
      let x := logTake ok last (n - 1) r
      (e :: x.1, x.2)
    else logTake ok last n r

/-- R302, R304. -/
def execLogRead (m : Fin 69) (s : State) : Out :=
  ok (s.harbour m.val 0x0603 (fun s q =>
    let first : BitVec 16 := BitVec.ofNat 16 (bits (q.q 0) 15 0)
    let oldest : BitVec 16 := s.logSeq - BitVec.ofNat 16 s.log.length
    let at_ := (first - oldest).toNat
    let held := decide (at_ ≤ s.log.length)
    let passed := if held then 0 else min 0xFF (oldest - first).toNat
    let x := logTake (fun e => s.holdsP q || e.berth == q.b) s.logSeq 7 (s.log.drop (if held then at_ else 0))
    if bits (q.q 0) 31 16 ≠ 0 then .fail stDenied 8
    else .done s (BitVec.ofNat 32 (x.2.toNat + x.1.length * 2 ^ 16 + passed * 2 ^ 24) :: x.1.flatMap LogEntry.words)))

/-- R342: does a counter group exist. -/
def groupThere (g : Nat) : Bool :=
  decide (g < 8) || (decide (0x10 ≤ g) && decide (g < 0x18)) || (decide (0x20 ≤ g) && decide (g < 0x30)) ||
  (decide (0x30 ≤ g) && decide (g < 0x38)) || (decide (0x40 ≤ g) && decide (g < 0x48)) || (decide (0x100 ≤ g) && decide (g < 0x140))

/-- R341: is the unit of a counter group fused. -/
def State.groupFused (s : State) (g : Nat) : Bool :=
  (decide (g < 8) && s.clusterFused g) || (decide (0x10 ≤ g) && decide (g < 0x18) && s.channelFused (g - 0x10))

/-- The address of the guard count that a group's counter shows (R342, R27). -/
def guardCnt (g r : Nat) : Nat := if g = 0x41 then 0x1040000008 + (r - 1) * 0x100000 else frameBase (r + 1) + 8

/-- Is a counter a guard count. -/
def isGuardCnt (g r : Nat) : Bool := (g == 0x41 && decide (r ≤ 8)) || (g == 0x42 && decide (r ≤ 14))

/-- R302, R342. -/
def execCntRead (m : Fin 69) (s : State) : Out :=
  ok (s.harbour m.val 0x0604 (fun s q =>
    let g := (q.q 0).toNat
    if !groupThere g then .fail stDenied 8
    else if s.groupFused g then .fail stNoResource 1
    else if !s.holdsP q ∧ g ≠ 0x100 + q.b then .fail stDenied 3
    else .done s ((List.range 16).map (fun i =>
      if isGuardCnt g (i + 1) then s.reg (guardCnt g (i + 1)) else BitVec.ofNat 32 (s.counter g (i + 1))))))

/-- R302, R341. -/
def execCntClear (m : Fin 69) (s : State) : Out :=
  ok (s.harbour m.val 0x0605 (fun s q =>
    let g := (q.q 0).toNat
    if !groupThere g then .fail stDenied 8
    else if s.groupFused g then .fail stNoResource 1
    else
      let s := { s with errCnt := s.errCnt.filter (fun e => e.1 / 32 != g) }
      .done ((List.range 16).foldl (fun s i => if isGuardCnt g (i + 1) then s.setReg (guardCnt g (i + 1)) 0 else s) s) []))

/-- R302, R232. -/
def execAgentReclaim (m : Fin 69) (s : State) : Out :=
  ok (s.harbour m.val 0x0606 (fun s q =>
    let a := (q.q 0).toNat
    if 12 < a then .fail stDenied 8
    else if a < 8 ∧ s.clusterFused a then .fail stNoResource 1
    else if a = 8 then .fail stDenied 5
    else if s.agentDead a && !s.coh.reclaim.any (fun e => e.1 == a) then .fail stDenied 9
    else .accept (s.declareDead a (2 ^ 14) 0) []))

/-- R233: the reclaim of the first dead agent is complete. -/
def execReclaimComplete (s : State) : Out :=
  match s.coh.reclaim with
  | [] => ok s
  | (a, cause, lines) :: r =>
    let s := s.modCoh (fun c => { c with reclaim := r })
    let src := s.reg 0x104300200C
    let s := if bits src 31 28 = a then s.setReg 0x104300200C (putBit src 23 true) else s
    let s := s.logErr 4 1 none 0 0 (a + cause * 16) lines
    let s := if a < 8 then (s.clusterThreads a).foldl (fun s t => s.modTh t (fun x =>
        { x with holdSent := x.holdSent || x.state == .run || x.state == .wait })) s else s
    match s.accepted (fun c => c.opcode == 0x0606 && (c.pay.getD 0 0).toNat == a) with
    | some c => ok (s.workEnds c (r0 stOk 0) [BitVec.ofNat 32 lines])
    | none => ok s

/-- R302. -/
def execScrubStatus (m : Fin 69) (s : State) : Out :=
  ok (s.harbour m.val 0x0607 (fun s q =>
    let k := (q.q 0).toNat
    if 3 < k then .fail stDenied 8
    else .done s ((List.range (if k = 1 then 16 else 8)).map (fun u =>
      match (s.scrub k u).lap with
      | some n => BitVec.ofNat 32 n
      | none => 0xFFFFFFFF))))

/-! ## Time (R308) -/

/-- R308. -/
def execTimeGet (m : Fin 69) (s : State) : Out :=
  ok (s.harbour m.val 0x0A01 (fun s _ =>
    .done s [BitVec.ofNat 32 (s.gtbFrac / 2 ^ 16 % 2 ^ 16), BitVec.ofNat 32 s.gtb, BitVec.ofNat 32 (s.gtb / 2 ^ 32)]))

/-- R308. -/
def execTimeStep (m : Fin 69) (s : State) : Out :=
  ok (s.harbour m.val 0x0A02 (fun s q =>
    let v := (q.q 1).toNat + (q.q 2).toNat * 2 ^ 32
    if bits (q.q 0) 31 1 ≠ 0 then .fail stDenied 8
    else if s.eth.source ≠ 0 then .fail stDenied 5
    else .done (s.timeStepTo ((if bit (q.q 0) 0 then s.gtb + v else v) % 2 ^ 64)) []))

/-- R308. -/
def execTimeSource (m : Fin 69) (s : State) : Out :=
  ok (s.harbour m.val 0x0A03 (fun s q =>
    if 2 < (q.q 0).toNat then .fail stDenied 8
    else .done (s.modEth (fun e => { e with source := (q.q 0).toNat })) []))

/-- R308. -/
def execAlarmGive (m : Fin 69) (s : State) : Out :=
  ok (s.harbour m.val 0x0A04 (fun s q =>
    let a := bits (q.q 0) 2 0
    let ret := bit (q.q 0) 8
    let o := Tbl.get (fun _ => (0 : Nat)) s.alarms a
    if (q.q 0) &&& 0xFFFFFEF8 ≠ 0 then .fail stDenied 8
    else if (if ret then o ≠ q.b else o ≠ 0 ∧ o ≠ q.b) then .fail stDenied 3
    else .done (s.alarmGive a (if ret then 0 else q.b)) []))

/-! ## Counters and trace (R309) -/

/-- R309, R483. -/
def execCntGive (m : Fin 69) (s : State) : Out :=
  ok (s.harbour m.val 0x0B02 (fun s q =>
    let u := bits (q.q 0) 6 0
    let ret := bit (q.q 0) 8
    if (q.q 0) &&& 0xFFFFFE80 ≠ 0 ∨ 74 < u then .fail stDenied 8
    else if 32 ≤ u then .fail stDenied 5
    else if s.cntAbsent u then .fail stNoResource 1
    else if (match s.cntOwner u with
        | some o => o != q.b
        | none => ret) then .fail stDenied 3
    else match s.cntGive u (if ret then none else some q.b) with
      | none => .fail stNoResource 2
      | some s => .done s []))

/-- R309, R476. -/
def execTraceBuf (m : Fin 69) (s : State) : Out :=
  ok (s.harbour m.val 0x0B03 (fun s q =>
    let pa := bits (q.q 0) 27 0
    let n := (q.q 1).toNat
    if bits (q.q 0) 31 28 ≠ 0 ∨ n = 0 ∨ 65536 < n ∨ s.touchesCheck pa n then .fail stDenied 8
    else if s.dramInstalled < (pa + n) * 4096 ∨ !s.unmappedW (pa * 4096) n then .fail stDenied 5
    else
      let wptr := match s.trc.saved with
        | some (b, k, w) => if b = pa ∧ k = n then w else 0
        | none => 0
      .done ((s.modTrc (fun t => { t with full := false })).setRegs
        [(0x104C002004, BitVec.ofNat 32 (pa * 4096)), (0x104C002008, BitVec.ofNat 32 (pa / 0x100000)), (0x104C00200C, BitVec.ofNat 32 n),
         (0x104C002010, BitVec.ofNat 32 wptr)]) []))

/-- R309. -/
def execTraceCtl (m : Fin 69) (s : State) : Out :=
  ok (s.harbour m.val 0x0B04 (fun s q =>
    let cs := (List.range 32).filter (fun c => bit (q.q 0) c)
    if bits (q.q 1) 31 1 ≠ 0 then .fail stDenied 8
    else if cs.any (fun c => s.clusterFused (c / 4)) then .fail stNoResource 1
    else .done (cs.foldl (fun s c => s.encArm c (bit (q.q 1) 0)) s) []))

/-! ## Work that ends by itself -/

/-- The work of an accepted command that the harbourmaster can end now (R285). -/
def State.workStep (s : State) (a : Accepted) : State × Bool :=
  let q := fun (i : Nat) => a.pay.getD i 0
  if a.opcode = 0x0302 then
    match s.destroyWork a.berth with
    | (s, true) => (s.workEnds a (r0 stOk 0) [], true)
    | (s, false) => (s, false)
  else if a.opcode = 0x0306 then
    let n := bits (q 0) 2 0
    if s.coh.reclaim.any (fun e => e.1 == n) then (s, false) else ((s.clusterBack n).workEnds a (r0 stOk 0) [], true)
  else if a.opcode = 0x0601 then (s.workEnds a (r0 stOk 0) [], true)
  else if a.opcode = 0x0602 then ((s.invalidatePages a.berth (bits (q 0) 27 0) (q 1).toNat).workEnds a (r0 stOk 0) [], true)
  else if a.opcode = 0x0704 then (s.attestWork a (BitVec.ofNat 32 (s.psv 0).toNat), true)
  else (s, false)

end Sys2Proof.Machine
end

