-- ==== Sys2Proof/Machine/Manifest.lean ====
section
/-! DEFINITION. The manifest (R427 to R431): its header, signatures, records, the order of its checks with their codes, and the
images it names (R245 to R249, R291, R446). -/

namespace Sys2Proof.Machine

/-! ## Fields and records (R428) -/

/-- The little-endian field of `n` bytes at an offset. -/
def fld (l : List Byte) (o n : Nat) : Nat := leNat ((l.drop o).take n)

/-- Are `n` bytes at an offset zero. -/
def zeros (l : List Byte) (o n : Nat) : Bool := ((l.drop o).take n).all (fun b => b == 0)

/-- A 36-bit address field of 8 bytes. -/
def fld36 (l : List Byte) (o : Nat) : Word := BitVec.ofNat 36 (fld l o 8)

/-- The records of a segment, which they fill exactly: type and body; none where one is malformed. Fuel. -/
def recsOf : Nat → List Byte → Option (List (Nat × List Byte))
  | 0, l => if l.isEmpty then some [] else none
  | f + 1, l =>
    if l.isEmpty then some []
    else
      let n := fld l 2 2
      let p := (n + 3) / 4 * 4
      if l.length < 4 + p || !zeros l (4 + n) (p - n) then none
      else (recsOf f (l.drop (4 + p))).map (fun r => (fld l 0 2, (l.drop 4).take n) :: r)

/-- Does no type stand twice. -/
def noTwice : List Nat → Bool
  | [] => true
  | a :: r => !r.contains a && noTwice r

/-- The records of a segment whose types lie from `lo` to `hi`, each at most once; types from 0x8000 on are ignored. -/
def segRecs (lo hi : Nat) (l : List Byte) : Option (List (Nat × List Byte)) :=
  match recsOf l.length l with
  | none => none
  | some r =>
    let r := r.filter (fun e => decide (e.1 < 0x8000))
    if r.all (fun e => decide (lo ≤ e.1) && decide (e.1 ≤ hi)) && noTwice (r.map Prod.fst) then some r else none

/-- The entries of a body whose sizes their own heads give (0: a count beyond its limit); none where they do not fill it. Fuel. -/
def splitBy (size : List Byte → Nat) : Nat → List Byte → Option (List (List Byte))
  | 0, l => if l.isEmpty then some [] else none
  | f + 1, l =>
    if l.isEmpty then some []
    else
      let n := size l
      if n = 0 ∨ l.length < n then none else (splitBy size f (l.drop n)).map (fun r => l.take n :: r)

/-- The entries of a body; none of them where it is malformed. -/
def entries (size : List Byte → Nat) (l : List Byte) : List (List Byte) := (splitBy size l.length l).getD []

/-- The sizes of ICAN, ILIN and CANSHARE entries and of berth lists (R429). -/
def icanSize (l : List Byte) : Nat := if 128 < fld l 1 1 then 0 else 28 + 16 * fld l 1 1
def ilinSize (l : List Byte) : Nat := if 48 < fld l 1 1 then 0 else 12 + 4 * fld l 1 1
def shareSize (l : List Byte) : Nat := if fld l 1 1 < 1 ∨ 8 < fld l 1 1 then 0 else 4 + 8 * fld l 1 1
def listSize (l : List Byte) : Nat := if 64 < fld l 1 1 then 0 else 4 + 4 * fld l 1 1

/-- Entries of one size. -/
def fixed (n : Nat) (l : List Byte) : List (List Byte) := entries (fun _ => n) l

/-- A thread entry (R429). -/
def manThread (e : List Byte) : ManThread :=
  { gtn := fld e 0 2, pl := fld e 2 1, cls := fld e 3 1, start := fld36 e 8, xvbH := fld36 e 16, xspH := fld36 e 24 }

/-- Is a thread entry within its ranges, its thread below `max`. -/
def threadGood (max : Nat) (e : List Byte) : Bool :=
  decide (fld e 0 2 < max) && decide (fld e 2 1 ≤ 2) && decide (fld e 3 1 ≤ 3) && zeros e 4 4 &&
  decide (fld e 8 8 < 2 ^ 36) && decide (fld e 8 8 % 4 = 0) && decide (fld e 16 8 < 2 ^ 36) && decide (fld e 16 8 % 4096 = 0) &&
  decide (fld e 24 8 < 2 ^ 36)

/-- An image reference (R429). -/
def imgRef (b : List Byte) : ImgRef := { port := fld b 0 1, off := fld b 4 4, len := fld b 8 4 }

/-- The capacity of a port's device; 0 where none is fitted. -/
def State.flashSize (s : State) (p : Nat) : Nat := Tbl.get (fun _ => (0 : Nat)) s.flashCap p

/-- Does a range lie in the device of a port. -/
def State.flashHas (s : State) (port off len : Nat) : Bool :=
  decide (port ≤ 1) && s.flashSize port != 0 && decide (off + len ≤ s.flashSize port)

/-- Is an image reference within its ranges. -/
def State.imgGood (s : State) (b : List Byte) : Bool := zeros b 1 3 && s.flashHas (fld b 0 1) (fld b 4 4) (fld b 8 4)

/-- The address of a port's flash window, and bytes read from it. -/
def flashBase (port : Nat) : Nat := 0x1800000000 + port * 0x80000000
def State.flashBytes (s : State) (i : ImgRef) : List Byte := s.rdBytes (flashBase i.port + i.off) i.len

/-! ## Signatures (R446) -/

/-- The key hash at an index of the owner set (R444), none where the index is revoked. -/
def State.ownerHash (s : State) (k : Nat) : Option (List Byte) :=
  let w := fun (i : Nat) => Tbl.get (fun _ => (0 : W32)) s.sec.otpNow i
  if bit (w 0x30) k ∨ s.sec.lc = 4 ∨ s.sec.lc = 0 then none
  else some (wordsBytes ((List.range 12).map (fun i => w (12 * k + i))))

/-- R446: is a signature block of a key set (1 vendor, 2 owner) good over the bytes it covers. -/
def State.signed (s : State) (set : Nat) (covered block : List Byte) : Bool :=
  let k := fld block 5 1
  let ec := (block.drop 8).take 96
  let ml := (block.drop 0xC8).take 1952
  let h := if set = 1 then some (Config.vendorHash k) else s.ownerHash k
  decide (block.length = 5464) && decide (fld block 0 4 = 0x53474231) && decide (fld block 4 1 = set) && decide (k ≤ 3) &&
  zeros block 6 2 && zeros block 0x1555 3 && (some (fit 48 (Config.hash 0x11 (ec ++ ml))) == h) &&
  Config.ecdsaVerify 384 ec (fit 48 (Config.hash 0x11 covered)) ((block.drop 0x68).take 96) &&
  Config.mlDsaVerify ml covered ((block.drop 0x868).take 3309) && !s.sec.alarm

/-! ## Pattern images (R245 to R249) -/

/-- A pattern image: version, first micro-address, words and entries. -/
structure PatImg where
  version : Nat
  base : Nat
  words : List (BitVec 96)
  ents : List (Nat × BitVec 96)
deriving DecidableEq, Repr

/-- R248, R249: the image of a kind (1 vendor, 2 customer) in bytes that end with its signature block. -/
def State.patImage (s : State) (kind : Nat) (l : List Byte) : Option PatImg :=
  let count := fld l 0xE 2
  let n := fld l 0x10 4
  let body := count * 12 + n * 16
  let base := fld l 0xC 2
  let area := if kind = 1 then decide (base + count ≤ 0x1800) else decide (0x1800 ≤ base) && decide (base + count ≤ 0x2000)
  let ents := fixed 16 ((l.drop (0x50 + count * 12)).take (n * 16))
  if fld l 0 4 = 0x50545331 ∧ fld l 4 2 = 1 ∧ fld l 6 1 = kind ∧ fld l 7 1 = 0 ∧ fld l 8 2 ≠ 0 ∧ fld l 0xA 2 ≤ 0x0100 ∧
      n ≤ (if kind = 1 then 0 else 64) ∧ fld l 0x14 4 = body ∧ zeros l 0x18 8 ∧ area ∧ l.length = 0x50 + body + 5464 ∧
      (l.drop 0x20).take 48 = fit 48 (Config.hash 0x11 ((l.drop 0x50).take body)) ∧
      ents.all (fun e => decide (fld e 0 1 < 64) && zeros e 1 3) ∧
      s.signed kind (l.take (0x50 + body)) (l.drop (0x50 + body)) then
    some { version := fld l 8 2, base := base, words := (fixed 12 ((l.drop 0x50).take (count * 12))).map (fun e => BitVec.ofNat 96 (leNat e)),
           ents := ents.map (fun e => (fld e 0 1, BitVec.ofNat 96 (fld e 4 12))) }
  else none

/-- R245, rules 1 and 2: is a customer word in the customer area and free of vendor-only codes. -/
def custWord (w : BitVec 96) : Bool :=
  decide (0x1800 ≤ bits w 95 83) && decide (bits w 63 58 ≤ 0x10) && decide (bits w 45 42 ≤ 8) && decide (bits w 57 54 ≤ 0xC) &&
  bits w 30 24 == 0 &&
  !(bits w 82 81 == 2 && (List.range 4).any (fun k =>
    let c := bits w (67 + 4 * k) (64 + 4 * k)
    decide (10 ≤ c ∧ c < 15)))

/-- R246: is a customer entry good. -/
def custEntry (e : BitVec 96) : Bool :=
  let rs := [bits e 82 78, bits e 77 73, bits e 72 68].filter (fun r => r != 0)
  !bit e 94 && bits e 67 64 == 0 && (!bit e 95 || noTwice rs)

/-- R241, R245: the micro-addresses that can follow a word. -/
def custNext (w : BitVec 96) (a : Nat) : List Nat :=
  let fix := fun (n : Nat) => n % 0x800 + 0x1800
  match bits w 82 81 with
  | 0 => [fix (a + 1)]
  | 1 => [fix (bits w 95 83)]
  | 2 =>
    (List.range 16).filterMap (fun c =>
      if (List.range 4).all (fun k =>
          let sel := bits w (67 + 4 * k) (64 + 4 * k)
          if sel = 0 then !Nat.testBit c k else if sel = 15 then Nat.testBit c k else true) then
        some (fix (Nat.lor (bits w 95 83) c))
      else none)
  | _ => []

/-- The words of an image by micro-address; a word not loaded completes. -/
def PatImg.word (i : PatImg) (a : Nat) : BitVec 96 := if a < i.base then patUnloaded else i.words.getD (a - i.base) patUnloaded

/-- The micro-addresses reached from some; fuel. -/
def PatImg.reach (i : PatImg) : Nat → List Nat → List Nat
  | 0, l => l
  | f + 1, l =>
    let new := (l.flatMap (fun a => custNext (i.word a) a)).eraseDups.filter (fun a => !l.contains a)
    if new.isEmpty then l else i.reach f (l ++ new)

/-- Of some micro-addresses, those from which every path meets a safe point or a completion within `n + 1` words. -/
def PatImg.near (i : PatImg) (all : List Nat) : Nat → List Nat
  | 0 => all.filter (fun a => bit (i.word a) 80 || bits (i.word a) 82 81 == 3)
  | n + 1 =>
    let l := i.near all n
    all.filter (fun a => l.contains a || (custNext (i.word a) a).all (fun b => l.contains b))

/-- R245: is a customer image acceptable. The cycles of the word graph are those that a valid entry reaches (DESIGN CHOICE, log 117). -/
def PatImg.custGood (i : PatImg) : Bool :=
  let starts := (i.ents.filter (fun e => bit e.2 95)).map (fun e => 0x1800 + bits e.2 93 83)
  let all := i.reach 2048 starts.eraseDups
  let near := i.near all 63
  i.words.all custWord && i.ents.all (fun e => custEntry e.2) && all.all (fun a => near.contains a)

/-! ## The early segment (R427 to R431) -/

/-- The header checks 0x0101 and 0x0102. -/
def headerCode (l : List Byte) : Option Nat :=
  let e := fld l 0x10 4
  let o := fld l 0x14 4
  let n := fld l 0x18 4
  let f := fld l 0x1C 4
  if fld l 0 4 ≠ 0x4D4E4631 ∨ fld l 4 2 ≠ 1 ∨ 4 ≤ fld l 6 2 ∨ fld l 0xE 2 ≠ 0 then some 0x0101
  else if e < 0x50 ∨ 16384 < e ∨ e % 4 ≠ 0 ∨ o % 64 ≠ 0 ∨ o < e + 5464 ∨ n % 4 ≠ 0 ∨ 196608 < o + n ∨
      2 ^ 16 ≤ f ∨ f % 16 / 2 ≠ 0 ∨ f / 256 < 1 ∨ 8 < f / 256 ∨ l.length < o + n then some 0x0102
  else none

/-- R429: the length rule of an early record's body. -/
def earlyShape (e : Nat × List Byte) : Bool :=
  let b := e.2
  match e.1 with
  | 3 => decide (b.length % 64 = 0 ∧ 64 ≤ b.length ∧ b.length ≤ 256)
  | 4 => decide (16 ≤ b.length ∧ fld b 8 1 ≤ 32 ∧ b.length = 16 + 32 * fld b 8 1) && noTwice ((fixed 32 (b.drop 16)).map (fun x => fld x 0 2))
  | 5 => (splitBy icanSize b.length b).isSome
  | 6 => (splitBy ilinSize b.length b).isSome
  | 7 => decide (b.length % 12 = 0 ∧ 12 ≤ b.length ∧ b.length ≤ 3072)
  | 8 => decide (8 ≤ b.length ∧ b.length = 8 + 4 * fld b 3 1)
  | _ => decide (b.length = 12)

/-- Are the copies of ICODE within their ranges and apart from one another. -/
def State.icodeGood (s : State) (b : List Byte) : Bool :=
  let es := fixed 64 b
  es.all (fun e =>
    let d := fld e 8 4
    let n := fld e 12 4
    zeros e 1 3 && s.flashHas (fld e 0 1) (fld e 4 4) n && decide (d % 64 = 0 ∧ n % 4 = 0 ∧ 4 ≤ n ∧ n ≤ 1048576 ∧ d + n ≤ 0xFE0000)) &&
  (es.zipIdx).all (fun x => (es.zipIdx).all (fun y =>
    decide (x.2 = y.2 ∨ fld x.1 8 4 + fld x.1 12 4 ≤ fld y.1 8 4 ∨ fld y.1 8 4 + fld y.1 12 4 ≤ fld x.1 8 4)))

/-- R370, R429: is an ICAN entry free of values that the controller would ignore. -/
def icanGood (e : List Byte) : Bool :=
  let w := fun (o : Nat) => BitVec.ofNat 32 (fld e o 4)
  let fast := if bit (w 20) 31 then 8 else 40
  zeros e 2 2 && segsGood (w 8) && decide (80 ≤ bitClocks (w 8)) && segsGood (w 12) && decide (10 ≤ bitClocks (w 12)) &&
  segsGood (w 16) && decide (fast ≤ bitClocks (w 16)) && (fixed 16 (e.drop 28)).all (fun x => decide (fld x 8 4 / 32 % 2 = 0))

/-- R429: are the fields of an early record in range, and its must-be-zero bytes zero (0x0107). -/
def State.earlyRange (s : State) (e : Nat × List Byte) : Bool :=
  let b := e.2
  match e.1 with
  | 3 => s.icodeGood b
  | 4 =>
    decide (1 ≤ fld b 0 4 ∧ fld b 0 4 ≤ 10000000 ∧ fld b 4 4 < fld b 0 4 ∧ 1 ≤ fld b 8 1) && zeros b 9 7 &&
    (fixed 32 (b.drop 16)).all (threadGood 32)
  | 5 => (entries icanSize b).all icanGood
  | 6 => (entries ilinSize b).all (fun x => zeros x 2 2)
  | 7 => (fixed 12 b).all (fun x => decide (fld x 2 1 < 4 ∧ fld x 4 4 < 2 ^ 29 ∧ fld x 8 4 < 2 ^ 29 ∧ (Nat.testBit (fld x 2 1) 1 ∨ fld x 8 4 = 0)) && zeros x 3 1)
  | 8 => decide (1 ≤ fld b 0 2 ∧ fld b 0 2 ≤ 2000 ∧ fld b 2 1 < 128) && zeros b 4 4 &&
    (fixed 4 (b.drop 8)).all (fun x => decide (fld x 1 1 = 1 ∨ fld x 1 1 = 2))
  | _ => s.imgGood b

/-- Is a gateway port one of the island's (R429). -/
def islandPort (p : Nat) : Bool := decide (p < 12) || (decide (0x20 ≤ p) && decide (p < 0x28))

/-- Does an early record name only units of the island (0x0108). -/
def earlyUnits (e : Nat × List Byte) : Bool :=
  match e.1 with
  | 5 => (entries icanSize e.2).all (fun x => decide (fld x 0 1 < 12))
  | 6 => (entries ilinSize e.2).all (fun x => decide (fld x 0 1 < 8))
  | 7 => (fixed 12 e.2).all (fun x => islandPort (fld x 0 1) && islandPort (fld x 1 1))
  | _ => true

/-- The body of a record; empty where it is absent. -/
def body (r : List (Nat × List Byte)) (t : Nat) : List Byte := (r.lookup t).getD []

/-- The registers that an ICAN entry gives, CAN_CFG last. -/
def icanRegs (e : List Byte) : List (Nat × W32) :=
  let pg := canPage (fld e 0 1)
  let w := fun (o : Nat) => BitVec.ofNat 32 (fld e o 4)
  [(pg + 4, w 8), (pg + 8, w 12), (pg + 0x10, w 20), (pg + 0xC, w 16), (pg + 0x18, w 24)] ++
  (List.range (4 * fld e 1 1)).map (fun i => (pg + 0x800 + 4 * i, w (28 + 4 * i))) ++ [(pg, w 4)]

/-- The registers that an ILIN entry gives, LIN_CFG last. -/
def ilinRegs (e : List Byte) : List (Nat × W32) :=
  let pg := busPage (fld e 0 1)
  let w := fun (o : Nat) => BitVec.ofNat 32 (fld e o 4)
  [(pg + 0x18, w 8 &&& 0xFFFF)] ++ (List.range (fld e 1 1)).map (fun i => (pg + 0x40 + 4 * i, w (12 + 4 * i))) ++ [(pg, w 4 &&& 0xE0FFFFFF)]

/-- The early part of a manifest. -/
def earlyMan (l : List Byte) (r : List (Nat × List Byte)) : Manifest :=
  let th := body r 4
  let pm := body r 8
  { safety := Nat.testBit (fld l 6 2) 0, cert := Nat.testBit (fld l 6 2) 1, version := fld l 8 4, order := fld l 0xC 2,
    flash := BitVec.ofNat 32 (fld l 0x1C 4), fullDigest := (l.drop 0x20).take 48,
    patch := (r.lookup 1).map imgRef, vpat := (r.lookup 2).map imgRef,
    icode := (fixed 64 (body r 3)).map (fun e => ({ port := fld e 0 1, off := fld e 4 4, len := fld e 12 4 }, fld e 8 4, e.drop 16)),
    ewUb := fld th 0 4, ewLb := fld th 4 4, ithreads := (fixed 32 (th.drop 16)).map manThread,
    ican := (entries icanSize (body r 5)).flatMap icanRegs, ilin := (entries ilinSize (body r 6)).flatMap ilinRegs,
    iroute := (fixed 12 (body r 7)).map (fun x => (fld x 0 1, fld x 1 1, fld x 2 1, fld x 4 4, fld x 8 4)),
    pmicRating := fld pm 0 2, pmicAddr := fld pm 2 1, pmicWrites := (fixed 4 (pm.drop 8)).map (fun e => BitVec.ofNat 32 (leNat e)) }

/-- R431, checks 0x0101 to 0x0108: the early part, or the code of the first failure. -/
def State.earlyChecks (s : State) (l : List Byte) : Except Nat Manifest :=
  match headerCode l with
  | some c => .error c
  | none =>
    let e := fld l 0x10 4
    if !s.signed 2 (l.take e) ((l.drop e).take 5464) then .error 0x0103
    else if fld l 8 4 < s.otpMin 0x41 then .error 0x0104
    else if fld l 0xC 2 ≠ 0xFFFF ∧ fld l 0xC 2 ≠ s.order then .error 0x0105
    else match segRecs 1 8 ((l.take e).drop 0x50) with
      | none => .error 0x0106
      | some r =>
        if !r.all earlyShape then .error 0x0106
        else if (r.lookup 2).isNone ∨ (r.lookup 4).isNone ∨ (r.lookup 8).isNone ∨ !r.all s.earlyRange then .error 0x0107
        else if !r.all earlyUnits then .error 0x0108
        else .ok (earlyMan l r)

/-- R291: the patch level that a manifest's patch image brings; none where the image is invalid. -/
def State.patchOf (s : State) (m : Manifest) : Option (Option Nat) :=
  match m.patch with
  | none => some none
  | some i =>
    let l := s.flashBytes i
    let n := l.length - 5464
    match Config.patchParse (l.take n) with
    | some (rom, ver) =>
      if s.signed 1 (l.take n) (l.drop n) && rom == 1 &&
          decide (s.otpMin 0x51 ≤ ver) then some (some ver)
      else none
    | none => none

/-- The vendor image that a manifest names. -/
def State.vendorImage (s : State) (m : Manifest) : Option PatImg :=
  match m.vpat with
  | none => none
  | some i => s.patImage 1 (s.flashBytes i)

/-- R431, checks 0x0109 to 0x010B. -/
def State.imageChecks (s : State) (m : Manifest) : Option Nat :=
  if (s.patchOf m).isNone then some 0x0109
  else if (s.vendorImage m).isNone then some 0x010A
  else if m.icode.any (fun c => fit 48 (Config.hash 0x11 (s.flashBytes c.1)) != c.2.2) then some 0x010B
  else none

/-! ## The full segment (R428 to R431) -/

/-- R429: the length rule of a full record's body. -/
def fullShape (e : Nat × List Byte) : Bool :=
  let b := e.2
  match e.1 with
  | 0x101 => decide (b.length = 40)
  | 0x102 => decide (b.length = 52)
  | 0x103 => decide (b.length = 12)
  | 0x104 =>
    decide (16 ≤ b.length ∧ fld b 8 1 ≤ 64 ∧ fld b 9 1 ≤ 63 ∧ 16 + 8 * fld b 8 1 ≤ b.length) &&
    ((splitBy listSize b.length (b.drop (16 + 8 * fld b 8 1))).map List.length == some (fld b 9 1))
  | 0x105 =>
    decide (32 ≤ b.length ∧ fld b 12 2 ≤ 1024 ∧ fld b 14 2 ≤ 1024 ∧ b.length = 32 + 16 * fld b 12 2 + 32 * fld b 14 2) &&
    noTwice ((fixed 32 (b.drop (32 + 16 * fld b 12 2))).map (fun x => fld x 0 2))
  | 0x106 => decide (b.length = 16)
  | 0x107 =>
    decide (32 ≤ b.length ∧ fld b 18 1 ≤ 3 ∧ fld b 19 1 ≤ 48 ∧ fld b 20 1 ≤ 20 ∧ b.length = 32 + 4 * fld b 18 1 + 4 * fld b 19 1 + 12 * fld b 20 1)
  | 0x109 => (splitBy shareSize b.length b).isSome
  | 0x10B => decide (b.length = 4)
  | _ => decide (b.length = 8)

/-- The parts of the MEMORY body. -/
def memShared (b : List Byte) : List (List Byte) := fixed 8 ((b.drop 16).take (8 * fld b 8 1))
def memLists (b : List Byte) : List (List Byte) := entries listSize (b.drop (16 + 8 * fld b 8 1))

/-- The parts of the BERTH0 body. -/
def b0Map (b : List Byte) : List (List Byte) := fixed 16 ((b.drop 32).take (16 * fld b 12 2))
def b0Thr (b : List Byte) : List (List Byte) := fixed 32 (b.drop (32 + 16 * fld b 12 2))

/-- The parts of the ETH body. -/
def ethTypes (b : List Byte) : List (List Byte) := fixed 4 ((b.drop 32).take (4 * fld b 18 1))
def ethSets (b : List Byte) : List (List Byte) := fixed 4 ((b.drop (32 + 4 * fld b 18 1)).take (4 * fld b 19 1))
def ethPorts (b : List Byte) : List (List Byte) := fixed 12 (b.drop (32 + 4 * fld b 18 1 + 4 * fld b 19 1))

/-- The port entries of the ETH body within their ranges. -/
def ethPortGood (e : List Byte) : Bool :=
  let p := fld e 0 1
  decide (p < 20) && zeros e 10 2 &&
  (if p < 12 then zeros e 1 3 && zeros e 8 2 else decide (fld e 2 1 ≤ 16 ∧ 1 ≤ fld e 8 2 ∧ fld e 8 2 ≤ 255))

/-- R429: are the fields of the DRAM body in range. -/
def State.dramGood (s : State) (b : List Byte) : Bool :=
  [8533, 7500, 6400, 5500, 4266].contains (fld b 0 2) && [1, 2].contains (fld b 2 1) && [1, 2, 4, 8].contains (fld b 3 1) &&
  decide (fld b 4 1 ≤ 1) && zeros b 5 3 && zeros b 32 8 && decide (fld b 8 8 < 2 ^ (s.channels * fld b 3 1))

/-- R429: are the fields of a full record in range, and its must-be-zero bytes zero (0x0112). -/
def State.fullRange (s : State) (early : Manifest) (e : Nat × List Byte) : Bool :=
  let b := e.2
  match e.1 with
  | 0x101 => s.dramGood b
  | 0x102 => zeros b 1 3 && (List.range 24).all (fun d => decide (fld b (4 + 2 * d) 1 ≤ 2))
  | 0x103 => s.imgGood b
  | 0x104 =>
    decide (fld b 0 4 < 2 ^ 28 ∧ 16 ≤ fld b 4 4 ∧ fld b 4 4 ≤ 65536) && zeros b 10 6 &&
    (memShared b).all (fun x => decide (fld x 0 4 < 2 ^ 28 ∧ 1 ≤ fld x 4 4 ∧ fld x 4 4 ≤ 2 ^ 24)) &&
    (memLists b).all (fun x => decide (1 ≤ fld x 0 1 ∧ fld x 0 1 ≤ 63) && zeros x 2 2 && (fixed 4 (x.drop 4)).all (fun n =>
      decide (leNat n < 2 ^ 16) && (instName (leNat n)).isSome))
  | 0x105 =>
    decide (fld b 0 4 < 8 ∧ 1 ≤ fld b 4 4 ∧ fld b 4 4 ≤ 10000000 ∧ fld b 8 4 < fld b 4 4 ∧ fld b 16 8 < 2 ^ 36 ∧ fld b 16 8 % 4096 = 0 ∧
      fld b 24 8 < 2 ^ 36) &&
    (b0Map b).all (fun x => decide (fld x 0 4 < 2 ^ 28 ∧ fld x 4 4 < 2 ^ 28 ∧ 1 ≤ fld x 8 4 ∧ fld x 8 4 ≤ 2 ^ 24 ∧ fld x 12 4 < 16)) &&
    (b0Thr b).all (fun x => threadGood 1024 x && !early.ithreads.any (fun t => t.gtn == fld x 0 2))
  | 0x106 => (fixed 4 b).all (fun x => [1, 2, 3, 4, 7].contains (fld x 0 1) && decide (fld x 1 1 ≤ 1) && zeros x 2 2)
  | 0x107 =>
    decide (fld b 0 2 < 2 ^ 12 ∧ fld b 4 4 < 2 ^ 20 ∧ fld b 14 1 ≤ 47) && zeros b 2 2 && zeros b 15 1 && zeros b 21 3 && zeros b 28 4 &&
    decide (fld b 24 4 = 0 ∨ 10 ≤ fld b 24 4 ∧ fld b 24 4 ≤ 1000000) && (ethTypes b).all (fun x => decide (leNat x < 2 ^ 16)) &&
    (ethSets b).all (fun x => decide (leNat x ≤ 47)) && (ethPorts b).all ethPortGood
  | 0x108 =>
    decide (fld b 0 1 ≤ 1 ∧ fld b 1 1 ≤ 2 ∧ fld b 2 1 ≤ 2 ∧ (fld b 0 1 = 1 ∨ fld b 2 1 = 0) ∧ 16 ≤ fld b 3 1 ∧ fld b 3 1 ≤ 30 ∧
      1 ≤ fld b 4 1 ∧ fld b 4 1 ≤ 5 ∧ ¬(fld b 1 1 = 2 ∧ fld b 2 1 = 2)) && zeros b 5 3
  | 0x109 =>
    (entries shareSize b).all (fun x => decide (fld x 0 1 ≤ 31) && zeros x 2 2 && (fixed 8 (x.drop 4)).all (fun r =>
      decide (fld r 0 4 / 2 ^ 29 % 4 = 0 ∧ fld r 4 4 < 2 ^ 29)))
  | 0x10A =>
    let lim := if fld b 0 2 = 0 then 950 else fld b 0 2
    decide (100 ≤ lim ∧ lim ≤ 950 ∧ (if fld b 4 2 = 0 then 750 else fld b 4 2) ≤ lim) && zeros b 6 2
  | _ => zeros b 2 2

/-- A value, or its default where the record gives 0. -/
def orElse (v d : Nat) : Nat := if v = 0 then d else v

/-- R428, R429: a manifest with its full part. -/
def fullMan (m : Manifest) (r : List (Nat × List Byte)) : Manifest :=
  let d := body r 0x101
  let c := body r 0x102
  let y := body r 0x104
  let b := body r 0x105
  let h := body r 0x106
  let e := body r 0x107
  let p := body r 0x108
  let w := body r 0x10A
  { m with
      dramRate := fld d 0 2, dramRanks := fld d 2 1, dramGib := fld d 3 1, dramWck := fld d 4 1, prot := fld d 8 8,
      scrubIvl := orElse (fld d 16 2) 16, lapDram := fld d 18 2, lapL2 := fld d 20 4, lapSlc := fld d 24 4, lapQuay := fld d 28 4,
      paired := fld c 0 1, domCfg := if c.isEmpty then [] else (List.range 24).map (fun k => (fld c (4 + 2 * k) 1, fld c (5 + 2 * k) 1)),
      cpat := (r.lookup 0x103).map imgRef, poolPage := fld y 0 4, poolPages := fld y 4 4,
      shared := (memShared y).map (fun x => (fld x 0 4, fld x 4 4)),
      lists := (memLists y).map (fun x => (fld x 0 1, (fixed 4 (x.drop 4)).map leNat)),
      b0Strict := Nat.testBit (fld b 0 4) 0, b0S2 := Nat.testBit (fld b 0 4) 1, b0Act := Nat.testBit (fld b 0 4) 2,
      b0Ub := fld b 4 4, b0Lb := fld b 8 4, b0XvbH := fld36 b 16, b0XspH := fld36 b 24,
      b0Maps := (b0Map b).map (fun x => { ipa := fld x 0 4, pa := fld x 4 4, n := fld x 8 4, flags := fld x 12 4 }),
      b0Threads := (b0Thr b).map manThread,
      host := if h.isEmpty then m.host else (fixed 4 h).map (fun x => (fld x 0 1, fld x 1 1)),
      mgmtVid := fld e 0 2, mgmtPorts := fld e 4 4, mgmtMac := (e.drop 8).take 6, llq := fld e 14 1, ptpDom := [fld e 16 1, fld e 17 1],
      bypass := (ethTypes e).map leNat, gwSets := (ethSets e).map leNat, ageing := orElse (fld e 24 4) 300,
      ports := (ethPorts e).map (fun x => { port := fld x 0 1, node := fld x 1 1, count := fld x 2 1, burst := fld x 3 1,
                                            cfg := BitVec.ofNat 32 (fld x 4 4), timer := fld x 8 2 }),
      pcie := !p.isEmpty, pcieBif := Nat.testBit (fld p 0 1) 0, pcieRole0 := fld p 1 1, pcieRole1 := fld p 2 1, pcieBar0 := fld p 3 1,
      pcieRate := fld p 4 1,
      canRanges := (entries shareSize (body r 0x109)).map (fun x => (fld x 0 1, (fixed 8 (x.drop 4)).map (fun q => (fld q 0 4, fld q 4 4)))),
      budgetLimit := orElse (fld w 0 2) 950, allowance := orElse (fld w 2 2) 100, budgetStart := orElse (fld w 4 2) 750,
      wakeAddr := fld (body r 0x10B) 0 1 % 128, wakeEn := decide (128 ≤ fld (body r 0x10B) 0 1), wakePorts := fld (body r 0x10B) 1 1 }

/-- R3, R60: does a manifest name a fused unit, or a thread of a core that its pairing makes a checker (0x0113). -/
def State.manFused (s : State) (m : Manifest) : Bool :=
  (List.range 8).any (fun n => s.clusterFused n && Nat.testBit m.paired n) ||
  m.b0Threads.any (fun t => s.clusterFused (clusterOf t.gtn) || (Nat.testBit m.paired (clusterOf t.gtn) && coreOf t.gtn % 2 == 1)) ||
  m.ports.any (fun p => s.portFused p.port) || (List.range 20).any (fun p => s.portFused p && Nat.testBit m.mgmtPorts p) ||
  (List.range 8).any (fun i => s.portFused (12 + i) && Nat.testBit m.wakePorts i) || (s.order == 0x920 && m.pcieRole1 != 0)

/-- R311: the device pages of berth 0's stage 2: its mailbox page and every register frame. -/
def b0Device : List Mapping := [devMap 0x1080000 0x1080000 1, devMap 0x1040000 0x1040000 0xF000]

/-- The state in which a manifest's own mappings are checked: berth 0 with its device pages and nothing else. -/
def State.bare (s : State) (m : Manifest) : State :=
  { s with
      hm := { s.hm with man := { m with safety := false }, berths := [(0, { st := .ready, maps := b0Device })] },
      regs := [], sec := { s.sec with cert := false } }

/-- R303: do the mappings of BERTH0 obey the rules, taken in order. -/
def State.mapsGood : List Mapping → State → Bool
  | [], _ => true
  | m :: r, s =>
    (s.mapRule 0 m).isNone &&
    State.mapsGood r { s with hm := { s.hm with berths := s.hm.berths.map (fun e => (e.1, { e.2 with maps := e.2.maps ++ [m] })) } }

/-- Do page ranges keep apart from one another. -/
def apart : List (Nat × Nat) → Bool
  | [] => true
  | a :: r => r.all (fun b => decide (a.1 + a.2 ≤ b.1 ∨ b.1 + b.2 ≤ a.1)) && apart r

/-- Is a page mapped at its own address. -/
def ownPage (m : Manifest) (p : Nat) : Bool := m.b0Maps.any (fun x => x.ipa == x.pa && decide (x.ipa ≤ p) && decide (p < x.ipa + x.n))

/-- R425: is the island's code mapped at its own address where berth 0 has a stage 2. -/
def islandMapped (m : Manifest) : Bool :=
  !m.b0S2 ||
  (m.icode.all (fun c =>
    let lo := (0x1000000000 + c.2.1) / 4096
    let hi := (0x1000000000 + c.2.1 + c.1.len - 1) / 4096
    (List.range (hi - lo + 1)).all (fun i => ownPage m (lo + i))) &&
   m.ithreads.all (fun t => ownPage m (t.start.toNat / 4096)))

/-- R429, R431: is the memory of a manifest free of conflicts (0x0115). -/
def State.manMemory (s : State) (m : Manifest) : Bool :=
  let z := s.bare m
  let rs := (m.poolPage, m.poolPages) :: m.shared
  rs.all (fun r => z.inDram r.1 r.2 || inQuay r.1 r.2) && apart ((0x1000FE0, 0x20) :: rs) && State.mapsGood m.b0Maps z && islandMapped m

/-- R277: does an assignment of the HOST record conflict (0x0116). -/
def hostConflict (m : Manifest) : Bool :=
  let ts := (m.host.map Prod.fst).filter (fun t => t != 7)
  !noTwice ts || (ts.contains 3 && m.pcie && (m.pcieRole0 == 1 || m.pcieRole1 == 1) && m.pcieRole0 != 2 && m.pcieRole1 != 2)

/-- R90, R330: does a safety or certified configuration break its rules (0x0117). -/
def State.unsafeMan (s : State) (m : Manifest) : Bool :=
  (m.safety || m.cert) && (!m.b0Strict || m.b0Maps.any (fun x => decide (x.pa * 4096 < (s.bare m).dramInstalled) && (s.bare m).touchesOpen x.pa x.n))

/-- The customer image that a manifest names; `some none` where it names none. -/
def State.customerImage (s : State) (m : Manifest) : Option (Option PatImg) :=
  match m.cpat with
  | none => some none
  | some i =>
    match s.patImage 2 (s.flashBytes i) with
    | some p => if p.custGood then some (some p) else none
    | none => none

/-- R431, checks 0x0110 to 0x0118: the whole manifest, or the code of the first failure. -/
def State.fullChecks (s : State) (l : List Byte) (early : Manifest) : Except Nat Manifest :=
  let seg := (l.drop (fld l 0x14 4)).take (fld l 0x18 4)
  if fit 48 (Config.hash 0x11 seg) ≠ early.fullDigest then .error 0x0110
  else match segRecs 0x101 0x10B seg with
    | none => .error 0x0111
    | some r =>
      let m := fullMan early r
      if !r.all fullShape then .error 0x0111
      else if (r.lookup 0x101).isNone ∨ (r.lookup 0x104).isNone ∨ (r.lookup 0x105).isNone ∨ !r.all (s.fullRange early) then .error 0x0112
      else if s.manFused m then .error 0x0113
      else if Nat.testBit m.paired 0 then .error 0x0114
      else if !s.manMemory m then .error 0x0115
      else if (r.lookup 0x106).isSome ∧ hostConflict m then .error 0x0116
      else if s.unsafeMan m then .error 0x0117
      else if (s.customerImage m).isNone then .error 0x0118
      else .ok m

/-- R430, R431: the checks of a commit, in order: the manifest, or the code of the first failure. -/
def State.allChecks (s : State) (l : List Byte) : Except Nat Manifest :=
  match s.earlyChecks l with
  | .error c => .error c
  | .ok e =>
    match s.imageChecks e with
    | some c => .error c
    | none => s.fullChecks l e

end Sys2Proof.Machine
end

