-- ==== Sys2Proof/Machine/Startup.lean ====
section
/-! DEFINITION. Start-up (R421 to R426), commit (R432), the Held state (R434 to R436), the manifest commands (R307, R430, R433) and
the end of accepted commands (R285). -/

namespace Sys2Proof.Machine

/-! ## The Held state (R434) -/

/-- R444: a failed boot verification is recorded. -/
def State.bootFails (s : State) (code : Nat) : State :=
  let s := if [0x0103, 0x0109, 0x010A, 0x010B, 0x0110, 0x0118].contains code then s.secErr (2 ^ 16) else s
  s.enterHeld code

/-! ## The early segment (R421, R422 steps 3 and 4) -/

/-- R421: the capacities that the devices of both ports report. -/
def State.probeFlash (s : State) : State :=
  { s with
      flashCap := [0, 1].foldl (fun t p => Tbl.set (fun _ => (0 : Nat)) t p (min (Config.flashDevice p) 0x80000000)) s.flashCap }

/-- The manifest's bytes: the staged ones that start-up continues from (R436), or the boot slot. -/
def State.manBytes (s : State) : List Byte :=
  match s.hm.image with
  | some l => l
  | none => s.rdBytes (flashBase 0) (min 196608 (s.flashSize 0))

/-- R402, R422: the PMIC takes the configuration of the manifest, or does not acknowledge a write (log 5). -/
def State.pmicRejects (s : State) (m : Manifest) : Bool × State :=
  if m.pmicWrites.isEmpty then (false, s) else s.freshBool

/-- R422, R431: the early segment is accepted, or the device becomes Held. A wake from S3 or S4 tests the checkers of step 2 here;
start-up that continues from a staged manifest keeps steps 1 and 2 (R436). -/
def State.acceptEarly (s : State) : State :=
  let boot := s.hm.image.isNone
  if boot && s.testFails earlyCheckers then (s.checkersTested earlyCheckers).enterHeld 0x0182 else
  let s := if boot then s.probeFlash else s
  if boot && s.flashSize 0 == 0 then s.enterHeld 0x0180
  else match s.earlyChecks s.manBytes with
    | .error c => s.bootFails c
    | .ok m =>
      match s.pmicRejects m with
      | (true, s) => s.enterHeld 0x0183
      | (false, s) =>
        match s.patchOf m with
        | none => s.bootFails 0x0109
        | some p =>
          let s := (s.modHm (fun h => { h with early := true, ready := true, man := m, patch := if boot then p.getD 0 else h.patch })).modPwr
            (fun w => { w with rating := m.pmicRating })
          if boot && bits (s.reg 0x104A004000) 9 8 == 3 then s.enterHeld 0x0184 else s

/-- R431. -/
def execEarlySegmentAccept (s : State) : Out :=
  whenOk (s.hm.boot == 1 && !s.hm.early && !s.hm.held) s s.acceptEarly

/-! ## The island (R425) -/

/-- R370, R372, R429: a register that the ICAN record gives. -/
def State.icanPut (s : State) (r : Nat × W32) : State :=
  let k := (r.1 - 0x1045001000) / 0x1000
  if r.1 % 0x1000 = 0 then s.canCfg k r.2 else if r.1 % 0x1000 = 0x18 then s.canRxfCfg k r.2 else s.setReg r.1 r.2

/-- R429: a thread that a manifest names is assigned to berth 0 and started. -/
def State.manStart (s : State) (t : ManThread) : State :=
  let s := s.assign t.gtn 0
  let s := s.modTh t.gtn (fun x =>
    let c := (x.ctx.setSysr 0x24 t.xvbH).setSysr 0x25 t.xspH
    { x with ctx := { c with cls := t.cls }, srNow := c.inForce })
  s.startTh t.gtn t.start t.pl

/-- Milliseconds since start-up began, in 16 bits. -/
def State.bootMs (s : State) : Nat := min 0xFFFF ((s.time - s.hm.bootAt) / 1000000)

/-- The words of an image by micro-address, added to a table. -/
def PatImg.into (i : PatImg) (t : Tbl (BitVec 96)) : Tbl (BitVec 96) :=
  (i.words.zipIdx).foldl (fun t w => Tbl.set (fun _ => patUnloaded) t (i.base + w.2) w.1) t

/-- R250: the address of a word, or of an entry at 0x2000 + index, in the repair copy (log 117: its layout is a choice). -/
def repairAt (a : Nat) : Nat := 0x1000FE0000 + 12 * a

/-- R249, R250: the harbourmaster keeps the words and the entries of a verified image, and saves them in its repair copy. Of two entry
records with one index the last holds (DESIGN CHOICE, log 117). -/
def State.savePatterns (s : State) (i : PatImg) : State :=
  let s := s.agentWrite 8 (repairAt i.base) (i.words.flatMap (fun w => leBytes 12 w.toNat))
  let s := i.ents.foldl (fun s e => s.agentWrite 8 (repairAt (0x2000 + e.1)) (leBytes 12 e.2.toNat)) s
  { s with pat := { s.pat with
      words := i.into s.pat.words,
      entries := i.ents.foldl (fun t e => Tbl.set (fun _ => (0 : BitVec 96)) t e.1 e.2) s.pat.entries } }

/-- R422 steps 5 and 6, R425, R426. -/
def State.startIsland (s : State) (p : PatImg) : State :=
  let m := s.hm.man
  let s := s.savePatterns p
  let s := { s with pat := { s.pat with vendorVer := BitVec.ofNat 16 p.version, loaded := Tbl.set (fun _ => (0 : Nat)) s.pat.loaded 0 1 } }
  let s := m.icode.foldl (fun s c => s.agentWrite 8 (0x1000000000 + c.2.1) (s.flashBytes c.1)) s
  let s := m.ican.foldl State.icanPut s
  let s := m.ilin.foldl (fun s r => s.setReg r.1 r.2) s
  let s := (s.modBerth 0 (fun b => { b with wdEn := true, wdUb := m.ewUb, wdLb := m.ewLb })).wdWindow 0
  let s := m.ithreads.foldl State.manStart s
  let s := s.setReg 0x104A00400C (BitVec.ofNat 32 s.bootMs)
  let s := s.modHm (fun h => { h with island := true })
  { s with frzReq := s.frzReq || s.dbg.frzIsland, dbg := { s.dbg with frzIsland := false } }

/-- R425, and the checks 0x010A and 0x010B of step 5. -/
def execIslandStart (s : State) : Out :=
  if !(s.hm.early && !s.hm.island && !s.hm.held) then ok s
  else
    match s.vendorImage s.hm.man with
    | none => ok (s.bootFails 0x010A)
    | some p =>
      if s.hm.man.icode.any (fun c => fit 48 (Config.hash 0x11 (s.flashBytes c.1)) != c.2.2) then ok (s.bootFails 0x010B)
      else ok (s.startIsland p)

/-! ## Commit (R432) -/

/-- R448, R449: is the certified configuration in force at commit. -/
def State.certMay (s : State) : Bool :=
  s.hm.man.cert && s.sec.lc == 2 && s.hm.patch == 0 && s.pat.vendorVer == 0x0100 && !s.sec.alarm && s.sec.trngOk && !s.sec.dbgSeen

/-- R249 step 3: the customer image of a manifest, verified at commit, is kept. -/
def State.keepCustomer (s : State) (m : Manifest) : State :=
  match (s.customerImage m).getD none with
  | none => s
  | some i =>
    let s := s.savePatterns i
    { s with pat := { s.pat with custVer := BitVec.ofNat 16 i.version } }

/-- R432: what takes effect at commit. -/
def State.commit (s : State) (m : Manifest) (l : List Byte) : State :=
  let n := fld l 0x14 4 + fld l 0x18 4
  let s := s.modHm (fun h => { h with committed := true, man := m, manDigest := fit 48 (Config.hash 0x11 (l.take n)) })
  let s := s.modBerth 0 (fun b => { b with st := .ready, strict := m.b0Strict, xvbH := m.b0XvbH, xspH := m.b0XspH })
  let s := (s.berthThreads 0).foldl (fun s t => s.modTh t (fun x => { x with ctx := { x.ctx with st := putBit x.ctx.st 8 m.b0Strict } })) s
  let s := s.modPwr (fun p => { p with limit := m.budgetLimit, allowance := m.allowance, budget := m.budgetStart })
  let s := { s with
      paired := BitVec.ofNat 8 m.paired, prot := BitVec.ofNat 64 m.prot,
      dram := { s.dram with
        rate := m.dramRate, dual := m.dramRanks == 2, gib := m.dramGib, wckAo := m.dramWck == 1, ivl := m.scrubIvl,
        limDram := m.lapDram, limL2 := m.lapL2, limSlc := m.lapSlc, limQuay := m.lapQuay } }
  let s := s.setReg 0x104A003008 (BitVec.ofNat 32 (m.wakeAddr + b2n m.wakeEn * 128))
  if s.certMay then (s.modSec (fun c => { c with cert := true })).logErr 0x10 5 none 0 0 1 0 else s

/-- R432: every commit check, and the commit. -/
def execManifestCommit (s : State) : Out :=
  if !(s.hm.island && !s.hm.committed && !s.hm.held) then ok s
  else
    match s.fullChecks s.manBytes s.hm.man with
    | .error c => ok (s.bootFails c)
    | .ok m => ok ((s.commit m s.manBytes).keepCustomer m)

/-! ## Bring-up (R422 steps 8 to 11) -/

/-- R327, R422: every channel is trained, or one is not. -/
def execDramTrainingDone (good : Bool) (s : State) : Out :=
  if !(s.hm.committed && !s.hm.held && !s.hm.trained) then ok s
  else if !good then ok (s.enterHeld 0x0181)
  else
    let cs := (List.range s.channels).map (fun c => (3, c))
    let good := (List.range 8).foldl (fun (v : BitVec 8) c => putBit v c (decide (c < s.channels) && s.checkerCase (3, c) == 0)) 0
    let s := { s with dram := { s.dram with trained := good, sr := false, dsm := false } }
    if s.testFails cs then ok ((s.checkersTested cs).enterHeld 0x0182)
    else ok (s.modHm (fun h => { h with trained := true }))

/-- R249: the stores of a cluster's cores take both images, as the harbourmaster verified them. -/
def State.loadPatterns (s : State) (n : Nat) : State :=
  { s with pat := { s.pat with
      loaded := (List.range 4).foldl (fun t k => Tbl.set (fun _ => (0 : Nat)) t (4 * n + k) 2) s.pat.loaded } }

/-- R250: the harbourmaster rewrites a word, or an entry at 0x2000 + index, from its repair copy, which clears its mark. A word or entry
that no image gave is rewritten as R248 has it. -/
def execPatternWordRewrite (core : CoreId) (addr : Fin 16384) (s : State) : Out :=
  let a := addr.val
  let k := patKey core.val a
  let kept := if a < 0x2000 then Tbl.get (fun _ => patUnloaded) s.pat.words a else Tbl.get (fun _ => (0 : BitVec 96)) s.pat.entries (a - 0x2000)
  let given := kept != (if a < 0x2000 then patUnloaded else 0)
  let (v, r) := if given then s.hmRead (repairAt a) 12 else (kept.toNat, s)
  let own := if BitVec.ofNat 96 v = kept then none else some (BitVec.ofNat 96 v)
  let r := { r with pat := { r.pat with
      own := Tbl.set (fun _ => (none : Option (BitVec 96))) r.pat.own k own,
      bad := Tbl.set (fun _ => false) r.pat.bad k false, sbe := Tbl.set (fun _ => false) r.pat.sbe k false } }
  whenOk (Tbl.get (fun _ => false) s.pat.bad k || Tbl.get (fun _ => false) s.pat.sbe k) s
    ((r.patRecord core.val a (2 ^ 16) false).count (core.val / 4) 14)

/-- Is a cluster's pattern store loaded whole. -/
def State.clusterLoaded (s : State) (n : Nat) : Bool := (List.range 4).all (fun k => s.patLoaded (4 * n + k) == 2)

/-- R337, R422: the checkers tested with a cluster: those of its L2 and of its cores' store buffers and pattern stores, and at start-up
those of the SLC slices. -/
def State.clusterCheckers (s : State) (n : Nat) : List (Nat × Nat) :=
  (1, n) :: ((List.range 4).flatMap (fun k => [(4, 4 * n + k), (5, 4 * n + k)]) ++
    (if s.hm.full then [] else (List.range 16).map (fun u => (2, u))))

/-- R249, R396, R422: a cluster's L2 is zeroed and tested and its stores are loaded: at start-up, which powers it, or after it was
powered back on. A checker that fails leaves them off (R337); no failure after full service holds the device (R434). -/
def execClusterBringUpDone (n : Fin 8) (s : State) : Out :=
  whenOk (s.hm.committed && !s.hm.held && !s.clusterFused n.val && !s.clusterLoaded n.val && (!s.hm.full || s.domain (2 + n.val) == .on)) s
    (let s := if s.hm.full then s else s.setDom (2 + n.val) .on
     let cs := s.clusterCheckers n.val
     let t := s.checkersTested cs
     if !s.testFails cs then t.loadPatterns n.val else if s.hm.full then t else t.enterHeld 0x0182)

/-- R333: the words of protected regions in a channel become zero. -/
def State.zeroChannel (s : State) (c : Nat) : State :=
  let mine := fun (a : Nat) => decide (a < 0x1000000000) && s.prot.getLsbD (a / 0x40000000) && channelOf (a / 64) == c
  { s with
      mem := s.mem.filter (fun e => !mine e.1), poison := s.poison.filter (fun e => !mine (e.1 * 8)),
      dram := { s.dram with flips := s.dram.flips.filter (fun e => !mine (e.1 * 8)) } }

/-- R333: the protected DRAM of a channel is zeroed, but after a WARM reset or a wake from S3, and INIT is set. -/
def execDramZeroingDone (c : Fin 8) (s : State) : Out :=
  whenOk (s.hm.trained && !s.hm.held && decide (c.val < s.channels) && !s.dram.zeroed.getLsbD c.val) s
    (let s := if s.hm.warm then s else s.zeroChannel c.val
     { s with dram := { s.dram with zeroed := putBit s.dram.zeroed c.val true } })

/-! ## Full service (R424, R425) -/

/-- R425: berth 0's stage 2 where the manifest enables it, its pages, and the invalidation as by TLBI.B. -/
def State.berth0Maps (s : State) : State :=
  let m := s.hm.man
  let s := if m.b0S2 then (s.newTop 0).getD s else s
  let s := (State.mapAll 0 ((if m.b0S2 then b0Device else []) ++ m.b0Maps) s).getD s
  if m.b0S2 then ((s.berthThreads 0).foldl State.putS2 s).invalidateBerth 0 else s

/-- R397: PCR_DOMAIN_CFG of every domain that the manifest gives. -/
def State.domainCfgs (s : State) : State :=
  (s.hm.man.domCfg.zipIdx).foldl (fun s e => s.setReg (0x104A001020 + 4 * e.2) (BitVec.ofNat 32 (idleStored e.2 e.1.1 + e.1.2 * 2 ^ 8))) s

/-- R424: full service. -/
def State.fullService (s : State) : State :=
  let m := s.hm.man
  let s := { s with dramCap := s.dramInstalled }
  let s := s.domainCfgs
  let s := if m.pcie then s.setDom 18 .on else s
  let s := m.ports.foldl (fun s p => s.portCfgWrite p.port p.cfg) s
  let s := s.berth0Maps
  let s := m.b0Threads.foldl State.manStart s
  let s := s.modPwr (fun p => { p with req := (List.range 8).foldl (fun t n => Tbl.set (fun _ => (6 : Nat)) t n 1) p.req })
  let s := (s.modBerth 0 (fun b => { b with wdAct := m.b0Act, wdUb := m.b0Ub, wdLb := m.b0Lb })).wdWindow 0
  let v := s.reg 0x104A004000
  let s := s.setRegs [(0x104A004000, putBit (putBits v 8 2 0) 23 false),
                      (0x104A00400C, putBits (s.reg 0x104A00400C) 16 16 s.bootMs)]
  let s := (s.modGw (fun g => { g with handover := some s.time })).record 0x1046001034 (2 ^ 18) (some 627)
  s.modHm (fun h => { h with full := true, boot := 2 })

/-- R424: the steps before are done. -/
def State.mayServe (s : State) : Bool :=
  s.hm.committed && !s.hm.held && !s.hm.full && s.hm.trained &&
  (List.range s.channels).all (fun c => s.dram.zeroed.getLsbD c) && (List.range 8).all (fun n => s.clusterFused n || s.clusterLoaded n)

/-- R424. -/
def execFullServiceDeclare (s : State) : Out := whenOk s.mayServe s s.fullService

/-! ## The manifest commands (R307, R430, R433) -/

/-- R307. -/
def execManWrite (m : Fin 69) (s : State) : Out :=
  ok (s.harbour m.val 0x0901 (fun s q =>
    let off := (q.q 0).toNat
    let bs := wordsBytes (q.pay.drop 1)
    if 2 ^ 16 ≤ off then .fail stDenied 8
    else if 196608 < 4 * off + bs.length then .fail stNoResource 2
    else .done (s.modHm (fun h => { h with
      stagedAny := true, staged := (bs.zipIdx).foldl (fun t b => Tbl.set (fun _ => (0 : Byte)) t (4 * off + b.2) b.1) h.staged })) []))

/-- R307, R430: the staged bytes go to the check, and the buffer is empty. -/
def execManCommit (m : Fin 69) (s : State) : Out :=
  ok (s.harbour m.val 0x0902 (fun s q =>
    let n := (q.q 0).toNat
    if n = 0 ∨ 196608 < n ∨ bits (q.q 1) 31 1 ≠ 0 then .fail stDenied 8
    else if !s.hm.committed && !s.hm.held then .fail stNotReady 1
    else if !s.hm.held && !bit (q.q 1) 0 then .fail stDenied 5
    else .accept (s.modHm (fun h => { h with staged := [], stagedAny := false }))
      ((List.range n).map (fun i => Tbl.get (fun _ => (0 : Byte)) s.hm.staged i))))

/-- R307: 0 nothing staged, 1 staged, 2 committed. -/
def execManStatus (m : Fin 69) (s : State) : Out :=
  ok (s.harbour m.val 0x0903 (fun s _ =>
    let st := if s.hm.stagedAny then 1 else if s.hm.committed then 2 else 0
    .done s ([BitVec.ofNat 32 (st + b2n s.hm.held * 2 ^ 8), BitVec.ofNat 32 s.hm.lastFail] ++ s.manWords)))

/-- R211: flash changes behind its window: the copies of its lines in the L2s, the agents' caches and the SLC keep the bytes they hold. -/
def State.flashStale (s : State) (pa n : Nat) : State :=
  let inside (l : Nat) : Bool := flashLine l && decide (pa < l * 64 + 64 ∧ l * 64 < pa + n)
  let held := (s.coh.agents.filter (fun e => e.2.st != .I && inside (e.1 % 2 ^ 34))).map (fun e => (e.1 / 2 ^ 34, e.1 % 2 ^ 34)) ++
    (s.coh.slc.filter (fun e => e.2 != .absent && inside e.1)).map (fun e => (15, e.1))
  held.foldl (fun s e => if s.staleOf e.1 e.2 = [] then s.setStale e.1 e.2 (s.rdBytes (e.2 * 64) 64) else s) s

/-- R433: the boot slot is erased, so that its bytes read as those that nothing has written (log 119), and takes a manifest. -/
def State.storeManifest (s : State) (l : List Byte) : State :=
  let n := min 196608 (s.flashSize 0)
  let s := s.flashStale (flashBase 0) n
  State.wrBytes { s with mem := s.mem.filter (fun c => !(decide (flashBase 0 ≤ c.1) && decide (c.1 < flashBase 0 + n))) } (flashBase 0) (l.take n)

/-- R436: start-up continues from the staged manifest. -/
def State.leaveHeld (s : State) (l : List Byte) : State :=
  s.modHm (fun h => { h with
    held := false, early := false, committed := false, island := false, trained := false, boot := 1, image := some l })

/-- R307, R430, R433, R436: the checks of a MAN_COMMIT end. -/
def State.manWork (s : State) (a : Accepted) : State :=
  match s.allChecks a.data with
  | .error c => (s.modHm (fun h => { h with lastFail := c })).workEnds a (r0 stDenied c) []
  | .ok _ =>
    let s := if bit (a.pay.getD 1 0) 0 then s.storeManifest a.data else s
    let s := s.workEnds a (r0 stOk 0) []
    if s.hm.held then s.leaveHeld a.data else s

/-! ## Completions (R285) -/

/-- Ends the first of some accepted commands whose work can end now. -/
def State.endFirst : List Accepted → State → State
  | [], s => s
  | a :: r, s =>
    if a.opcode = 0x0902 then s.manWork a
    else match s.workStep a with
      | (s, true) => s
      | (s, false) => State.endFirst r s

/-- R285, R459: an accepted command of a mailbox ends, and the oldest completion is posted when the buffer is free. -/
def execCompletionPost (m : Fin 69) (s : State) : Out :=
  whenOk (!s.frozen) s ((State.endFirst (s.hm.acc.filter (fun a => a.mbx == m.val)) s).postNext m.val)

end Sys2Proof.Machine
end

