-- ==== Sys2Proof/Machine/Sleep.lean ====
section
/-! DEFINITION. Domains that fall asleep or are lost in S0 (R232, R395 to R397), the device power states (R403 to R406), wake
sources and the wake port (R407 to R410), and LOCKUP_N's minimum low time (R164). -/

namespace Sys2Proof.Machine

/-! ## Domains in S0 (R395 to R397) -/

/-- The block whose frame's registers a domain holds alone. -/
def domBlock (d : Nat) : Option Nat :=
  if d = 13 then some 14 else if d = 14 then some 5 else if d = 16 then some 6 else if d = 17 then some 7 else if d = 18 then some 9
  else if d = 19 then some 8 else if d = 21 then some 13 else none

/-- The block whose IO micro-TLB a domain holds (R180): the number of its requester class less 3. -/
def domBlk (d : Nat) : Option Nat := if d = 19 then some 0 else if d = 17 then some 1 else if d = 14 then some 2 else if d = 18 then some 3 else none

/-- R395, R336, R398: the contents of a domain that goes OFF are lost, a scrubber of its memory abandons its lap, and its PLL stops. -/
def State.loseDomain (s : State) (d : Nat) : State :=
  let s := match domBlock d with
    | some c => { s with regs := s.regs.filter (fun e => !(decide (frameBase c ≤ e.1) && decide (e.1 < frameBase c + 0x1000000))) }
    | none => s
  let s := (List.range 75).foldl (fun s u => if cntDomain u = d then s.cntLose u else s) s
  let s := match domBlk d with
    | some b => { s with tlbs := s.tlbs.filter (fun e => e.loc != .micro b && (d != 19 || e.loc != .io)) }
    | none => s
  if 2 ≤ d ∧ d ≤ 9 then
    let n := d - 2
    State.emptyL1s { (s.setScrub 0 n { lap := (s.scrub 0 n).lap }).modPwr (fun p => { p with plls := Tbl.set (fun _ => false) p.plls n false }) with
        pat := { s.pat with loaded := s.pat.loaded.filter (fun e => e.1 / 4 != n) },
        tlbs := s.tlbs.filter (fun e =>
          match e.loc with
          | .itlb k => k / 4 != n
          | .dtlb k => k / 4 != n
          | .l2 k => k != n
          | .io => true
          | .micro _ => true) } n
  else if d = 13 then { s with sec := { s.sec with slots := [], qs := [] } }
  else if d = 14 then { s with eth := { sent := s.eth.sent } }
  else if d = 17 then { s with gw := { handover := s.gw.handover } }
  else if d = 18 then { s with pcie := { sent := s.pcie.sent }, pwr := { s.pwr with plls := Tbl.set (fun _ => false) s.pwr.plls 12 false } }
  else if d = 21 then { s with trc := { saved := s.trc.saved } }
  else s

/-- R396: is an entry of a gateway table a valid route, buffer or stream. -/
def gwHeld (k : Nat) (e : BitVec 256) : Bool :=
  ((k / 2 ^ 16 == 0 || k / 2 ^ 16 == 1) && bit (entryWord e 0) 31) || (k / 2 ^ 16 == 3 && bit (entryWord e 4) 31)

/-- R396: may a domain gate: nothing in it is busy. -/
def State.domIdle (s : State) (d : Nat) : Bool :=
  if d = 13 then (List.range 16).all (fun r => (s.svcQ r).st != 1)
  else if d = 16 then (List.range 24).all (fun k => !bit (s.reg (canPage k)) 31) && (List.range 54).all (fun u => !bit (s.reg (busPage u)) 31)
  else if d = 17 then
    s.gw.tbl.all (fun e => !gwHeld e.1 e.2) && s.gw.inq.isEmpty && (List.range 32).all (fun q => !s.ringOn (txRing (512 + q)) && !s.ringOn (rxRing (512 + q)))
  else if d = 19 then (List.range 32).all (fun i => (List.range 4).all (fun c =>
    !s.ringOn (dmaRing (256 + i) c) || s.ringHead (dmaRing (256 + i) c) == s.ringTail (dmaRing (256 + i) c)))
  else if d = 21 then s.dbgLevel == 0 && s.armed.isEmpty
  else false

/-- R396, R397: a domain other than a cluster gates. -/
def execDomainIdleGate (d : Fin 24) (s : State) : Out :=
  whenOk (s.domain d == .on && decide (1 ≤ s.idleOf d) && s.domIdle d) s (s.setDom d .gated)

/-- R396: may a domain power off now. -/
def State.domMayOff (s : State) (d : Nat) : Bool :=
  if 2 ≤ d ∧ d ≤ 9 then s.idleOf d == 2 && (s.clusterThreads (d - 2)).all (fun t => (s.th t).state == .free) && s.clusterQuiet (d - 2)
  else if d = 13 ∨ d = 19 ∨ d = 21 then s.idleOf d == 2 && s.domIdle d
  else if d = 14 then s.idleOf d == 2 && (List.range 20).all (fun p => !bit (s.portCfg p) 31)
  else if d = 15 then s.idleOf d == 2 && (List.range 8).all (fun p => !bit (s.portCfg (12 + p)) 31)
  else if d = 18 then !s.hm.man.pcie
  else false

/-- R397, R396: a domain powers off by itself, its agent's cache flushed. -/
def execDomainIdleOff (d : Fin 24) (s : State) : Out :=
  let on := s.domain d == .on || s.domain d == .gated
  if !(on && s.domMayOff d) then ok s
  else
    let s := match domAgent d with
      | some a => s.flushAgent a
      | none => s
    ok (((s.loseDomain d).setDom d .off).domRecord d (2 ^ 17))

/-- R232, R397: a domain is lost without its flush: LOST, and its agent is declared dead with cause PWR. -/
def execDomainPowerLoss (d : Fin 24) (s : State) : Out :=
  match domAgent d with
  | none => ok s
  | some a =>
    if s.domain d = .off then ok s
    else ok ((((s.loseDomain d).setDom d .off).domRecord d (2 ^ 16)).declareDead a (2 ^ 16) 0)

/-- R164: the minimum low time of LOCKUP_N ends. -/
def execLockupNMinLowExpiry (s : State) : Out := ok ({ s with lockMin := false }).lockupUpdate

/-! ## Sleep (R298, R403 to R407) -/

/-- R407: the codes that can wake from a state. -/
def wakeCodes (k : Nat) : W32 := if k = 1 then 0x7FE else if k = 4 then 0x6BE else 0x6FE

/-- R298, R405, R407. -/
def execPwrSleep (m : Fin 69) (s : State) : Out :=
  ok (s.harbour m.val 0x0204 (fun s q =>
    let k := (q.q 0).toNat
    let mask := q.q 1 &&& wakeCodes k
    let s' := s.modPwr (fun p => { p with sleep := .entering k, mask := mask, heldWake := none })
    if k < 1 ∨ 4 < k ∨ (k ≠ 1 ∧ mask = 0) then .fail stDenied 8
    else if !s.hm.acc.isEmpty || !s.hm.ended.isEmpty then .fail stBusy 1
    else if k ≤ 2 then
      (if s.threads.any (fun t => (s.th t).state == .run) then .fail stDenied 9 else .accept (s'.encPause 9) [])
    else .done s' []))

/-- R403: the state of a domain in S1 or S2, from its state in S0. -/
def sleepDom (k d : Nat) (x : Dom) : Dom :=
  if x = .off ∨ d = 0 then x
  else if k = 1 then (if (2 ≤ d ∧ d ≤ 9) ∨ d = 13 ∨ d = 17 ∨ d = 18 ∨ d = 19 ∨ d = 21 then .gated else x)
  else .retained

/-- R403, R405: S1 or S2 is entered. -/
def State.enterLight (s : State) (k : Nat) : State :=
  let was := s.dom
  let s := (List.range 24).foldl (fun s d => s.setDom d (sleepDom k d (s.domain d))) s
  let s := s.modPwr (fun p => { p with sleep := .asleep k, saved := was })
  if k = 1 then s
  else
    let s := s.flushAgent 12
    { s.modPwr (fun p => { p with plls := [] }) with
        dram := { s.dram with sr := true }, pcie := { s.pcie with link := [] },
        eth := { s.eth with links := s.eth.links.filter (fun e => decide (12 ≤ e.1)) } }

/-- R406, R437: S3 or S4 is entered: every domain but PD00 is off, and what the state does not keep is lost. -/
def State.enterDeep (s : State) (k : Nat) : State :=
  let s := s.sbAllWritten.flushAll
  let p := s.pwr
  let rec_ := bits (s.reg 0x104C002008) 7 0 * 0x100000 + bits (s.reg 0x104C002004) 31 12
  let trc := if k = 3 then some (rec_, (s.reg 0x104C00200C).toNat, (s.reg 0x104C002010).toNat) else none
  let ports := s.hm.man.wakePorts
  let s := s.afterReset { dram := k == 3, errs := k == 3 }
  { s with
      hm := { s.hm with man := { s.hm.man with wakePorts := if k = 3 then ports else 0 } },
      dram := { s.dram with sr := k == 3, dsm := k == 3 }, trc := { s.trc with saved := trc },
      pwr := { s.pwr with sleep := .asleep k, mask := p.mask, heldWake := p.heldWake } }

/-- R198, R405, R406: the entry completes, S1 and S2 only with empty store buffers; a wake source that asserted meanwhile makes the device leave at once. -/
def execSleepEntryDone (s : State) : Out :=
  match s.pwr.sleep with
  | .entering k =>
    if k ≤ 2 ∧ s.cores.any (fun c => !c.2.sb.isEmpty) then ok s
    else
    let held := s.pwr.heldWake
    let s := if k ≤ 2 then s.enterLight k else s.enterDeep k
    (match held with
    | some w => ok (s.leaveSleep k w.1 w.2)
    | none => ok s)
  | _ => ok s

/-- R407: a wake source of codes 1 to 10 asserts. -/
def execWakeSourceAssert (code : Fin 32) (arg : BitVec 11) (s : State) : Out :=
  whenOk (decide (1 ≤ code.val) && decide (code.val ≤ 10)) s (s.wake false code.val arg.toNat)

/-- R407: the AON wake timer reaches its count. -/
def execWakeTimerExpiry (s : State) : Out := whenOk (s.reg 0x104A003010 != 0) s (s.wake false 1 0)

/-- R405, R408: the device is back in S0; from S3 and S4, the harbourmaster is ready, and PCR_WAKE_EVR signals. -/
def execSleepExitComplete (s : State) : Out :=
  match s.pwr.sleep with
  | .leaving k =>
    if k ≤ 2 then
      let s := { s.modPwr (fun p => { p with sleep := .awake, saved := [] }) with dom := s.pwr.saved, dram := { s.dram with sr := false } }
      let s := (List.range 8).foldl State.ungate s
      let s := s.encResume 10
      (match s.accepted (fun a => a.opcode == 0x0204) with
      | some a => ok (s.workEnds a (r0 stOk 0) [s.reg 0x104A003000])
      | none => ok s)
    else whenOk s.hm.ready s ((s.modPwr (fun p => { p with sleep := .awake })).signal 1122)
  | _ => ok s

/-! ## The wake port (R408 to R410) -/

/-- The device state that a read of the wake port reports (R410): the one the device leaves, 0 in S0. -/
def Sleep.left : Sleep → Nat
  | .awake => 0
  | .entering k => k
  | .asleep k => k
  | .leaving k => k

/-- R410: a transaction's address byte and its data byte, or the byte that a read sends. -/
def execWakePortMatch (addr : BitVec 7) (rd : Bool) (byte : Byte) (s : State) : Out :=
  let c := s.reg 0x104A003008
  let s := s.modPwr (fun p => { p with wkpBusy := true })
  if !(bit c 7 && bits c 6 0 == addr.toNat) then ok s
  else
    let s := if rd then s.modPwr (fun p => { p with wkpOut := BitVec.ofNat 8 p.sleep.left }) else s.setReg 0x104A00300C (BitVec.ofNat 32 byte.toNat)
    if s.pwr.sleep = .awake then ok (if rd then s else s.record 0x104A003004 (2 ^ 17) (some 1122))
    else ok (s.wake false 2 (if rd then 0xFF else byte.toNat))

/-- R408, R410: the transaction ends; a deferred write of PCR_WKP_CFG takes effect. -/
def execWakePortStop (s : State) : Out :=
  let s' := match s.pwr.wkpNew with
    | some v => s.setReg 0x104A003008 v
    | none => s
  ok (s'.modPwr (fun p => { p with wkpBusy := false, wkpNew := none }))

/-- R408: a write to PCR_WKP_CFG. -/
def State.wkpCfg (s : State) (w : W32) : State :=
  if s.pwr.wkpBusy then s.modPwr (fun p => { p with wkpNew := some (w &&& 0xFF) }) else s.setReg 0x104A003008 (w &&& 0xFF)

/-- R408. -/
def execPcrWkpCfgWrite (rq : Req) (w : W32) (s : State) : Out := ok (s.gWrite rq 0x104A003008 w (fun s => s.wkpCfg w))

/-! ## 10BASE-T1S wake and sleep (R346, R358, R407) -/

/-- R358: a wake or sleep request on port 12 + i. -/
def execT1sWakeSleepRx (port : Fin 8) (wake : Bool) (s : State) : Out :=
  let p := 12 + port.val
  let s := if s.portUp p then s.portRecord p 5 (if wake then 2 ^ 17 else 2 ^ 16) else s
  ok (if wake && Nat.testBit s.hm.man.wakePorts port.val then s.wake false 6 p else s)

end Sys2Proof.Machine
end

