-- ==== Sys2Proof/Machine/Bus.lean ====
section
/-! DEFINITION. One access of a requester to a register page (R15 to R35): which pages exist, what live registers read, what
reads and writes do beside returning and storing values, and the context page of R467. -/

namespace Sys2Proof.Machine

/-- How a register access ends: with the value read (zero for a write), with the error response of R21 and its reason
(R152), or stalled while its domain wakes (R22). -/
inductive RegRes where
  | done (v : W32)
  | error (reason : Nat)
  | stall
deriving DecidableEq, Repr

/-- Bits as a word, bit 0 first. -/
def bitsW (l : List Bool) : W32 := BitVec.ofNat 32 (l.foldr (fun b n => b2n b + 2 * n) 0)

/-! ## Common pages (R27, R32) -/

/-- Is a flag of any of some event records set. -/
def State.groupSet (s : State) (l : List Nat) : Bool := l.any (fun a => bits (s.reg a) 18 0 != 0)

/-- Addresses from `lo`, `n` of them, `st` apart. -/
def run (lo n st : Nat) : List Nat := (List.range n).map (fun i => lo + st * i)

/-- blk_SUM of block code `c`, or of cluster `c - 16` (R32 and the block maps). -/
def State.sumReg (s : State) (c : Nat) : W32 :=
  let g := s.groupSet
  if 16 ≤ c then
    let n := c - 16
    let f := 0x1040000000 + n * 0x100000
    let locked := s.threads.any (fun t => decide (t / 128 = n) && (s.th t).state == .locked)
    bitsW ((run (f + 0x1088) 4 0x1000).map (fun a => g [a]) ++ [g [f + 0x5000] || locked, g [f + 0x6000],
      g [f + 0x7000, f + 0x7004]])
  else match c with
    | 2 => bitsW [g [0x1041001004], g [0x104100100C]]
    | 3 => bitsW ((List.range 8).map (fun c => g [chPage c, chPage c + 4]) ++
        (List.range 8).map (fun c => g (run (chPage c + 8) 4 4)))
    | 4 => bitsW (List.replicate 8 false ++ [g [0x1043002008] || !s.coh.reclaim.isEmpty, g [0x1043002010],
        g (run 0x1043003000 16 4), g (run 0x1043003040 8 4)])
    | 5 => bitsW ((List.range 20).map (fun p => g (run (portPage p + 8) 6 4)) ++ [g (run 0x1044001028 3 4)])
    | 6 =>
      let b := fun (lo n : Nat) => g ((run (busPage lo + 0x10) n 0x1000) ++ run (busPage lo + 0x14) n 0x1000)
      bitsW ((List.range 24).map (fun k => g (run (canPage k + 0x38) 4 4)) ++
        [b 0 16, b 16 8, b 24 12, b 36 8, b 44 8, b 52 2])
    | 7 => bitsW ((run 0x1046001028 4 4).map (fun a => g [a]))
    | 8 => bitsW (g [0x1047001004] :: List.replicate 14 false ++ [g [0x1047010004]])
    | 9 => bitsW [g [0x1048001008], g [0x104800100C]]
    | 10 => bitsW ((List.range 6).map (fun m => g (run (0x1049007004 + m * 256) 32 8)) ++
        (List.range 3).map (fun i => g (run (tmrReg (32 * i) 0x1C) 32 0x40)) ++ [g (run (wdPage 0 + 8) 64 0x1000)])
    | 11 => bitsW [g [0x104A001008], g [0x104A00201C], g [0x104A002024], g [0x104A003004]]
    | 12 => bitsW (g [0x104B001018] :: (List.range 8).map (fun h => g [histPage h + 8]) ++ [g (run (cntPage 0 + 8) 75 0x1000)])
    | 13 => bitsW [g [0x104C001004], g [sinkPage + 0x18]]
    | 14 => bitsW (g [0x104D001004] :: List.replicate 15 false ++ (List.range 16).map (fun r => g [svcPage r + 0xC]))
    | _ => 0

/-- blk_ID (R27): block code, instance and revision B0. -/
def idReg (c : Nat) : W32 :=
  BitVec.ofNat 32 (if 16 ≤ c then 2 ^ 24 + (c - 16) * 2 ^ 16 + 0x100 else c * 2 ^ 24 + 0x100)

/-! ## The context page (R467, R468) -/

/-- The item a debugger reads of a thread. -/
def State.ctxItem (s : State) (t item : Nat) : Word :=
  let x := s.th t
  if item < 0x20 then x.ctx.rd item
  else if item = 0x20 then BitVec.ofNat 36 ((List.range 8).foldl (fun n i => n + b2n (x.ctx.rdP i) * 2 ^ i) 0)
  else if item = 0x21 then x.ctx.pc
  else if item = 0x22 then (s.tstate t).setWidth 36
  else if 0x100 ≤ item ∧ srnAssigned (item - 0x100) then s.srnRead t x.ctx (item - 0x100)
  else 0

/-- ST as a debugger writes it (R468): STRICT stays, PL takes 0, 1 or 2. -/
def stDebug (st v : Word) : Word :=
  let v := v &&& 0xFFFFFF#36
  let v := putBit v 8 (stStrict st)
  if bits v 1 0 = 3 then putBits v 0 2 (stPl st) else v

/-- A debugger's write of a system register. -/
def State.ctxSysr (s : State) (t n : Nat) (v : Word) : State :=
  let x := s.th t
  let c := x.ctx
  let m := v &&& BitVec.ofNat 36 (srnMask n)
  if n = 0 then s.setTh t { x with ctx := { c with st := stDebug c.st v }, asid := BitVec.ofNat 12 (bits (stDebug c.st v) 23 12) }
  else if n = 1 then s.setTh t { x with ctx := { c with cls := Nat.min (bits v 1 0) c.ceil } }
  else if n = 2 then s.setTh t { x with ctx := { c with wPend := BitVec.ofNat 8 (bits v 7 0) } }
  else if n = 8 ∨ n = 9 ∨ n = 0x48 ∨ n = 0x49 ∨ !srnAssigned n then s
  else if n = 0xA then s.modCore (coreOf t) (fun k => { k with sched := m, schedLast := m })
  else if n = 0x11 ∨ n = 0x21 then
    s.setTh t { x with ctx := c.setSysr n (xstWritten (if n = 0x11 then 1 else 2) (s.strictOf t) v) }
  else
    let c := c.setSysr n m
    let now := if n = 0x14 ∨ n = 0x24 ∨ n = 0x40 ∨ n = 0x41 then Tbl.set (fun _ => (0 : Word)) x.srNow n m else x.srNow
    s.setTh t { x with ctx := c, srNow := now }

/-- R468: a debugger's write of an item of a frozen thread. -/
def State.ctxWrite (s : State) (t item : Nat) (v : Word) : State :=
  if item < 0x20 then s.modTh t (fun x => { x with ctx := x.ctx.wr item v, par := Tbl.del x.par item })
  else if item = 0x20 then
    s.modTh t (fun x =>
      { x with ctx := (List.range 8).foldl (fun c i => c.wrP i (bit v i)) x.ctx, par := Tbl.del x.par 32 })
  else if item = 0x21 then
    s.modTh t (fun x => { x with ctx := { x.ctx with pc := v &&& 0xF_FFFF_FFFC#36 }, buf := none, fetch := .empty })
  else if 0x100 ≤ item then
    (s.modTh t (fun x => { x with par := Tbl.del x.par item })).ctxSysr t (item - 0x100) v
  else s

/-- The thread and item that DBT_CTX_SEL names. -/
def State.ctxSel (s : State) : Nat × Nat := (bits (s.reg 0x104C003000) 9 0, bits (s.reg 0x104C003000) 25 16)

/-- R467: is an access to the selected item performed. -/
def State.ctxMay (s : State) : Bool := s.frozen && (s.th s.ctxSel.1).state != .free

/-- R468: a write of DBT_CTX_HI writes the item, at level 2. -/
def State.ctxHiWrite (s : State) (w : W32) : State :=
  if s.ctxMay && decide (2 ≤ s.dbgLevel) then
    ({ s with dbg := { s.dbg with ctxDeny := false } }).ctxWrite s.ctxSel.1 s.ctxSel.2
      (BitVec.ofNat 36 (bits w 3 0 * 2 ^ 32 + (s.reg 0x104C003004).toNat))
  else { s with dbg := { s.dbg with ctxDeny := true } }

/-! ## Live registers -/

/-- PCR_BOOT (R422 to R425): full service, commit, island, early segment and READY. -/
def State.bootReg (s : State) : W32 :=
  BitVec.ofNat 32 (b2n s.hm.full * 16 + b2n s.hm.committed * 8 + b2n s.hm.island * 4 + b2n s.hm.early * 2 + b2n s.hm.ready)

/-- The live registers of the power, clock and reset frame (R395, R400, R407, R413, R421). -/
def State.pcrLive (s : State) (k : PageKind) (off : Nat) : Option W32 :=
  let dom := fun (f : Dom → Bool) => bitsW ((List.range 24).map (fun d => f (s.domain d)))
  let grant := fun (lo : Nat) =>
    BitVec.ofNat 32 ((List.range 4).foldl (fun a n => a + Tbl.get (fun _ => (0 : Nat)) s.pwr.grants (lo + n) * 256 ^ n) 0)
  match k, off with
  | .pcrDom, 0x000 => some (dom (fun d => d == .on || d == .gated))
  | .pcrDom, 0x004 => some (dom (fun d => d == .gated))
  | .pcrLvl, 0x000 => some (nibbles s.levelReq)
  | .pcrLvl, 0x004 => some (nibbles s.levelShown)
  | .pcrLvl, 0x008 => some (BitVec.ofNat 32 (s.pwr.ceil + b2n s.pwr.reduced * 8 + s.pwr.thermal * 16 + s.ceilNow * 256))
  | .pcrLvl, 0x00C => some (BitVec.ofNat 32 (s.pool + s.pwr.allowance * 2 ^ 16))
  | .pcrLvl, 0x010 => some (grant 0)
  | .pcrLvl, 0x014 => some (grant 4)
  | .pcrLvl, 0x018 => some (s.pwr.p0.setWidth 32)
  | .pcrLvl, 0x028 => some (BitVec.ofNat 32 (s.pwr.tj.toNat + s.pwr.sensor * 256))
  | .pcrRst, 0x004 => some (BitVec.ofNat 32 (b2n s.hm.held * 2 ^ 31 + s.hm.heldCode))
  | .pcrRst, 0x008 => some s.bootReg
  | _, _ => none

/-- The live registers of the cluster, DRAM and fabric frames (R64, R165, R234, R252, R339). -/
def State.coreLive (s : State) (k : PageKind) (u off : Nat) : Option W32 :=
  match k with
  | .core =>
    if off < 0x80 then some (s.tstate (32 * u + off / 4))
    else if off = 0x80 then some ((s.core u).sched.setWidth 32)
    else if off = 0x84 then some (BitVec.ofNat 32 (u % 4 * 256 + b2n (s.checker u) * 2 + b2n (s.paired.getLsbD (u / 4))))
    else none
  | .lockup =>
    if 0x10 ≤ off then some (bitsW ((List.range 32).map (fun i => (s.th (32 * (4 * u + (off - 0x10) / 4) + i)).state == .locked)))
    else none
  | .patternPage => if 0x10 ≤ off then some ((s.psv (4 * u + (off - 0x10) / 4)).setWidth 32) else none
  | .dmcCtl =>
    match off with
    | 0x000 => some (BitVec.ofNat 32 (s.channels * 2 ^ 24 + s.dram.gib * 2 ^ 16 + b2n s.dram.dual * 2 ^ 15 +
        b2n s.dram.wckAo * 2 ^ 14 + s.dram.rate))
    | 0x004 => some (BitVec.ofNat 32 s.prot.toNat)
    | 0x008 => some (BitVec.ofNat 32 (s.prot.toNat / 2 ^ 32))
    | 0x00C => some (BitVec.ofNat 32 (s.dram.limDram * 2 ^ 16 + s.dram.ivl))
    | _ => none
  | .dmcCh =>
    let four := fun (r : Nat) =>
      BitVec.ofNat 32 ((List.range 4).foldl (fun a i => a + s.counter (0x10 + u) (r + i) * 256 ^ i) 0)
    match off with
    | 0x028 => some (four 1)
    | 0x02C => some (four 5)
    | 0x034 => some (BitVec.ofNat 32 (b2n (s.dram.trained.getLsbD u) * 2 ^ 31 + b2n s.dram.sr * 2 ^ 30 +
        b2n s.dram.dsm * 2 ^ 29 + b2n (s.dram.zeroed.getLsbD u) * 2 ^ 28 + (s.scrub 2 u).pos % 2 ^ 28))
    | _ => none
  | .fabDir =>
    if off = 4 then
      some (bitsW ((List.range 13).map (fun a => !s.agentDead a && !(decide (a < 8) && s.clusterFused a))))
    else none
  | _ => none

/-- The live registers of the switch, vehicle bus, gateway, DMA, PCI Express and timer frames. -/
def State.ioLive (s : State) (k : PageKind) (u off : Nat) : Option W32 :=
  match k with
  | .eswGlob =>
    if off = 0 then some (bitsW ((List.range 20).map (fun p => !s.portFused p)))
    else if off = 0x34 then some (BitVec.ofNat 32 (s.hm.man.mgmtPorts * 2 ^ 12 + s.hm.man.mgmtVid)) else none
  | .eswPort => if off = 4 then some (s.portStat u) else none
  | .eswTd => if off = 0 then some s.tdStat else none
  | .can =>
    let c := s.canOf u
    match off with
    | 0x014 => some (s.canStat u)
    | 0x01C => some c.rxf.stat
    | 0x024 => some c.pend
    | 0x02C => some c.pend
    | 0x030 => some c.done
    | 0x034 => some c.cxl
    | _ => none
  | .bus => if off = 4 then some (s.busStat u) else if off = 8 then some ((s.busOf u).rx.headD 0) else none
  | .iot => if off = 0x14 then some (BitVec.ofNat 32 (min 0xFF s.tlbis.length)) else none
  | .pceGlob => if off = 0 then some s.pceCfg else if off = 4 then some s.pceLinkStat else none
  | .gpioBank => if off = 0 then some (s.gpioIn u) else if off = 0x14 then some (Config.gpioFn s.hm.man.version u) else none
  | .canShare =>
    let x := s.share u
    match off with
    | 0x020 => some (s.cshCtl u)
    | 0x028 => some x.rxf.stat
    | 0x030 => some (x.pend.setWidth 32)
    | 0x038 => some (x.pend.setWidth 32)
    | 0x03C => some (x.done.setWidth 32)
    | _ => if 0x400 ≤ off then some (s.reg (s.cshRam u off)) else none
  | .pceFn =>
    if off = 0x2C then some (s.pceFnStat u)
    else if off = 0x30 then some (BitVec.ofNat 32 s.hm.man.pcieBar0) else none
  | .wdog =>
    match off with
    | 0x004 => some (s.wdStat u)
    | 0x00C => some (BitVec.ofNat 32 (s.berth u).wdUb)
    | 0x010 => some (BitVec.ofNat 32 (s.berth u).wdLb)
    | _ => none
  | _ => none

/-- The live registers of the row counter, security and debug frames. -/
def State.sysLive (s : State) (rq : Req) (k : PageKind) (u off : Nat) : Option W32 :=
  match k with
  | .row =>
    if off = 0x14 then some (BitVec.ofNat 32 (b2n s.perf.armed * 2 ^ 31 + b2n s.perf.gather * 2 ^ 30 + s.perf.seq)) else none
  | .cnt =>
    if off = 0 then some (s.cntId u)
    else if 0x80 ≤ off ∧ (off - 0x80) / 8 < cntCount u then
      (if off % 8 = 0 then some (BitVec.ofNat 32 (s.cntVal u ((off - 0x80) / 8)))
       else if rq.peek then some (BitVec.ofNat 32 (s.cntVal u ((off - 0x80) / 8) / 2 ^ 32)) else none)
    else none
  | .smp => if off = 4 then some (s.smpStat u) else none
  | .shiGlob =>
    match off with
    | 0x000 => some s.shiStat
    | 0x008 => some (BitVec.ofNat 32 Config.devId)
    | 0x00C => some (BitVec.ofNat 32 (Config.devId / 2 ^ 32))
    | 0x018 =>
      let a := bits (s.reg 0x104D001014) 9 0
      some (if 0x39 ≤ a ∧ a ≤ 0x40 then 0 else s.otp a)
    | _ =>
      if 0x20 ≤ off then
        let key := Config.ecPublic 384 (Config.derive Config.duk [] 0)
        some (BitVec.ofNat 32 (leNat (fit 4 (key.drop (off - 0x20)))))
      else none
  | .shiQ => if off = 8 then some (s.svcStat u) else none
  | .dbt =>
    if off = 0 then
      some (BitVec.ofNat 32 (s.dbgLevel + b2n s.frozen * 4 + b2n (s.frzReq || s.frozen) * 8 + min 15 s.dbg.fails * 16))
    else none
  | .dbtCtx =>
    let v := s.ctxItem s.ctxSel.1 s.ctxSel.2
    match off with
    | 0x004 => some (if s.ctxMay then v.setWidth 32 else 0)
    | 0x008 => some (if s.ctxMay then BitVec.ofNat 32 (v.toNat / 2 ^ 32) else 0)
    | 0x00C => some (bitsW [s.dbg.ctxDeny])
    | _ => none
  | .dbtCore => if off = 0 then some (bitsW [(s.enc u).armed, (s.enc u).recording]) else none
  | _ => none

/-- The instance whose page it is (R318): type × 256 + index. -/
def PageRef.instOf (p : PageRef) : Option Nat :=
  match p.kind with
  | .dmaSet => some (256 + p.unit)
  | .gwyQ => some (512 + p.unit)
  | .hostQ => some (768 + p.unit)
  | .canShare => some (1024 + p.unit)
  | .pceFn => some (1280 + p.unit)
  | _ => none

/-- What a served read of a register of a page returns. -/
def State.regValue (s : State) (rq : Req) (p : PageRef) (off : Nat) : W32 :=
  let stored := s.reg (p.base + off)
  match p.kind with
  | .common => if off = 0 then idReg p.unit else if off = 4 then s.sumReg p.unit else stored
  | _ =>
    match p.instOf with
    | some i =>
      if off = 0 then s.instId i
      else if off = 4 then s.instStat i
      else (s.ioLive p.kind p.unit off).getD stored
    | none =>
      match s.pcrLive p.kind off, s.coreLive p.kind p.unit off, s.ioLive p.kind p.unit off,
        s.sysLive rq p.kind p.unit off with
      | some v, _, _, _ => v
      | _, some v, _, _ => v
      | _, _, some v, _ => v
      | _, _, _, some v => v
      | _, _, _, _ => stored

/-! ## Effects of reads and writes -/

/-- What a served read does beside returning its value (R24, R378, R467, R480). -/
def State.readEffect (s : State) (rq : Req) (p : PageRef) (off : Nat) : State :=
  if rq.peek then s
  else match p.kind with
  | .bus => if off = 8 then s.busRxd rq p.unit else s
  | .cnt => if 0x80 ≤ off ∧ off % 8 = 0 then s.cntLoRead rq p.unit ((off - 0x80) / 8) else s
  | .dbtCtx => if off = 4 ∨ off = 8 then { s with dbg := { s.dbg with ctxDeny := !s.ctxMay } } else s
  | _ => s

/-- A write to a plain register: its writable bits, or its record's clear (R10, R29); `a` is its address. -/
def State.plainWrite (s : State) (r : RegRow) (a : Nat) (w : W32) : State :=
  match r.acc with
  | .rw => s.setReg a (w &&& BitVec.ofNat 32 r.mask)
  | .wsq => s.setReg a (clearedBy (s.reg a) w)
  | _ => s

/-- Writes of the vehicle bus frame with an effect of their own; none where the write is a plain one. -/
def State.vbsWrite (s : State) (k : PageKind) (u off : Nat) (w : W32) : Option State :=
  match k with
  | .can =>
    match off with
    | 0x018 => some (s.canRxfCfg u w)
    | 0x020 => some (s.modCan u (fun c => { c with rxf := c.rxf.ack (bits w 5 0) }))
    | 0x024 => some (s.canReq u w)
    | 0x028 => some (s.canCancel u w)
    | _ => if off ≤ 0x10 then some (s.canTiming u (off / 4) w) else none
  | .bus =>
    if off = 0xC then some (s.busTxd u w)
    else if off = 0x40 ∧ 52 ≤ u then some (s.xspCmd (u - 52) w) else none
  | .canShare =>
    let x := s.share u
    match off with
    | 0x024 => some (s.cshRxfCfg u w)
    | 0x02C => some (s.setShare u { x with rxf := x.rxf.ack (bits w 5 0) })
    | 0x030 => some (s.setShare u { x with pend := x.pend ||| w.setWidth 8, done := x.done &&& ~~~(w.setWidth 8) })
    | 0x034 => some (s.cshCancel u w)
    | _ => if 0x400 ≤ off then some (s.setReg (s.cshRam u off) w) else none
  | .gpioBank =>
    let o := gpioPage u + 4
    if off = 8 then some (s.setReg o (s.reg o ||| w)) else if off = 0xC then some (s.setReg o (s.reg o &&& ~~~w)) else none
  | .timer =>
    if off % 0x40 = 0 then some (s.tmrCfg (off / 0x40) w)
    else if off % 0x40 = 8 then some (s.tmrCmpHi (off / 0x40) w) else none
  | .timerHi =>
    if off % 0x40 = 0 then some (s.tmrCfg (64 + off / 0x40) w)
    else if off % 0x40 = 8 then some (s.tmrCmpHi (64 + off / 0x40) w) else none
  | _ => none

/-- Writes of the switch, gateway, DMA and PCI Express frames with an effect of their own. -/
def State.netWrite (s : State) (k : PageKind) (u base off : Nat) (w : W32) : Option State :=
  match k with
  | .eswGlob => if off = 4 then some (s.tblCmd false w) else none
  | .gwyGlob => if off = 4 then some (s.tblCmd true w) else none
  | .eswPort => if off = 0 then some (s.portCfgWrite u w) else none
  | .eswTd => if off = 4 then some (s.tdOffs w) else if off = 8 then some (s.tdRate w) else none
  | .hostQ =>
    match off with
    | 0x028 => some (s.ringCtl (base + off) 0x8000000F w)
    | 0x02C => some (s.ringTailWrite (txRing (768 + u)) w)
    | 0x03C => some (s.ringCtl (base + off) 0x80FF000F w)
    | 0x040 => some (s.ringTailWrite (rxRing (768 + u)) w)
    | _ => none
  | .gwyQ =>
    match off with
    | 0x028 => some (s.ringCtl (base + off) 0x8000000F w)
    | 0x02C => some (s.gwqDoorbell u w)
    | 0x03C => some (s.ringCtl (base + off) 0x80FF000F w)
    | 0x040 => some (s.ringTailWrite (rxRing (512 + u)) w)
    | _ => none
  | .dmaSet =>
    if 0x20 ≤ off ∧ off < 0xA0 then
      (if off % 0x20 = 8 then some (s.ringCtl (base + off) 0x8000000F w)
       else if off % 0x20 = 0xC then some (s.ringTailWrite (dmaRing (256 + u) ((off - 0x20) / 0x20)) w) else none)
    else none
  | .pceFn => if off = 0x28 then some (s.pceMsi u w) else none
  | _ => none

/-- R338: a write to DMC_INJ: BITA or BITB above 71 makes it ignored as a whole. -/
def State.dmcInj (s : State) (c : Nat) (w : W32) : State :=
  if 71 < bits w 6 0 ∨ 71 < bits w 13 7 then s else s.setReg (chPage c + 0x30) (w &&& 0xC0003FFF)

/-- R475: a write to DBT_PORT_CFG: a reserved value ignores the write. -/
def State.portCfgTrc (s : State) (w : W32) : State :=
  if bits w 1 0 = 3 ∨ bits w 5 4 = 3 then s else s.setReg (sinkPage + 0x20) (w &&& 0x80000033)

/-- Writes of the other frames with an effect of their own. -/
def State.sysWrite (s : State) (rq : Req) (k : PageKind) (u off : Nat) (w : W32) : Option State :=
  match k with
  | .dmcCh => if off = 0x30 then some (s.dmcInj u w) else none
  | .wdog => if off = 0 then some (s.wdService u w) else none
  | .pcrDom =>
    if 0x20 ≤ off then
      let d := (off - 0x20) / 4
      some (s.setReg (0x104A001000 + off)
        (BitVec.ofNat 32 (bits w 15 8 * 256 + idleStored d (bits w 1 0))))
    else none
  | .pcrWake => if off = 8 then some (s.wkpCfg w) else none
  | .hist => if off = 0 then some (s.histCfg u w) else if off = 0x14 then some (if bit w 0 then s.histClr u else s) else none
  | .cnt =>
    if off = 4 then some (s.cntCtl u w)
    else if 0x40 ≤ off ∧ off < 0x80 then some (s.cntSel u ((off - 0x40) / 4) w) else none
  | .smp => if off = 0 then some (s.smpCfg u w) else if off = 8 then some (s.smpAck u w) else none
  | .shiGlob => if off = 0x10 then some (s.lcWrite rq w) else if off = 0x1C then some (s.otpWrite rq w) else none
  | .shiQ =>
    if off = 4 then some (if bit w 1 then s.svcCancel u else if bit w 0 then s.svcGo u else s) else none
  | .dbtSink => if off = 0x20 then some (s.portCfgTrc w) else none
  | .dbtCtx =>
    if off = 4 then some (if s.ctxMay then s.setReg 0x104C003004 w else { s with dbg := { s.dbg with ctxDeny := true } })
    else if off = 8 then some (s.ctxHiWrite w) else none
  | _ => none

/-- What a served write of a register does. -/
def State.writeEffect (s : State) (rq : Req) (p : PageRef) (r : RegRow) (off : Nat) (w : W32) : State :=
  match s.vbsWrite p.kind p.unit off w, s.netWrite p.kind p.unit p.base off w, s.sysWrite rq p.kind p.unit off w with
  | some s', _, _ => s'
  | _, some s', _ => s'
  | _, _, some s' => s'
  | _, _, _ => s.plainWrite r (p.base + off) w

/-! ## Who is served -/

/-- R444: OTP and life cycle registers serve an authorised guarded debug session only. -/
def otpReg (k : PageKind) (off : Nat) : Bool := k == .shiGlob && decide (0x10 ≤ off ∧ off < 0x20)

/-- Does a page serve a request at all: counter and sample pages (R480, R488), instance pages (R318), watchdog pages (R316),
the context page (R467), the power frame (R34), guarded registers (R34), OTP reads (R444). -/
def State.pageServes (s : State) (rq : Req) (p : PageRef) (off : Nat) (guard : Bool) : Bool :=
  match p.instOf with
  | some i => s.instServes rq i
  | none =>
    match p.kind with
    | .cnt => s.cntServes rq p.unit
    | .smp => s.cntServes rq p.unit
    | .wdog => s.wdServes rq p.unit
    | .dbtCtx => rq.cls == .debug
    | .common => (p.unit != 11 && !guard) || s.guardOk rq
    | k =>
      if otpReg k off then s.debugGuarded rq
      else !(guard || k == .pcrDom || k == .pcrLvl || k == .pcrWake || k == .pcrRst) || s.guardOk rq

/-- R26: does a page serve a request at an offset that holds no register: only the rules that serve or refuse whole pages count. -/
def State.pageOpen (s : State) (rq : Req) (p : PageRef) : Bool :=
  match p.instOf with
  | some i => s.instServes rq i
  | none =>
    match p.kind with
    | .cnt => s.cntServes rq p.unit
    | .smp => s.cntServes rq p.unit
    | .wdog => s.wdServes rq p.unit
    | .dbtCtx => rq.cls == .debug
    | _ => true

/-- R321, R316, R479, R64: is a served register without effect now: the type registers of an instance in reset, everything of an
instance that does not exist, a watchdog page of an absent berth, an absent counter unit, a checker's core page. -/
def State.regIdle (s : State) (p : PageRef) (off : Nat) : Bool :=
  match p.instOf with
  | some i => !(s.inst i).on || ((s.inst i).rst && decide (0x20 ≤ off))
  | none =>
    match p.kind with
    | .cnt => s.cntAbsent p.unit
    | .smp => s.cntAbsent p.unit
    | .wdog => p.unit != 0 && (s.berth p.unit).st == .absent
    | .core => s.checker p.unit && off != 0x84
    | _ => false

/-- What a served register without effect reads: its reset value while an instance is in reset, else zero. -/
def State.idleValue (s : State) (p : PageRef) (off : Nat) : W32 :=
  match p.instOf with
  | some i => if (s.inst i).on then regReset (p.base + off) else 0
  | none => 0

/-! ## One access -/

/-- A route register (R256, R259, R271): CFG or STAT of an entry, on the open or on the guarded pages. -/
def State.routeAccess (s : State) (rq : Req) (pa e off : Nat) (guarded : Bool) (w : Option W32) : RegRes × State :=
  let stat := off % 8 = 4
  match w with
  | some v => (.done 0, if stat then s.rteStatWrite rq pa e v guarded else s.rteCfgWrite rq pa e v guarded)
  | none =>
    if guarded then (.done (if srcNever (eventOf e) then 0 else if stat then s.rteStat e else s.rteCfg e), s)
    else
      let r := s.rteRead rq pa e stat
      (.done r.2, r.1)

/-- A doorbell register (R268, R269). -/
def State.bellAccess (s : State) (rq : Req) (pa d : Nat) (acc : Bool) (w : Option W32) : RegRes × State :=
  match w with
  | some v => (.done 0, if acc then s.bellAccWrite rq pa d else s.bellRing rq pa d v)
  | none =>
    let r := s.bellRead rq pa d acc
    (.done r.2, r.1)

/-- A mailbox page (R17, R279). -/
def State.mbxAccess (s : State) (rq : Req) (m off : Nat) (w : Option W32) : RegRes × State :=
  if !s.mbxServes rq m then (.done 0, s.mbxRefused rq w.isSome)
  else match w with
    | some v => (.done 0, s.mbxWrite m off (some rq) v)
    | none => (.done (s.mbxRead m off), s)

/-- A refused access (R34, R444). -/
def State.refuseReg (s : State) (rq : Req) (p : PageRef) (pa off : Nat) (wr : Bool) : RegRes × State :=
  let s := if s.guardOk rq && wr then s else s.guardRefuse rq pa wr
  (.done 0, if otpReg p.kind off && wr then s.secErr (2 ^ 15) else s)

/-- An access to a register page whose domain is on, at a masked offset. -/
def State.pageAccess (s : State) (rq : Req) (p : PageRef) (pa off : Nat) (w : Option W32) : RegRes × State :=
  match p.kind with
  | .mbx => s.mbxAccess rq p.unit off w
  | .ertRoute => s.routeAccess rq pa (entryOf rq (256 * p.unit + off / 8)) off false w
  | .ertCopy =>
    if s.guardOk rq then s.routeAccess rq pa (1536 + 256 * p.unit + off / 8) off true w else s.refuseReg rq p pa off w.isSome
  | .ertBell => s.bellAccess rq pa (16 * p.unit + off % 0x40 / 4) (decide (0x40 ≤ off)) w
  | k =>
    match regRow k off with
    | none =>
      if s.pageOpen rq p then (.done 0, s) else s.refuseReg rq p pa off w.isSome
    | some r =>
      if !s.pageServes rq p off r.guard then s.refuseReg rq p pa off w.isSome
      else if s.regIdle p off then (.done (if w.isSome then 0 else s.idleValue p off), s)
      else match w with
        | some v => (.done 0, s.writeEffect rq p r off v)
        | none => (.done (if r.acc == .wo then 0 else s.regValue rq p off), s.readEffect rq p off)

/-- R15, R22 to R26: one access of a requester to a word of a register frame or a mailbox page: a read, or a write of `w`. -/
def State.regAccess (s : State) (rq : Req) (pa : Nat) (w : Option W32) : RegRes × State :=
  if pa % 4 ≠ 0 then (.error 4, s)
  else match pageAt pa with
    | none => (.error 0, s)
    | some p =>
      if s.pageFused p then (.error 0, s)
      else if s.domain (domainOf pa) ≠ .on ∧ ¬ (rq.peek = true ∧ w = none) then (.stall, s)
      else if s.domain (domainOf pa) = .off then (.done 0, s)
      else s.pageAccess rq p pa ((pa - p.base) &&& p.mask) w

/-- R21, R22: an access of a requester that has no bundle or work item of its own in hand: it is performed, fails, or waits. -/
def State.regServe (s : State) (rq : Req) (pa : Nat) (w : Option W32) : State :=
  match s.regAccess rq pa w with
  | (.done v, s) => if w.isSome then s else { s with rdata := v }
  | (.error n, s) => s.accessFails rq pa w.isSome n
  | (.stall, s) => s.waitOn (domainOf pa) (.reg rq pa w)

/-- A read whose value the requester keeps. -/
def State.readReg (s : State) (rq : Req) (pa : Nat) : State := s.regServe rq pa none

/-! ## The commands -/

/-- R10, R25: a write to a register that has no row of its own. -/
def execRegisterWrite (rq : Req) (pa : Nat) (w : W32) (s : State) : Out := ok (s.regServe rq pa (some w))

/-- R29, R30: a write to an event record. -/
def execEventRecordWrite (rq : Req) (pa : Nat) (w : W32) (s : State) : Out :=
  match pageAt pa with
  | some p =>
    match regRow p.kind ((pa - p.base) &&& p.mask) with
    | some r => if r.acc = .wsq then ok (s.regServe rq pa (some w)) else ok s
    | none => ok s
  | none => ok s

/-- R33: a normal read of a register: what it captures or pops. No register of the device's maps carries RSQ. -/
def execRsqRead (rq : Req) (pa : Nat) (s : State) : Out := ok (s.readReg rq pa)

/-- R378: a normal read of RXD pops one word. -/
def execBusRxdRead (rq : Req) (u : Fin 54) (s : State) : Out := ok (s.readReg rq (busPage u + 8))

/-- R480: a read of CNT_LOi captures the counter's high bits. -/
def execCntLoRead (rq : Req) (u : Fin 75) (i : Fin 16) (s : State) : Out :=
  ok (s.readReg rq (cntPage u.val + 0x80 + 8 * i.val))

/-- R338. -/
def execDmcInjWrite (rq : Req) (c : Fin 8) (w : W32) (s : State) : Out :=
  ok (s.gWrite rq (chPage c.val + 0x30) w (fun s => s.dmcInj c.val w))

end Sys2Proof.Machine
end

