-- ==== Sys2Proof/Machine/Host.lean ====
section
/-! DEFINITION. The transports of the host mailboxes (R277, R278): the SPI service port and the Ethernet management VLAN. -/

namespace Sys2Proof.Machine

/-- The mailbox that the SPI service port reaches (R277). -/
def State.sspMbx (s : State) : Option Nat := ((List.range 4).find? (fun h => (s.hostOf h).1 == 1)).map (fun h => 64 + h)

/-- R278: a transaction that opens with a command byte: in a sleep state it is a wake source; in S3 and S4 and until the
harbourmaster is ready only the port's own logic answers. -/
def State.sspOpen (s : State) (byte : Nat) : State := s.wake false 3 byte

/-- Has the mailbox page power: in S3 and S4 only the port's own logic has. -/
def State.sspPowered (s : State) : Bool :=
  match s.pwr.sleep with
  | .asleep k => decide (k ≤ 2)
  | _ => true

/-- R278: a read returns zeros until the harbourmaster is ready. R286: a write reaches the page before that, and a GO is left QUEUED. -/
def State.sspServed (s : State) : Bool := s.hm.ready && s.sspPowered

/-- The word offset bits [7:0] of word `i` of a transaction that starts at `off`, as a page offset (R278). -/
def sspOff (off i : Nat) : Nat := 4 * ((off + i) % 256)

/-- The word that a read returns. -/
def State.sspWord (s : State) (o : Nat) : W32 :=
  match s.sspMbx with
  | some m => if s.sspServed then s.mbxRead m o else 0
  | none => 0

/-- R278: 0x02. -/
def execSspWriteWords (off : Nat) (ws : List W32) (s : State) : Out :=
  let s' := match s.sspMbx with
    | some m =>
      if s.sspPowered then ws.zipIdx.foldl (fun (s : State) (w : W32 × Nat) => s.mbxWrite m (sspOff off w.2) none w.1) s else s
    | none => s
  ok (s'.sspOpen 2)

/-- R278: 0x0B. -/
def execSspReadWords (off n : Nat) (s : State) : Out :=
  ok ({ s with sspOut := (List.range n).map (fun i => s.sspWord (sspOff off i)) }.sspOpen 0xB)

/-- R278: 0x05: MBX_STAT, whose READY is 0 until the harbourmaster is ready. -/
def execSspReadStat (s : State) : Out :=
  ok ({ s with
    sspOut := [match s.sspMbx with
      | some m => s.mbxStat m
      | none => 0] }.sspOpen 5)

/-- R357: a management frame addressed to the device arrives; one that another port, VLAN or moment brings is not one. -/
def execManagementFrameRx (port : Fin 20) (vid : BitVec 12) (src : List Byte) (msg : List W32) (s : State) : Out :=
  whenOk (Nat.testBit s.hm.man.mgmtPorts port.val && s.portUp port.val && s.hm.committed && !s.hm.held && !s.frozen &&
      vid.toNat == s.hm.man.mgmtVid && vid != 0) s (s.mgmtRx port.val src msg)

end Sys2Proof.Machine
end

