-- ==== Sys2Proof/Machine/Scan.lean ====
section
/-! DEFINITION. The boundary scan register (R451, R493 to R496): one cell for each digital signal ball, in the order of the ball map. -/

namespace Sys2Proof.Machine

/-- The digital signal balls (R493, R495, R496), each group with its unit and the ball's place in the group: the 12 RGMII balls of an
Ethernet port, the management pair, the PHY resets, the three balls of a CAN controller, the two of a LIN one, SENT, the five of an SPI
controller, the two of an I3C one, the four of a UART, the twelve of an xSPI one, the control balls, GPIO. -/
inductive Ball where
  | rgmii (port k : Nat)
  | mdio (k : Nat)
  | phyReset (port : Nat)
  | can (k i : Nat)
  | lin (k i : Nat)
  | sent (k : Nat)
  | spi (k i : Nat)
  | i3c (k i : Nat)
  | uart (k i : Nat)
  | xspi (k i : Nat)
  | control (k : Nat)
  | gpio (g : Nat)
deriving DecidableEq, Repr

/-- Groups of `k` balls of `n` units, unit by unit. -/
def ballGroups (mk : Nat → Nat → Ball) (first n k : Nat) : List Ball :=
  (List.range n).flatMap (fun u => (List.range k).map (mk (first + u)))

/-- R493, R494: the balls of the boundary scan register, in its order: Ethernet 4 to 11, the vehicle buses, the serial buses, the 26
digital control balls of R495, GPIO. -/
def scanBalls : List Ball :=
  (ballGroups .rgmii 4 8 12 ++ [.mdio 0, .mdio 1] ++ (List.range 8).map (fun p => .phyReset (4 + p))) ++
  (ballGroups .can 0 24 3 ++ ballGroups .lin 0 16 2 ++ (List.range 8).map .sent) ++
  (ballGroups .spi 0 12 5 ++ ballGroups .i3c 0 8 2) ++
  (ballGroups .uart 0 8 4 ++ ballGroups .xspi 0 2 12 ++ (List.range 26).map .control) ++
  (List.range 192).map .gpio

/-- R494, R504: is a ball that of a fused unit (R3). -/
def State.ballFused (s : State) : Ball → Bool
  | .rgmii p _ => s.portFused p
  | .phyReset p => s.portFused p
  | .can k _ => s.canFused k
  | _ => false

/-- The level of a control ball that a rule gives, by its place in R495 (the crystals aside): PWR_GOOD and RESET_N are high
once start-up has begun (R422), MOOR_N, SUPPLY_WARN_N (R413); TEST_EN is tied low; LOCKUP_N (R164) and SSP_ALERT_N (R278), which are
open-drain, where the device drives them low. -/
def State.controlLevel (s : State) (k : Nat) : Option Bool :=
  match k with
  | 0 => if s.hm.boot = 0 then none else some true
  | 1 => if s.hm.boot = 0 then none else some true
  | 2 => some (!s.moored)
  | 3 => if s.lockLow then some false else none
  | 4 => some (!(s.pwr.dip == 1 || s.pwr.dip == 2))
  | 17 => if s.sspAlertN then none else some false
  | 25 => some false
  | _ => none

/-- R494, R435: the level of a ball where a rule gives one: a fused unit's reads its pull-down, a moored output its level of R435, GPIO
its synchronised level (R382). Every other is the board's or a bus's. -/
def State.ballLevel (s : State) (b : Ball) : Option Bool :=
  if s.ballFused b then some false
  else
    match b with
    | .gpio g => some (Tbl.get (fun _ => false) s.tgp.inp g)
    | .control k => s.controlLevel k
    | .can _ 0 => if s.moored then some true else none
    | .lin _ 0 => if s.moored then some true else none
    | .phyReset _ => if s.moored then some false else none
    | _ => none

/-- R451: Capture-DR loads the boundary scan register: a ball whose level no rule gives reads a free value (log 76). -/
def State.captureCells (s : State) : State :=
  let cells := scanBalls.zipIdx.map (fun b => (s.ballLevel b.1).getD (Config.freeBool (s.free + b.2)))
  { s with dbg := { s.dbg with cells := cells }, free := s.free + scanBalls.length }

end Sys2Proof.Machine
end

