-- ==== Sys2Proof/Machine/Debug.lean ====
section
/-! DEFINITION. Debug (R306, R451 to R468): the session, freeze, release and step, the debug access engine with its two ports, and
the TAP. -/

namespace Sys2Proof.Machine

/-- Changes the debug state, the debug access engine. -/
def State.modDbg (s : State) (f : Dbg → Dbg) : State := { s with dbg := f s.dbg }
def State.modDae (s : State) (f : Dae → Dae) : State := s.modDbg (fun d => { d with dae := f d.dae })

/-- R459: DBT_AUTH_EVR. -/
def State.authRecord (s : State) (flags : Nat) : State := s.record 0x104C001004 flags (some 1153)

/-! ## Release (R463) -/

/-- R463, R383: a timer whose instant passed during the freeze records MISS when it matches. -/
def State.tmrMissed (s : State) : State :=
  (List.range 96).foldl (fun s t =>
    if s.tmrArmed t && decide (s.tmrCmp t < s.gtb) then
      { s with tgp := { s.tgp with miss := Tbl.set (fun _ => false) s.tgp.miss t true } } else s) s

/-- R466: the lower bound of every berth watchdog's window in progress is waived once. -/
def State.wdWaiveAll (s : State) : State :=
  (s.hm.berths.map Prod.fst).foldl (fun s b => s.modBerth b (fun x => { x with wdWaive := true })) s

/-- R463: the release of a frozen device that is not a reset. -/
def State.dbgRelease (s : State) : State :=
  if s.frozen then
    let s := { s with frozen := false, frzReq := false }
    let s := s.setReg 0x104C00100C (BitVec.ofNat 32 (min 0xFFFFFFFF ((s.time - s.dbg.frzAt) / 1000)))
    ((s.tmrMissed.wdWaiveAll.signalAll 9).encResume 0x0C)
  else s

/-! ## Freeze (R460) -/

/-- R460: has every thread stopped at a boundary with its store buffer drained. -/
def State.threadsStopped (s : State) : Bool :=
  s.thr.all (fun e => e.2.bun.isNone && e.2.mem == .idle && e.2.pat.isNone) && s.cores.all (fun e => e.2.sb.isEmpty)

/-- R460: a LIN controller that transmits sends recessive; what the frame took stays pending. -/
def State.linCut (s : State) (k : Nat) : State :=
  let x := s.busOf k
  match x.out with
  | none => s
  | some (ws, id, d) => s.setBus k { x with
      tx := ws ++ x.tx, gw := if d = [] then x.gw else Tbl.set (fun _ => []) x.gw id d, busy := false, out := none }

/-- R460: the acknowledgement. -/
def State.freezeDone (s : State) : State :=
  let s := s.encPause 0x0B
  let s := (s.thr.map Prod.fst).foldl (fun s t => s.modTh t Thread.unlink) s
  let s := (List.range 16).foldl State.linCut ((List.range 24).foldl State.canAbort s)
  let s := s.satReg16 0x104C001008
  { s with
    frozen := true,
    dbg := { s.dbg with frzAt := s.time, step := none, stepped := false, scan := decide (3 ≤ s.dbg.ir ∧ s.dbg.ir ≤ 5) } }

/-- R464: STEP. -/
def State.stepAsk (s : State) (g : Nat) : State :=
  if s.frozen then
    (s.modDbg (fun d => { d with stepTo := false })).dbgRelease.modDbg (fun d => { d with step := some g, stepped := false })
  else s

/-- R464: the stepped thread has issued; at the ready time of its bundle the freeze is requested. -/
def State.stepIssued (s : State) (t : Nat) : State :=
  if s.dbg.step = some t then s.modDbg (fun d => { d with stepped := true }) else s
def State.stepReady (s : State) (t : Nat) : State :=
  if s.dbg.step = some t && s.dbg.stepped then (s.modDbg (fun d => { d with step := none, stepped := false })).freezeAsk else s

/-! ## The session (R306, R445, R447) -/

/-- The credential that a lifecycle state asks for; none where debug never opens. -/
def State.credential (s : State) (q0 : W32) : Option (List Byte → Bool) :=
  match s.sec.lc with
  | 0 => some (fun c => c == List.replicate 32 0)
  | 1 => some (fun c => Config.hash 0x10 c == wordsBytes ((List.range 8).map (fun i => s.otp (0x31 + i))))
  | 4 => none
  | _ => some (fun c =>
    match s.dbg.nonce with
    | some n => c == Config.hmacSha256 (wordsBytes ((List.range 8).map (fun i => s.otp (0x39 + i)))) (n ++ leBytes 4 q0.toNat)
    | none => false)

/-- R306: does the lifecycle state use the nonce. -/
def State.nonceUsed (s : State) : State :=
  if s.sec.lc = 2 ∨ s.sec.lc = 3 then s.modDbg (fun d => { d with nonce := none }) else s

/-- R306: a credential refused: counted and recorded; the fourth in a row locks debug out (R459). -/
def State.credFails (s : State) : State :=
  let n := satInc 15 s.dbg.fails
  (s.modDbg (fun d => { d with fails := n })).authRecord (2 ^ 17 + b2n (n == 4) * 2 ^ 15)

/-- R306, R447, R449: the session opens at a level. -/
def State.sessionOpens (s : State) (level : Nat) : State :=
  let s := { s with dbgLevel := level, sec := { s.sec with dbgSeen := true }, dbg := { s.dbg with fails := 0 } }
  (s.certClear 0).authRecord (2 ^ 18)

/-- R306. -/
def execDbgChallenge (m : Fin 69) (s : State) : Out :=
  ok (s.harbour m.val 0x0801 (fun s _ =>
    let (n, s) := s.freshBytes 32
    .done (s.modDbg (fun d => { d with nonce := some n })) (bytesWords n)))

/-- R306. -/
def execDbgOpen (m : Fin 69) (s : State) : Out :=
  ok (s.harbour m.val 0x0802 (fun s q =>
    let level := (q.q 0).toNat
    if level ≠ 1 ∧ level ≠ 2 then .fail stDenied 8
    else match s.credential (q.q 0) with
      | none => .fail stDenied 5
      | some good =>
        if 4 ≤ s.dbg.fails then .fail stDenied 5
        else if good (wordsBytes (q.pay.drop 1)) && !s.sec.alarm then .done (s.nonceUsed.sessionOpens level) []
        else .wait (s.nonceUsed.credFails.answer q [r0 stDenied 7])))

/-- R306: a frozen device is released first. -/
def execDbgClose (m : Fin 69) (s : State) : Out :=
  ok (s.harbour m.val 0x0803 (fun s _ =>
    let s := s.dbgRelease
    .done (if s.dbgLevel = 0 then s else { s with dbgLevel := 0 }.authRecord (2 ^ 16)) []))

/-- R306. -/
def execDbgStatus (m : Fin 69) (s : State) : Out :=
  ok (s.harbour m.val 0x0804 (fun s _ =>
    .done s [BitVec.ofNat 32 (b2n (decide (1 ≤ s.dbgLevel)) + b2n (s.dbgLevel == 2) * 2 + b2n s.frozen * 4 + min 15 s.dbg.fails * 16)]))

/-- R306: 60 s after it was issued. -/
def execNonceLapse (s : State) : Out := ok (s.modDbg (fun d => { d with nonce := none }))

/-! ## The debug access engine (R453 to R459) -/

/-- What a DATA access reaches (R458). -/
inductive DaeTarget where
  | page | mem | reserved
deriving DecidableEq, Repr

/-- The target of an address. -/
def State.daeTarget (s : State) (pa : Nat) : DaeTarget :=
  match s.region pa with
  | .dram => .mem
  | .quay => .mem
  | .flash _ => .mem
  | .device => .page
  | _ => .reserved

/-- R458: is a DATA access refused. -/
def State.daeRefused (s : State) (pa : Nat) : Bool :=
  match s.daeTarget pa with
  | .mem => s.dbgLevel == 0 || !s.frozen
  | .reserved => s.dbgLevel == 0
  | .page => s.dbgLevel == 0 && decide (pa < 0x1080000000)

/-- The request of a DATA access (R458, R459). -/
def State.daeReq (s : State) (rd : Bool) : Req := { cls := .debug, peek := rd && !s.dbg.dae.act }

/-- The answer to the last request (R454). -/
def State.daeAck (s : State) (ack : Nat) (data : W32) : State := s.modDae (fun d => { d with ack := ack, data := data })

/-- A request refused: FAULT and DENY. -/
def State.daeDeny (s : State) : State := (s.modDae (fun d => { d with deny := true })).daeAck 9 0

/-- R455: a request to DAE_DATA: `w` is a write's data. -/
def State.daeData (s : State) (w : Option W32) : State :=
  let d := s.dbg.dae
  if d.busy.isSome then s.daeAck 6 0
  else if d.wrFail then (s.modDae (fun d => { d with wrFail := false })).daeAck 9 0
  else
    let start (s : State) : State :=
      if s.daeRefused d.addr then s.daeDeny
      else (s.modDae (fun d => { d with busy := some w })).daeAck (if w.isSome then 5 else 6) 0
    match d.result with
    | some r =>
      let s := s.modDae (fun d => { d with result := none })
      if w.isSome then start s
      else match r with
        | some v => s.daeAck 5 v
        | none => s.daeAck 9 0
    | none => start s

/-- DAE_STAT (R453). -/
def State.daeStat (s : State) : W32 :=
  let d := s.dbg.dae
  BitVec.ofNat 32 (s.dbgLevel * 2 ^ 30 + b2n s.frozen * 2 ^ 29 + b2n (s.frzReq || s.frozen) * 2 ^ 28 + b2n s.dbg.stepTo * 2 ^ 27 +
    b2n d.deny * 128 + b2n d.err * 64 + b2n d.off * 32 + b2n d.psn * 16)

/-- R453, R460, R463, R464: a write to DAE_FRZ. -/
def State.daeFrz (s : State) (w : W32) : State :=
  if s.dbgLevel = 0 then s.daeDeny
  else if bit w 0 && bit w 1 then s.daeAck 5 0
  else
    let s := if bit w 2 then s.stepAsk (bits w 13 4) else s
    let s := if bit w 1 then s.dbgRelease else s
    (if bit w 0 then (s.modDbg (fun d => { d with stepTo := false })).freezeAsk else s).daeAck 5 0

/-- R453, R417: a write to DAE_RST: a DBG reset, which the session and the engine outlive. -/
def State.daeRst (s : State) (w : W32) : State :=
  if s.dbgLevel = 0 then s.daeDeny
  else
    let s := s.daeAck 5 0
    if w = 0x00000D05 then s.deviceReset 5 0 0 false
    else if w = 0x00010D05 then (s.modDbg (fun d => { d with frzIsland := true })).deviceReset 5 0 0 false
    else s

/-- R453: a write to a register of the engine. -/
def State.daeWrite (s : State) (reg : Nat) (w : W32) : State :=
  match reg with
  | 1 =>
    (s.modDae (fun d =>
      let d := { d with inc := bit w 0, act := bit w 1 }
      if bit w 2 then { d with deny := false, err := false, off := false, psn := false } else d)).daeAck 5 0
  | 2 => (s.modDae (fun d => { d with addr := d.addr / 2 ^ 32 * 2 ^ 32 + w.toNat / 4 * 4 })).daeAck 5 0
  | 3 => (s.modDae (fun d => { d with addr := bits w 7 0 * 2 ^ 32 + d.addr % 2 ^ 32 })).daeAck 5 0
  | 4 => s.daeData (some w)
  | 6 => s.daeFrz w
  | 7 => s.daeRst w
  | _ => s.daeAck 5 0

/-- R453: a read of a register of the engine. -/
def State.daeRead (s : State) (reg : Nat) : State :=
  let d := s.dbg.dae
  match reg with
  | 0 => s.daeAck 5 0x0D000100
  | 1 => s.daeAck 5 (bitsW [d.inc, d.act])
  | 2 => s.daeAck 5 (BitVec.ofNat 32 d.addr)
  | 3 => s.daeAck 5 (BitVec.ofNat 32 (d.addr / 2 ^ 32))
  | 4 => s.daeData none
  | 5 => s.daeAck 5 s.daeStat
  | _ => s.daeAck 5 0

/-- R407: a request is a connection of the debug port; in S3 and S4 nothing else of it is served. -/
def State.daeAlive (s : State) : Bool :=
  match s.pwr.sleep with
  | .asleep k => decide (k ≤ 2)
  | _ => true

/-- R453 to R457: one request of a port. -/
def State.daeRequest (s : State) (sdp : Bool) (seq : Nat) (reg : Nat) (rd : Bool) (w : W32) (crcOk : Bool) : State :=
  let s := s.wake false 10 0
  if !s.daeAlive then s
  else if !crcOk then s.daeAck 0xC 0
  else if rd then s.daeRead reg
  else if sdp && s.dbg.dae.seq == some seq then s.daeAck 5 0
  else
    let s := s.daeWrite reg w
    if sdp && s.dbg.dae.ack == 5 then s.modDae (fun d => { d with seq := some seq }) else s

/-- R453: DAE_ADDR after a DATA access. -/
def Dae.ends (d : Dae) : Dae :=
  { d with busy := none, addr := if d.inc then (d.addr + 4) % 2 ^ 40 else d.addr }

/-- R455, R459: a read ends with its data, or fails. -/
def State.daeReadEnds (s : State) (r : Option W32) : State :=
  s.modDae (fun d => { d.ends with result := some r, err := d.err || r.isNone })

/-- R455: a write ends. -/
def State.daeWriteEnds (s : State) (good : Bool) : State :=
  s.modDae (fun d => { d.ends with wrFail := !good, err := d.err || !good })

/-- R459: a read of memory returns its data, poisoned or not. -/
def State.daeMemRead (s : State) (pa : Nat) : State :=
  let ((bs, p), s) := s.agentRead 8 7 pa 4 true
  (s.daeReadEnds (some (BitVec.ofNat 32 (leNat bs)))).modDae (fun d => { d with psn := d.psn || p.isSome })

/-- R24: does a peek read find the domain of its page off. -/
def State.daeOff (s : State) (pa : Nat) : Bool :=
  !s.dbg.dae.act && s.domain (domainOf pa) == .off && (match pageAt pa with
    | some p => !s.pageFused p
    | none => false)

/-- R455, R458, R459: the access in progress is performed and ends; one whose domain wakes goes on waiting. -/
def State.daeDone (s : State) : State :=
  let pa := s.dbg.dae.addr
  match s.dbg.dae.busy with
  | none => s
  | some none =>
    (match s.daeTarget pa with
     | .mem => s.unlessHeld (s.daeMemRead pa)
     | .reserved => s.daeReadEnds none
     | .page =>
       let off := s.daeOff pa
       match s.regAccess (s.daeReq true) pa none with
       | (.done v, s) => (s.daeReadEnds (some v)).modDae (fun d => { d with off := d.off || off })
       | (.error _, s) => s.daeReadEnds none
       | (.stall, s) => s.waitOn (domainOf pa) .debug)
  | some (some w) =>
    match s.daeTarget pa with
    | .mem =>
      if s.agentMay pa 4 true then s.unlessHeld ((s.agentWrite 8 pa (leBytes 4 w.toNat)).daeWriteEnds true) else s.daeWriteEnds false
    | .reserved => s.daeWriteEnds false
    | .page =>
      match s.regAccess (s.daeReq false) pa (some w) with
      | (.done _, s) => s.daeWriteEnds true
      | (.error _, s) => s.daeWriteEnds false
      | (.stall, s) => s.waitOn (domainOf pa) .debug

/-- R454, R456: a request on the SDP, or an Update-DR of the TAP under DBGACC. -/
def execDebugRequest (sdp : Bool) (seq : Fin 4) (reg : Fin 8) (rd : Bool) (w : W32) (crcOk : Bool) (s : State) : Out :=
  if sdp then ok (s.daeRequest true seq.val reg.val rd w crcOk)
  else if s.dbg.ir = 0x10 then
    let s := s.daeRequest false 0 reg.val rd w true
    ok (s.modDbg (fun d => { d with dr := BitVec.ofNat 36 (d.dae.data.toNat * 16 + d.dae.ack) }))
  else ok s

/-- R456. -/
def execSdpLineReset (s : State) : Out := ok (s.modDae (fun d => { d with seq := none }))

/-- R455. -/
def execDaeDataRead (s : State) : Out := ok (s.daeRequest false 0 4 true 0 true)

/-- R455. -/
def execDaeDataWrite (w : W32) (s : State) : Out := ok (s.daeRequest false 0 4 false w true)

/-- R455. -/
def execDaeAccessDone (s : State) : Out := ok s.daeDone

/-- R453: a write of CLRERR that leaves INC and ACT. -/
def execClrerr (s : State) : Out :=
  ok (s.daeRequest false 0 1 false (bitsW [s.dbg.dae.inc, s.dbg.dae.act, true]) true)

/-- R460: a write of FREEZE to DAE_FRZ. -/
def execFreeze (s : State) : Out := ok (s.daeRequest false 0 6 false 1 true)

/-- R463: a write of RELEASE to DAE_FRZ. -/
def execRelease (s : State) : Out := ok (s.daeRequest false 0 6 false 2 true)

/-- R464: a write of STEP to DAE_FRZ. -/
def execStep (g : Gtn) (s : State) : Out := ok (s.daeRequest false 0 6 false (BitVec.ofNat 32 (4 + g.val * 16)) true)

/-- R464: 1 ms after the release, the stepped thread has issued nothing. -/
def execStepTimeout (s : State) : Out :=
  whenOk (s.dbg.step.isSome && !s.dbg.stepped) s
    ((s.modDbg (fun d => { d with step := none })).freezeAsk.modDbg (fun d => { d with stepTo := true }))

/-- R460. -/
def execFreezeAck (s : State) : Out :=
  whenOk (s.frzReq && !s.frozen && s.pwr.sleep == .awake && s.threadsStopped) s s.freezeDone

/-- R453. -/
def execDbgResetRequest (s : State) : Out := ok (s.daeRequest false 0 7 false 0x00000D05 true)

/-- R453. -/
def execDbgResetFreezeRequest (s : State) : Out := ok (s.daeRequest false 0 7 false 0x00010D05 true)

/-- R467, R468: a write to DBT_CTX_HI. -/
def execDbtCtxHiWrite (rq : Req) (w : W32) (s : State) : Out := ok (s.regServe rq 0x104C003008 (some w))

/-! ## The TAP (R451, R452) -/

/-- R451, R452: Update-IR: the data register that Capture-DR loads, and the exit from scan. -/
def State.tapIr (s : State) (ir : Nat) (dr : BitVec 36) : State :=
  s.modDbg (fun d =>
    let scanned := decide (3 ≤ d.ir ∧ d.ir ≤ 5)
    let scans := decide (3 ≤ ir ∧ ir ≤ 5)
    { d with ir := ir, dr := dr, scan := d.scan && scans, scanExit := d.scanExit || (scanned && !scans) })

/-- R451, R452: an instruction that hands the balls to scan: it freezes the device first; without a session at level 2 it is
BYPASS. -/
def State.tapScan (s : State) (ir : Nat) : State :=
  if s.dbgLevel = 2 then ((s.tapIr ir 0).modDbg (fun d => { d with scan := d.scan || s.frozen })).freezeAsk else s.tapIr 0x1F 0

/-- R451. -/
def execIdcode (s : State) : Out := ok (s.tapIr 1 0x1094005F)

/-- R451, R494: the boundary scan register samples the balls. -/
def execSamplePreload (s : State) : Out := ok ((s.tapIr 2 0).captureCells)

/-- R451, R452, R494: the boundary scan register captures the balls and drives them once they are handed to it. -/
def execExtest (s : State) : Out :=
  let t := s.tapScan 3
  ok (if s.dbgLevel = 2 then t.captureCells else t)

/-- R451, R452. -/
def execClamp (s : State) : Out := ok (s.tapScan 4)

/-- R451, R452. -/
def execHighz (s : State) : Out := ok (s.tapScan 5)

/-- R454. -/
def execDbgacc (s : State) : Out := ok (s.tapIr 0x10 (BitVec.ofNat 36 (s.dbg.dae.data.toNat * 16 + s.dbg.dae.ack)))

/-- R451. -/
def execBypass (s : State) : Out := ok (s.tapIr 0x1F 0)

/-- R451: TRST_N or Test-Logic-Reset selects IDCODE. -/
def execTapReset (s : State) : Out := ok (s.tapIr 1 0x1094005F)

/-- R452: the DBG reset on leaving EXTEST, CLAMP or HIGHZ. -/
def execScanExitReset (s : State) : Out :=
  whenOk s.dbg.scanExit s (s.deviceReset 5 0 0 false)

end Sys2Proof.Machine
end

