-- ==== Sys2Proof/Machine/Transfers.lean ====
section
/-! DEFINITION. Transfers that others start: DMA descriptors (R384, R385) and the inbound requests of a PCI Express peer (R363,
R365, R367). -/

namespace Sys2Proof.Machine

/-! ## Accesses of an instance to a device region (R17, R19) -/

/-- Is a translated range one aligned word of a device region. -/
def State.devWord (s : State) (l : List (Nat × Nat)) : Option Nat :=
  match l with
  | [(pa, 4)] => if pa % 4 = 0 ∧ s.region pa = .device then some pa else none
  | _ => none

/-- R22: the domain that an access to a translated range waits for. -/
def State.wordAsleep (s : State) (l : List (Nat × Nat)) : Option Nat :=
  match s.devWord l with
  | some pa =>
    if (pageAt pa).isSome && !s.addrFused pa && s.domain (domainOf pa) != .on then some (domainOf pa) else none
  | none => none

/-- The request of an instance (R18). -/
def State.instReq (s : State) (i : Nat) : Req :=
  { cls := if i / 256 = 1 then .dma else if i / 256 = 5 then .pcie else if i / 256 = 2 then .gateway else .switch,
    berth := Fin.ofNat 64 (s.inst i).berth, src := i % 256 }

/-- How a move of an instance's data ends: bytes with the place of the first poisoned one, an error, or a stall (R22). -/
inductive Moved where
  | bytes (l : List Byte) (poison : Option Nat)
  | failed
  | stall
deriving DecidableEq, Repr

/-- Normal memory over physical pieces, read for an instance: the bytes and the first poisoned place. -/
def State.piecesRead (s : State) (i : Nat) : List (Nat × Nat) → (List Byte × Option Nat) × State
  | [] => (([], none), s)
  | (pa, n) :: r =>
    let ((b, p), s) := s.agentRead (instAgent i) (instClass i) pa n true
    let ((b', p'), s) := s.piecesRead i r
    ((b ++ b', (p.map (fun a => a - pa)).or (p'.map (fun a => a + n))), s)

/-- A translated range is read: memory, or one word of a device. -/
def State.readRange (s : State) (i : Nat) (l : List (Nat × Nat)) : Moved × State :=
  match s.devWord l with
  | some pa =>
    (match s.regAccess (s.instReq i) pa none with
     | (.done v, s) => (.bytes (leBytes 4 v.toNat) none, s)
     | (.error _, s) => (.failed, s)
     | (.stall, s) => (.stall, s))
  | none =>
    if l.any (fun c => !s.agentMay c.1 c.2 false) || s.agentDead (instAgent i) then (.failed, s)
    else
      let ((b, p), s) := s.piecesRead i l
      (.bytes b p, s)

/-- A translated range is written. -/
def State.writeRange (s : State) (i : Nat) (l : List (Nat × Nat)) (bs : List Byte) : Moved × State :=
  match s.devWord l with
  | some pa =>
    (match s.regAccess (s.instReq i) pa (some (BitVec.ofNat 32 (leNat bs))) with
     | (.done _, s) => (.bytes [] none, s)
     | (.error _, s) => (.failed, s)
     | (.stall, s) => (.stall, s))
  | none =>
    if l.any (fun c => !s.agentMay c.1 c.2 true) || s.agentDead (instAgent i) then (.failed, s)
    else (.bytes [] none, s.agentPut (instAgent i) l bs)

/-! ## DMA (R384, R385) -/

/-- R385: a descriptor. -/
structure DmaDesc where
  src : Nat
  dst : Nat
  len : Nat
  op : Nat
  irq : Bool
deriving DecidableEq, Repr

/-- Its bytes (R385). -/
def dmaDesc (b : List Byte) : DmaDesc :=
  { src := leNat (b.take 8), dst := leNat ((b.drop 8).take 8), len := leNat ((b.drop 16).take 3),
    op := leNat ((b.drop 20).take 1) % 4, irq := Nat.testBit (leNat ((b.drop 20).take 2)) 8 }

/-- R385, R142: the bytes of a fill. -/
def fillData (d : DmaDesc) : List Byte :=
  (List.range d.len).map (fun i => BitVec.ofNat 8 (d.src / 2 ^ (8 * ((d.dst % 2 ^ 40 + i) % 4))))

/-- R142, R230: the part of a copy that a poisoned source leaves written: how many bytes passed before the stop is open (log 5); a copy
in descending order has passed those above the poisoned word. -/
def State.cutCopy (s : State) (i slot : Nat) (d : DmaDesc) (lw : List (Nat × Nat)) (b : List Byte) (p : Nat) : State :=
  let s := s.instError i fLost slot false (d.src % 2 ^ 40 + p)
  let (k, s) := s.fresh 24
  if d.src % 2 ^ 40 < d.dst % 2 ^ 40 ∧ d.dst % 2 ^ 40 < d.src % 2 ^ 40 + d.len then s
  else (s.writeRange i lw (b.take (k.toNat % (p + 1)))).2

/-- R385: the transfer of a descriptor: its STATUS, or none while a device's domain wakes. Every page of both ranges is translated
first (R185), and both blocks are awake before a byte moves, so that no register is read twice (R20); `x` is how the transfer waits
(R22), or `late` that it has waited too long (R23). -/
def State.dmaMove (s : State) (i slot : Nat) (d : DmaDesc) (x : Wait) (late : Bool) : Option Nat × State :=
  match s.instRange i (d.dst % 2 ^ 40) d.len slot true with
  | (none, s) => (some 3, s)
  | (some lw, s) =>
    let put (s : State) (b : List Byte) : Option Nat × State :=
      match s.writeRange i lw b with
      | (.bytes _ _, s) => (some 0, s)
      | (.failed, s) => (some 3, s.instError i fBus slot true (d.dst % 2 ^ 40))
      | (.stall, s) => (none, s)
    if d.op = 1 then
      match s.wordAsleep lw with
      | some k => if late then (some 3, s.instError i fBus slot true (d.dst % 2 ^ 40)) else (none, s.waitOn k x)
      | none => put s (fillData d)
    else match s.instRange i (d.src % 2 ^ 40) d.len slot false with
      | (none, s) => (some 3, s)
      | (some lr, s) =>
        match (s.wordAsleep lr).or (s.wordAsleep lw) with
        | some k =>
          if late then
            let src := (s.wordAsleep lr).isSome
            (some 3, s.instError i fBus slot (!src) ((if src then d.src else d.dst) % 2 ^ 40))
          else (none, s.waitOn k x)
        | none =>
          match s.readRange i lr with
          | (.bytes b none, s) => put s b
          | (.bytes b (some p), s) => (some 3, s.cutCopy i slot d lw b p)
          | (.failed, s) => (some 3, s.instError i fBus slot false (d.src % 2 ^ 40))
          | (.stall, s) => (none, s)

/-- R385, R356: the end of the descriptor at HEAD: write-back, HEAD, then the event. -/
def State.dmaEnds (s : State) (g : Ring) (st : Nat) (irq : Bool) : State :=
  let s := (s.instWrite g.i (s.ringAddr g + 28) (leBytes 4 (2 ^ 31 + st * 2 ^ 28)) (s.ringHead g)).2.ringNext g
  if irq then s.instDone g.i 0xA0 else s

/-- R385: the set completes the descriptor at the head of a channel; `waited`: its transfer has waited (R22, R320). -/
def State.dmaDone (s : State) (set c : Nat) (late : Bool := false) (waited : Bool := false) : State :=
  let g := dmaRing (256 + set) c
  if s.frozen || !s.ringTakes g waited || s.ringHead g == s.ringTail g then s
  else if s.domain 19 ≠ .on then s.wakeDomain 19
  else match s.instRead g.i (s.ringAddr g) 32 (s.ringHead g) with
    | (none, s) => s.ringNext g
    | (some b, s) =>
      let d := dmaDesc b
      if d.len = 0 then s.dmaEnds g 4 d.irq
      else if 2 ≤ d.op then s.dmaEnds g 5 d.irq
      else match s.dmaMove g.i (s.ringHead g) d (.dma set c) late with
        | (some st, s) => s.dmaEnds g st d.irq
        | (none, s) => s

/-- R384: every write is a doorbell. -/
def execDmaChTailWrite (rq : Req) (i : Fin 32) (c : Fin 4) (w : W32) (s : State) : Out :=
  let g := dmaRing (256 + i.val) c.val
  ok (s.instAccess rq (g.reg 3) (256 + i.val) (some w) (fun s => s.ringTailWrite g w))

/-- R385. -/
def execDmaDescriptorDone (i : Fin 32) (c : Fin 4) (s : State) : Out := ok (s.unlessHeld (s.dmaDone i.val c.val))

/-! ## Inbound requests (R363, R365, R367) -/

/-- The completion given to the peer. -/
def State.pceCpl (s : State) (st : Nat) (ep : Bool) (b : List Byte) : State := s.modPcie (fun p => { p with cpl := some (st, ep, b) })

/-- Does an endpoint (2) or a root port (1) have its link up. -/
def State.pceUp (s : State) (role : Nat) : Bool :=
  s.domain 18 == .on && !s.frozen && [0, 1].any (fun c => s.pceRole c == role && (s.pceLink c).1 != 0)

/-- R185, R367: a request that does not succeed: a read gets status `st`, a write is dropped and logged. -/
def State.pceFails (s : State) (wr : Bool) (st : Nat) : State := if wr then s.aer (2 ^ 17) else s.pceCpl st false []

/-- R367: a request with EP set or a bad ECRC: a write is dropped with RXPSN; a read of bad ECRC gets nothing but the log. -/
def State.pceBad (s : State) (wr : Bool) : State := s.aer (if wr then 2 ^ 17 + 2 ^ 14 else 2 ^ 17 + 2 ^ 15)

/-- R22: an inbound request waits for a domain. -/
def State.pceStalls (s : State) (r : PcieReq) (l : List (Nat × Nat)) : State :=
  s.waitOn ((s.wordAsleep l).getD 19) (.pcie r)

/-- An inbound request `r` on the translated range `l` of instance `i`. -/
def State.pceServe (s : State) (r : PcieReq) (i n : Nat) (wr : Option (List Byte)) (l : List (Nat × Nat)) : State :=
  match wr with
  | some b =>
    (match s.writeRange i l (fit n b) with
     | (.bytes _ _, s) => s
     | (.failed, s) => s.pceFails true 4
     | (.stall, s) => s.pceStalls r l)
  | none =>
    match s.readRange i l with
    | (.bytes b p, s) => s.pceCpl 0 p.isSome b
    | (.failed, s) => s.pceFails false 4
    | (.stall, s) => s.pceStalls r l

/-- R363, R320: a request to BAR0 of a function, `waited` when it was accepted before: to its IO context at PCE_FN_WIN + o. -/
def State.pceBar0 (s : State) (r : PcieReq) (f off n : Nat) (wr : Option (List Byte)) (waited : Bool) : State :=
  let i := 1280 + f
  let x := s.inst i
  if !(x.on && !x.rst || waited && s.instDrains i) then s.pceFails wr.isSome 1
  else if s.domain 19 ≠ .on then s.waitOn 19 (.pcie r)
  else
    let pg := instPage i
    let addr := bits (s.reg (pg + 0x24)) 7 0 * 2 ^ 32 + bits (s.reg (pg + 0x20)) 31 16 * 2 ^ 16 + off
    match s.instRange i addr n 0 wr.isSome with
    | (none, s) => s.pceFails wr.isSome 1
    | (some l, s) => s.pceServe r i n wr l

/-- R278, R363: BAR2, the host mailbox page; only one aligned word is an access to it (R19). -/
def State.pceBar2 (s : State) (off n : Nat) (wr : Option (List Byte)) : State :=
  match s.pceHost with
  | none => s.pceFails wr.isSome 1
  | some h =>
    if n ≠ 4 ∨ off % 4 ≠ 0 then s.pceFails wr.isSome 4
    else match wr with
      | some b => s.mbxWrite (64 + h) (off % 0x400) none (BitVec.ofNat 32 (leNat (fit 4 b)))
      | none => s.pceCpl 0 false (leBytes 4 (s.mbxRead (64 + h) (off % 0x400)).toNat)

/-- The mask bits of a function's vectors; all masked at first (PCI Express). -/
def State.pceMasks (s : State) (f : Nat) : BitVec 16 := Tbl.get (fun _ => (0xFFFF : BitVec 16)) s.pcie.vmask f

/-- A word of the MSI-X table or the PBA of a function. -/
def State.pceTblWord (s : State) (f off : Nat) : Nat :=
  let v := Tbl.get (fun _ => (0, 0)) s.pcie.vec (16 * f + off / 16)
  if off < 0x100 then
    (match off % 16 / 4 with
     | 0 => v.1 % 2 ^ 32
     | 1 => v.1 / 2 ^ 32
     | 2 => v.2
     | _ => b2n ((s.pceMasks f).getLsbD (off / 16)))
  else if 0x1000 ≤ off ∧ off < 0x1004 then (Tbl.get (fun _ => (0 : BitVec 16)) s.pcie.pba f).toNat
  else 0

/-- R363: BAR4, the MSI-X table and the PBA. -/
def State.pceBar4 (s : State) (f off : Nat) (wr : Option W32) : State :=
  match wr with
  | none => s.pceCpl 0 false (leBytes 4 (s.pceTblWord f (off / 4 * 4)))
  | some w =>
    if 0x100 ≤ off then s
    else
      let v := off / 16
      let e := Tbl.get (fun _ => (0, 0)) s.pcie.vec (16 * f + v)
      let put := fun (e : Nat × Nat) => s.modPcie (fun p => { p with vec := Tbl.set (fun _ => (0, 0)) p.vec (16 * f + v) e })
      match off % 16 / 4 with
      | 0 => put (e.1 / 2 ^ 32 * 2 ^ 32 + w.toNat, e.2)
      | 1 => put (w.toNat * 2 ^ 32 + e.1 % 2 ^ 32, e.2)
      | 2 => put (e.1, w.toNat)
      | _ =>
        (s.modPcie (fun p =>
          { p with vmask := Tbl.set (fun _ => (0xFFFF : BitVec 16)) p.vmask f (putBit (s.pceMasks f) v (bit w 0)) })).pceSend f v

/-- R365: the bus address that a root port takes as MSI. -/
def State.pceMsiAddr (s : State) : Option Nat :=
  let lo := s.reg 0x1048001010
  if bit lo 0 then some ((s.reg 0x1048001014).toNat * 2 ^ 32 + bits lo 31 2 * 4) else none

/-- R365, R187: an inbound request of a root port, through IO context 255 with berth 0's stage 2. -/
def State.pceRootReq (s : State) (r : PcieReq) (addr n : Nat) (wr : Option (List Byte)) : State :=
  match wr, s.pceMsiAddr == some addr && n == 4 && decide (addr % 4 = 0) with
  | some b, true => s.signal (784 + 2 * (leNat b % 16))
  | _, _ =>
    if s.domain 19 ≠ .on then s.waitOn 19 (.pcie r)
    else match s.ioRange 3 255 0 addr n wr.isSome with
      | (.error (f, a), s) => (s.iotFail 6 0 255 f wr.isSome a).pceFails wr.isSome 1
      | (.ok l, s) => s.pceServe r 1535 n wr l

/-- R363, R365: what a peer asks. -/
def State.pceInbound (s : State) (r : PcieReq) (waited : Bool := false) : State :=
  match r with
  | .bar0 f off n wr bad =>
    if !s.pceUp 2 then s
    else if bad then s.pceBad wr.isSome
    else if n = 0 ∨ 2 ^ s.hm.man.pcieBar0 < off + n ∨ 4096 < n then s.pceFails wr.isSome 1
    else s.pceBar0 r f.val off n wr waited
  | .bar2 off n wr => if s.pceUp 2 then s.pceBar2 off n wr else s
  | .bar4 f off wr => if s.pceUp 2 then s.pceBar4 f.val off wr else s
  | .root addr n wr bad =>
    if !s.pceUp 1 then s
    else if bad then s.pceBad wr.isSome
    else if n = 0 ∨ 4096 < n then s.pceFails wr.isSome 1
    else s.pceRootReq r addr n wr
  | .config f bme msix mask flr =>
    if !s.pceUp 2 then s
    else if flr then s.functionReset f.val
    else s.modPcie (fun p =>
      { p with bme := putBit p.bme f.val bme, msix := putBit p.msix f.val msix, fmask := putBit p.fmask f.val mask })

/-- R128: a request that would break a link's hold waits. -/
def State.pceAsk (s : State) (r : PcieReq) (waited : Bool := false) : State :=
  let s' := s.pceInbound r waited
  if s.linkBroken s' then { s with waits := s.waits ++ [(24, .pcie r)] } else s'

/-- R363, R365, R367. -/
def execPcieInboundRequest (r : PcieReq) (s : State) : Out := ok (s.pceAsk r)

end Sys2Proof.Machine
end

