-- ==== Sys2Proof/Machine/Memory.lean ====
section
/-! DEFINITION. The memory requests of threads (chapters 05, 07, 08): checks in the order of R174, loads against buffered stores,
stores, linked pairs, atomics, cache maintenance, device accesses, and what each waits for. -/

namespace Sys2Proof.Machine

/-! ## What a request asks for -/

/-- The bytes of a load (R117). -/
def LdKind.size : LdKind → Nat
  | .b => 1 | .bu => 1 | .h => 2 | .hu => 2 | .w => 4 | .wu => 4 | .x => 8 | .d => 8

/-- The bytes of a request; a maintenance operation names one byte of its line. -/
def MOp.size : MOp → Nat
  | .load k _ => k.size
  | .loadAcq e _ => if e then 8 else 4
  | .loadLink e _ => if e then 8 else 4
  | .store d => d.length
  | .storeRel d => d.length
  | .stc e _ _ => if e then 8 else 4
  | .amo _ e _ _ _ => if e then 8 else 4
  | .cl _ => 1
  | .iflush => 1

/-- The permissions of a request (R173, R212). -/
def MOp.acc : MOp → Acc
  | .store _ => .write
  | .storeRel _ => .write
  | .stc _ _ _ => .write
  | .amo _ _ _ _ _ => .both
  | .cl .zero => .write
  | _ => .read

/-- Does XCA.DETAIL show W for a request (R152). -/
def MOp.wr (o : MOp) : Bool := o.acc != .read

/-- Must a request be naturally aligned (R122). -/
def MOp.aligned : MOp → Bool
  | .loadAcq _ _ => true
  | .loadLink _ _ => true
  | .storeRel _ => true
  | .stc _ _ _ => true
  | .amo _ _ _ _ _ => true
  | _ => false

/-- Is a request a linked or atomic one (R129, R131). -/
def MOp.linked : MOp → Bool
  | .loadLink _ _ => true
  | .stc _ _ _ => true
  | .amo _ _ _ _ _ => true
  | _ => false

/-- Is a request an STC. -/
def MOp.isStc : MOp → Bool
  | .stc _ _ _ => true
  | _ => false

/-- R151, R152: Alignment. -/
def alignCause (wr : Bool) (n : Nat) (xra : Word) (va : Word) : Cause :=
  { cls := 4, detail := b2n wr * 2 ^ 7 + n.log2, target := 1, level := some 15, xra := xra, xfa := va }

/-- What the translation of an access finds: a page to be walked, after the pieces `l`; a fault; every piece. -/
inductive Resolved where
  | walk (va : Nat) (l : List PPiece)
  | fail (c : Cause)
  | found (l : List PPiece)
deriving DecidableEq, Repr

/-- R123, R174: each piece is translated and checked, the lower half first. -/
def State.resolve (t : Nat) (o : MOp) (xra : Word) : List Piece → State → List PPiece → Resolved × State
  | [], s, acc => (.found acc, s)
  | k :: r, s, acc =>
    match s.translate t k.va o.acc with
    | (.miss, s) => (.walk k.va acc, s)
    | (.fail f, s) => (.fail (failCause f o.wr false xra k.va), s)
    | (.hit pa via, s) => State.resolve t o xra r s (acc ++ [⟨k.va, pa, k.len, via⟩])

/-- The region rules for one piece of an access (R15, R19, R123, R129, R131, R213): none where it may go on. `whole` says that the
access is one aligned word. -/
def regionCause (reg : Region) (o : MOp) (whole : Bool) (xra : Word) (va : Nat) : Option Cause :=
  let dev : Option Cause :=
    if o.linked then some (busCause o.wr false 3 xra va)
    else match o with
      | .cl .zero => some (busCause true false 4 xra va)
      | .cl _ => none
      | .iflush => none
      | _ => if whole then none else some (busCause o.wr false 4 xra va)
  match reg with
  | .dram => none
  | .quay => none
  | .flash _ => if o.linked then some (busCause o.wr false 3 xra va) else if o.wr then some (busCause true false 1 xra va) else none
  | .device => dev
  | .pcie => dev
  | .absent =>
    match o with
    | .iflush => none
    | _ => some (busCause o.wr false 0 xra va)

/-- The first piece of an access that a region rule refuses. -/
def State.regionFail (s : State) (o : MOp) (xra : Word) (l : List PPiece) : Option Cause :=
  let whole := match l with
    | [p] => p.len == 4 && p.pa % 4 == 0
    | _ => false
  l.findSome? (fun p => regionCause (s.region p.pa) o whole xra p.va)

/-! ## Ends of a request -/

/-- How far a request has come when it is tried: at its issue, after older entries have drained, after its walk, when its data may have
returned. -/
inductive Try where
  | fresh | again | walked | returned
deriving DecidableEq, Repr

/-- What a thread waits for. -/
def State.setMem (s : State) (t : Nat) (m : MemWait) : State := s.modTh t (fun x => { x with mem := m })

/-- The ready time of a load (R41): 8 cycles after it reads the L1D, 4 where it was launched early (`el`); 2 cycles after its data return,
where the L1D or a table walk made it wait. -/
def State.loadReady (s : State) (t : Nat) (k : Try) (el split : Bool) : Nat :=
  let b := s.bunOf t
  match k with
  | .fresh => b.issued + (if el then 4 else 8)
  | .again => s.cycleOf t + 8
  | .walked => Nat.max (b.issued + 8) (s.cycleOf t + 2)
  | .returned => Nat.max (if split then b.issued + 8 else 0) (s.cycleOf t + 2)

/-- R482: a second-level TLB miss, and a walk that starts where no walk of its page is under way. -/
def State.walkPerf (s : State) (t : Nat) : State :=
  let s := s.l2Perf (clusterOf t) 0x105
  match s.walks.find? (fun w => w.gtn == t) with
  | some w => if (s.walks.filter (fun v => clusterOf v.gtn == clusterOf t && v.key == w.key)).length = 1 then s.l2Perf (clusterOf t) 0x106 else s
  | none => s

/-- A performance event of a thread's core (R482). -/
def State.corePerf (s : State) (t code : Nat) : State := s.perfEvent (coreOf t) code 1 (some (t, (s.th t).berth))

/-- What a sampled issue notes of its load (R489): bits of word 1. -/
def State.smpNote (s : State) (t k : Nat) : State :=
  s.modTh t (fun x => match x.bun with
    | some b => { x with bun := some { b with seen := Nat.lor b.seen (2 ^ k) } }
    | none => x)

/-- R117, R120: the value of a load from its bytes; a pair's odd register in the second place. -/
def loadValue (k : LdKind) (bs : List Byte) : Word × Word :=
  let n := leNat bs
  match k with
  | .b => (signExtFrom 8 (BitVec.ofNat 36 n), 0)
  | .h => (signExtFrom 16 (BitVec.ofNat 36 n), 0)
  | .w => (signExtFrom 32 (BitVec.ofNat 36 n), 0)
  | .d => (BitVec.ofNat 36 (n % 2 ^ 32), signExtFrom 32 (BitVec.ofNat 36 (n / 2 ^ 32)))
  | _ => (BitVec.ofNat 36 n, 0)

/-- A load writes its destination (R120). -/
def State.loadWrites (s : State) (t : Nat) (k : LdKind) (rd : Nat) (bs : List Byte) : State :=
  let v := loadValue k bs
  match k with
  | .d => s.modTh t (fun x => (x.wrReg 2 rd v.1).wrReg 2 (rd + 1) v.2)
  | _ => s.modTh t (fun x => x.wrReg 2 rd v.1)

/-- A request whose effect cannot be taken back meets the fault of the bundle's X syllable first (R74). -/
def State.orXFault (s : State) (t : Nat) (f : State → State) : State :=
  match (s.bunOf t).xFault with
  | some c => s.fault t c
  | none => f s

/-! ## Loads (R120, R123, R200 to R202) -/

/-- What a piece of a load meets. -/
inductive LRes where
  | bytes (l : List Byte) (fwd : Bool)
  | stores
  | line
  | lost (va : Nat)
deriving DecidableEq, Repr

/-- Does a memory-mapped read of flash wait for its port (R380). -/
def State.flashWaits (s : State) (pa : Nat) : Bool :=
  match s.region pa with
  | .flash p => s.flashBusy p
  | _ => false

/-- One piece of a load: forwarded (R200), held behind an overlapping entry (R201), or read; `fwd` says that it may be forwarded, `ret`
that data of an L1D miss may have returned, `own` that the line must be held as for a store (R194). -/
def State.pieceLoad (s : State) (t : Nat) (fwd ret own : Bool) (p : PPiece) : LRes × State :=
  let line := p.pa / 64
  let cl := clusterOf t
  let core := coreOf t
  let older := (s.sbReal t).filter (fun e => e.overlaps p.pa p.len)
  match older.getLast? with
  | some e => if fwd && e.coversAll p.pa p.len then (.bytes (e.take p.pa p.len) true, s) else (.stores, s)
  | none =>
    if !(if own then s.writable cl line else s.readable cl line) then (.line, if own then s.wantWrite cl line else s.wantRead cl line)
    else
      let s := s.l1dCheck core p.pa p.len
      if (!ret && !s.inL1d core line) || s.flashWaits p.pa then (.line, s)
      else match s.coreRead core p.pa p.len with
        | (false, s) => (.line, s)
        | (true, s) =>
          let s := if own then s.markM cl line else s
          match s.firstPoison p.pa p.len with
          | some a => (.lost (p.va + (a - p.pa)), s)
          | none => (.bytes (s.coreBytes cl p.pa p.len) false, s)

/-- The early launch that serves a load of this line (R57). -/
def State.launchFor (s : State) (t line : Nat) : Option Launch := (s.bunOf t).el.filter (fun l => l.line == line)

/-- A load of a normal region, one piece: the lower half of a split load, whose upper half is read when the thread looks again (R123, R124),
or the last piece; `fin` is what it does with its bytes. -/
def State.loadNormal (s : State) (t : Nat) (r : MReq) (k : Try) (fwd own : Bool) (fin : State → List Byte → State) : State :=
  let split := decide (1 < r.found.length)
  match if r.got = [] then r.found else r.found.drop 1 with
  | [] => s
  | p :: rest =>
    let el := if k = .fresh ∧ !split ∧ fwd then s.launchFor t (p.pa / 64) else none
    let sent := r.asked || (match el with
      | some l => !l.back
      | none => false)
    match s.pieceLoad t fwd (k == .returned && r.asked) own p with
    | (.stores, s) => ((s.setMem t (.stores { r with asked := false })).corePerf t 0x018).smpNote t 25
    | (.line, s) =>
      let s := s.setMem t (.line { r with asked := true })
      if sent then s else ((s.corePerf t 0x011).smpNote t 19).l2Perf (clusterOf t) 0x101
    | (.lost a, s) => s.faultLate t (lostCause false false (s.bunOf t).addr (a % 2 ^ 36))
    | (.bytes bs f, s) =>
      let s := if f then (s.corePerf t 0x019).smpNote t 24 else s
      if rest = [] then (fin s (r.got ++ bs)).readyBy t (s.loadReady t k ((el.map Launch.back).getD false && !f) split)
      else s.setMem t (.line { r with got := bs, asked := false })

/-- R125: the link that an LDL sets. -/
def State.setLink (s : State) (t pa : Nat) (ext : Bool) : State :=
  s.modTh t (fun x => { x with link := some { pa := pa, ext := ext, window := true } })

/-! ## Stores, linked stores, atomics -/

/-- A store of a normal region enters the store buffer (R40, R121, R196). -/
def State.storeNormal (s : State) (t : Nat) (r : MReq) (bs : List Byte) : State :=
  if s.sbRoom t r.found.length (s.bunOf t).wake then State.pushPieces t false r.found bs s
  else (s.setMem t (.stores r)).corePerf t 0x017

/-- R126: an STC on its checked address. -/
def State.stcNormal (s : State) (t : Nat) (r : MReq) (p : PPiece) (ext : Bool) (bs : List Byte) (rb : Nat) : State :=
  let good := match (s.th t).link with
    | some l => l.pa == p.pa && l.ext == ext
    | none => false
  let win := match (s.th t).link with
    | some l => l.window
    | none => false
  if !good then ((s.modTh t (fun x => x.unlink.wrReg 2 rb 1)).corePerf t 0x01A)
  else if s.sbRoom t 1 (s.bunOf t).wake then
    let s := (s.modTh t (fun x => x.unlink.wrReg 2 rb 0)).sbPush t .store p.pa bs p.via
    s.modCore (coreOf t) (fun k => { k with
      sb := k.sb.map (fun e => if e.gtn = t ∧ e.order + 1 = (s.th t).sbOrder then { e with stc := win } else e) })
  else s.setMem t (.stores r)

/-- R130: the old value that an AMO returns, and the bytes it stores. -/
def amoBytes (op : AmoOp) (ext : Bool) (old : List Byte) (b d : Word) : Word × List Byte :=
  if ext then
    let o : Word := BitVec.ofNat 36 (leNat old)
    (o, leBytes 8 (extSlot (amoResult op o b d)).toNat)
  else
    let o : W32 := BitVec.ofNat 32 (leNat old)
    (signExtFrom 32 (o.setWidth 36), leBytes 4 (amoResult op o (b.setWidth 32) (d.setWidth 32)).toNat)

/-- R130: an AMO on its checked address. -/
def State.amoNormal (s : State) (t : Nat) (r : MReq) (p : PPiece) (k : Try) (op : AmoOp) (ext : Bool) (rd : Nat) (b d : Word) : State :=
  let line := p.pa / 64
  if (s.sbReal t).any (fun e => e.pa / 64 == line) || s.marked t then s.setMem t (.stores r)
  else if k ≠ .returned ∨ !s.writable (clusterOf t) line then (s.wantWrite (clusterOf t) line).setMem t (.line r)
  else
    let s := (s.copyRead (1 + clusterOf t) line (coreOf t) 0 false (s.aline (clusterOf t) line).st.only).2
    match s.firstPoison p.pa p.len with
    | some a => s.faultLate t (lostCause true false (s.bunOf t).addr ((p.va + (a - p.pa)) % 2 ^ 36))
    | none => s.orXFault t (fun s =>
      let v := amoBytes op ext (s.rdBytes p.pa p.len) b d
      ((s.perform t p.pa v.2).modTh t (fun x => x.wrReg 2 rd v.1)).readyBy t (s.cycleOf t + 2))

/-! ## Device accesses (R20 to R23, R206) -/

/-- A checked access of a thread to one word of a device region: it is sent, and waits for its response. A block that is asleep is
woken (R22). -/
def State.deviceSend (s : State) (t : Nat) (r : MReq) (pa : Nat) : State :=
  let all := match r.op with
    | .storeRel _ => true
    | _ => false
  if s.marked t || (all && !(s.sbReal t).isEmpty) then s.setMem t (.stores r)
  else match s.region pa with
    | .pcie => s.setMem t (.device r pa (if (s.outWindow pa).isSome then none else some 0) true)
    | _ =>
      let s := match pageAt pa with
        | some p => if s.pageFused p then s else s.wakeDomain (domainOf pa)
        | none => s
      s.setMem t (.device r pa none false)

/-- R21, R41: the response of a device access reaches the core. -/
def State.deviceEnds (s : State) (t : Nat) (r : MReq) (res : RegRes) : State :=
  let s := s.setMem t .idle
  match res with
  | .done v =>
    let bs := leBytes 4 v.toNat
    (match r.op with
     | .load k rd => s.loadWrites t k rd bs
     | .loadAcq _ rd => s.loadWrites t .w rd bs
     | _ => s).readyBy t (s.cycleOf t + 2)
  | .error n => s.faultLate t (busCause r.op.wr false n (s.bunOf t).addr r.va.toNat)
  | .stall => s

/-- The word that a device access stores. -/
def MReq.word (r : MReq) : Option W32 :=
  match r.op with
  | .store d => some (BitVec.ofNat 32 (leNat d))
  | .storeRel d => some (BitVec.ofNat 32 (leNat d))
  | _ => none

/-! ## Cache maintenance (R212 to R214) -/

/-- A maintenance operation of a line that occupies a store buffer entry. -/
def State.clNormal (s : State) (t : Nat) (r : MReq) (op : SbOp) (p : PPiece) : State :=
  if s.sbRoom t 1 (s.bunOf t).wake then
    (if op = .zero then s.ownUnlink t p.pa else s).sbPush t op (p.pa / 64 * 64) [] p.via
  else (s.setMem t (.stores r)).corePerf t 0x017

/-- R214: a prefetch of a line: at once where the L2 holds it, else when the line that is asked for comes. CL.PREFW (`w`) acts as a store
(R194): a line in E moves to M. -/
def State.prefLine (s : State) (t line : Nat) (w : Bool) : State :=
  let a := clusterOf t
  let s := s.modCoh (fun h => { h with prefs := h.prefs ++ [{ gtn := t, line := line, w := w }] })
  if w then (if s.writable a line then (s.markM a line).prefArrive a line else s.wantWrite a line)
  else if s.readable a line then (s.agentUse a line).prefArrive a line else s.wantRead a line

/-- R214: CL.PREF and CL.PREFW; what is not translated by a TLB is not fetched. -/
def State.prefetch (s : State) (t : Nat) (va : Word) (w : Bool) : State :=
  match s.translate t va.toNat .read, s.translate t va.toNat (if w then .write else .read) with
  | (.hit pa _, s1), (res, s2) =>
    (match s.region pa, res with
     | .flash _, _ => s1.prefLine t (pa / 64) false
     | .dram, .hit _ _ => s2.prefLine t (pa / 64) w
     | .quay, .hit _ _ => s2.prefLine t (pa / 64) w
     | _, _ => s1)
  | (_, s1), (.hit pa _, s2) =>
    (match s.region pa with
     | .dram => s2.prefLine t (pa / 64) w
     | .quay => s2.prefLine t (pa / 64) w
     | _ => s1)
  | (_, s1), _ => s1

/-! ## IFLUSH (R139) -/

/-- IFLUSH of a line that holds data: it waits for the thread's own stores to it, then for the cores. -/
def State.iflushGo (s : State) (t line : Nat) : State :=
  if (s.sbReal t).any (fun e => e.pa / 64 == line) then s.setMem t (.iflushStores line) else s.setMem t (.iflushAck line)

/-! ## One try of a request -/

/-- The checked request goes on. -/
def State.memGo (s : State) (t : Nat) (r : MReq) (k : Try) : State :=
  match r.found with
  | [] => s
  | p :: _ =>
    let reg := s.region p.pa
    let dev := reg == .device || reg == .pcie
    match r.op with
    | .load kd rd => if dev then s.deviceSend t r p.pa else s.loadNormal t r k true false (fun s bs => s.loadWrites t kd rd bs)
    | .loadAcq e rd =>
      if dev then s.deviceSend t r p.pa
      else s.loadNormal t r k false false (fun s bs => s.loadWrites t (if e then .x else .w) rd bs)
    | .loadLink e rd => s.loadNormal t r k false true (fun s bs => (s.loadWrites t (if e then .x else .w) rd bs).setLink t p.pa e)
    | .store d => if dev then s.deviceSend t r p.pa else s.storeNormal t r d
    | .storeRel d =>
      if dev then s.deviceSend t r p.pa
      else if (s.sbReal t).isEmpty then s.storeNormal t r d
      else s.setMem t (.stores r)
    | .stc e d rb => s.stcNormal t r p e d rb
    | .amo op e rd b d => s.amoNormal t r p k op e rd b d
    | .cl .clean => if dev then s else s.clNormal t r .clean p
    | .cl .flush => if dev then s else s.clNormal t r .flush p
    | .cl .inv => if dev then s else s.clNormal t r .inv p
    | .cl .zero => s.clNormal t r .zero p
    | .cl _ => s
    | .iflush => if reg.normal then s.orXFault t (fun s => s.iflushGo t (p.pa / 64)) else s

/-- A thread's request waits for a table walk (R175, R177). -/
def State.memWalk (s : State) (t : Nat) (r : MReq) (va : Nat) : State :=
  ((((s.setMem t (.walk r (BitVec.ofNat 36 va))).startWalk t va).corePerf t 0x016).smpNote t 20).walkPerf t

/-- One try of a thread's memory request: alignment, translation and permissions, region rules (R174), then the access. What has been
translated is not translated again (R183). -/
def State.memTry (s : State) (t : Nat) (r : MReq) (k : Try) : State :=
  let b := s.bunOf t
  let s := s.setMem t .idle
  let n := r.op.size
  let unl (s : State) : State := if r.op.isStc then s.modTh t Thread.unlink else s
  if r.op.aligned ∧ r.va.toNat % n ≠ 0 then s.fault t (alignCause r.op.wr n b.addr r.va)
  else match (pieces r.va n).drop r.found.length with
    | [] => s.memGo t r k
    | todo =>
      match State.resolve t r.op b.addr todo s r.found with
      | (.walk va l, s) => s.memWalk t { r with found := l } va
      | (.fail c, s) => (unl s).fault t c
      | (.found l, s) =>
        match s.regionFail r.op b.addr l with
        | some c => if c.detail % 8 = 4 ∨ c.detail % 8 = 3 then (unl s).fault t c else (unl s).faultLate t c
        | none => s.memGo t { r with found := l } k

/-- An M-unit or IFLUSH syllable that makes a request. -/
def State.memSyl (s : State) (t : Nat) (q : Pred) (op : State → MOp) (va : State → Word) : State :=
  s.syl t q 4 (fun s => s.memTry t { op := op s, va := va s } .fresh)

/-! ## TLB maintenance (R181, R182) -/

/-- An operation is broadcast. -/
def State.tlbiSend (s : State) (t : Nat) (o : Tlbi) : State :=
  ({ s with tlbis := s.tlbis ++ [o] }).modTh t (fun x => { x with tlbis := x.tlbis + 1, mem := .idle })

/-- An operation waits for the thread's older stores, then is broadcast. -/
def State.tlbiGo (s : State) (t : Nat) (o : Tlbi) : State :=
  if (s.sbReal t).isEmpty then s.orXFault t (fun s => s.tlbiSend t o) else s.setMem t (.tlbiStores o)

/-- A TLB maintenance syllable allowed at `pl` and above. -/
def State.tlbiSyl (s : State) (t : Nat) (q : Pred) (opc pl : Nat) (o : State → Tlbi) : State :=
  s.syl t q 4 (fun s =>
    let b := s.bunOf t
    if stPl b.old.st < pl then s.fault t (privCause b.addr 2 (s.pos t) opc) else s.tlbiGo t (o s))

/-- The operation on the issuing thread's berth. -/
def State.tlbiOwn (s : State) (t : Nat) (asid va : Option Nat) (glob ng : Bool) : Tlbi :=
  { gtn := some t, berth := some (s.th t).berth, asid := asid, withGlobal := glob, nonGlobalOnly := ng, va := va, ipa := none }

/-! ## What lets a waiting request go on -/

/-- R56, R57: the fill of an early launch returns. -/
def State.launchBack (s : State) (t : Nat) : State :=
  match (s.th t).launch with
  | some l =>
    if l.back || !s.readable (clusterOf t) l.line then s
    else match s.coreRead (coreOf t) (l.line * 64) 0 with
      | (true, s) => s.modTh t (fun x => { x with launch := some { l with back := true } })
      | (false, s) => s
  | none => s

/-- A waiting thread looks again (R40): its line may have come, its older entries may have drained. -/
def State.poke (s : State) (t : Nat) (ret : Bool) : State :=
  let s := s.fenceEnds t
  let s := if ret then s.launchBack t else s
  match (s.th t).mem with
  | .stores r => s.memTry t r .again
  | .line r => if ret then s.memTry t r .returned else s
  | .iflushStores line => s.iflushGo t line
  | .tlbiStores o => s.tlbiGo t o
  | .word => s.wordGoes t
  | _ => s

/-- Does a thread still execute what waits: the core runs, and the thread is in RUN. -/
def State.alive (s : State) (t : Nat) : Bool := s.coreRuns (coreOf t) && (s.th t).state == .run

/-! ## Draining (R197 to R199) -/

/-- Does an entry belong to a bundle that may still fault (R74). -/
def Thread.entryOpen (x : Thread) (order : Nat) : Bool :=
  match x.bun with
  | some b => decide (b.sbMark ≤ order) && !(b.pos == b.len && x.mem == .idle && x.pat.isNone)
  | none => false

/-- R197, R123: must an older entry of the thread drain first: of the same line, the lower half of the same store, or beyond a marker. -/
def State.entryBehind (s : State) (e : SbEntry) : Bool :=
  let older := (s.sbOf e.gtn).filter (fun o => decide (o.order < e.order))
  (e.upper && older.any (fun o => o.order + 1 == e.order)) ||
  older.any (fun o => o.op != .marker && o.pa / 64 == e.pa / 64) ||
  older.any (fun m => m.op == .marker && older.any (fun o => o.op != .marker && decide (o.order < m.order)))

/-- R199: the line of an entry with a double-bit error is written poisoned. -/
def State.sbPoison (s : State) (e : SbEntry) : State :=
  let line := e.pa / 64
  let n := clusterOf e.gtn
  ((((s.poisonLine line n (2 ^ 16)).clcL2Event n (coreOf e.gtn) line (2 ^ 12) 8 0 (e.pa / 8 % 8) 0xE).count n 11).count 0x40 2).logErr 1 3
    (some e.gtn) (s.th e.gtn).berth (line * 64) 0 0

/-- R199: a single-bit error of an entry is corrected as it drains; the syndrome is not given and shows as 0 (log 107). -/
def State.sbCorrect (s : State) (e : SbEntry) : State :=
  let n := clusterOf e.gtn
  ((s.clcL2Event n (coreOf e.gtn) (e.pa / 64) (2 ^ 13) 7 0 (e.pa / 8 % 8) 0xE).count n 10).count 0x40 1

/-- R197, R213: one entry of a thread drains, or asks for what it needs. -/
def State.drain (s : State) (t : Nat) (e : SbEntry) : State :=
  let line := e.pa / 64
  let cl := clusterOf t
  let write (bs : List Byte) : State :=
    let s := (s.l2Perf cl 0x101).perform t e.pa bs
    (if e.dbe then s.sbPoison e else if e.sbe then s.sbCorrect e else s).sbFree (coreOf t) e
  let ask (k : MsgKind) : State :=
    if e.sent then s
    else match s.sendMaint k cl line with
      | (true, s) => s.modCore (coreOf t) (fun c => { c with sb := c.sb.map (fun x => if x = e then { x with sent := true } else x) })
      | (false, s) => s
  match e.op with
  | .store => if s.writable cl line then write e.data else s.wantWrite cl line
  | .zero => if s.writable cl line then write (List.replicate 64 0) else s.wantWhole cl line
  | .clean => ask .clean
  | .flush => ask .flush
  | .inv => ask .flush
  | .marker => s

/-- R197. -/
def execStoreBufferDrain (t : Gtn) (order : Nat) (s : State) : Out :=
  match (s.sbOf t).find? (fun e => e.order == order && e.op != .marker) with
  | none => ok s
  | some e =>
    if s.domain (2 + clusterOf t) != .on || s.frozen || (s.th t).entryOpen order || s.entryBehind e then ok s
    else
      let held := s.loadHeld t
      let s := s.drain t e
      let s := if held && !s.loadHeld t then s.corePerf t 0x018 else s
      ok (if s.alive t then s.poke t false else s)

/-- R57, R40: data of a load that missed the L1D return; a thread that waits for older entries looks again. -/
def execLoadDataReturn (t : Gtn) (s : State) : Out := whenOk (s.alive t) s (s.poke t true)

/-- R20 to R22: the device access of a thread is performed and answered; one to a block that is not awake yet waits. A PCI Express
peer's answer is `data`, or an error. -/
def State.deviceAnswer (s : State) (t : Nat) (data : W64) (err : Bool) : State :=
  match (s.th t).mem with
  | .device r pa e pcie =>
    if !s.alive t then s
    else match e with
      | some n => s.deviceEnds t r (.error n)
      | none =>
        if pcie && (s.bunOf t).xFault.isSome then s.orXFault t id
        else if pcie then s.deviceEnds t r (if err then .error 1 else .done (data.setWidth 32))
        else match s.regAccess (s.threadReq t) pa r.word, (s.bunOf t).xFault with
          | (.stall, s), _ => s.waitOn (domainOf pa) (.thread t)
          | (.done _, _), some c => (s.setMem t .idle).fault t c
          | (res, s), _ => s.deviceEnds t r res
  | _ => s

/-- R20 to R22: a device access is answered. -/
def execDeviceAccessResponse (t : Gtn) (data : W64) (err : Bool) (s : State) : Out := ok (s.deviceAnswer t data err)

/-- R23: a time-out is recorded; FAB_TIMEOUT_EVR has no address and its flags no names, so that its flag [18] stands for it (log 19). -/
def State.fabTimeout (s : State) : State := { s with fabTimeoutEvr := recorded s.fabTimeoutEvr (2 ^ 18) }.signal 130

/-- An access that waits for a block, other than a thread's. -/
def Wait.isRegister : Nat × Wait → Bool
  | (_, .thread _) => false
  | (_, .gwRx _ _ _) => false
  | (_, .gwTx _) => false
  | (d, _) => decide (d < 24)

/-- R21, R23: an access that waits gets an error response and is not performed later. -/
def State.waitFails (s : State) (x : Wait) : State :=
  match x with
  | .reg rq pa w => s.accessFails rq pa w.isSome 2
  | .dma set c => s.dmaDone set c true true
  | .pcie (.bar0 _ _ _ wr _) => s.pceFails wr.isSome 4
  | .pcie (.root _ _ wr _) => s.pceFails wr.isSome 4
  | .debug => if (s.dbg.dae.busy.getD none).isSome then s.daeWriteEnds false else s.daeReadEnds none
  | _ => s

/-- R23: the access is not performed; a thread takes Bus error with detail 2. The timeout does not count while the device is frozen (R461). -/
def execRegisterAccessTimeout (t : Waiter) (s : State) : Out :=
  if s.frozen then ok s else
  match t with
  | .thread t =>
    (match (s.th t).mem with
     | .device r _ _ _ => whenOk (s.alive t) s
         (({ s.fabTimeout with waits := s.waits.filter (fun w => w.2 != Wait.thread t) }).deviceEnds t r (.error 2))
     | _ => ok s)
  | .other =>
    match s.waits.find? Wait.isRegister with
    | some x => ok (({ s.fabTimeout with waits := s.waits.erase x }).waitFails x.2)
    | none => ok s

/-- R128: the delay window of a link ends. -/
def execLinkDelayExpiry (t : Gtn) (s : State) : Out :=
  ok (s.modTh t (fun x => match x.link with
    | some l => { x with link := some { l with window := false } }
    | none => x))

/-- R182: the oldest broadcast operation is complete at every TLB, once the accesses that were translated through the entries it removes
have been performed. -/
def execTlbMaintenanceComplete (s : State) : Out :=
  match s.tlbis with
  | [] => ok s
  | o :: r =>
    let s := s.invalidate o
    whenOk (!s.viaPending o) s
      (let s := { s with tlbis := r }
       match o.gtn with
       | some t => s.modTh t (fun x => { x with tlbis := x.tlbis - 1 })
       | none => s)

/-- R139, R210: a line leaves every L1I and every line buffer. -/
def State.iflushLine (s : State) (line : Nat) : State :=
  let s := s.modCoh (fun h => { h with
    l1i := h.l1i.filter (fun e => e.1 % 2 ^ 34 != line), l1iBad := h.l1iBad.filter (fun e => e.1 % 2 ^ 34 != line) })
  (s.thr.map Prod.fst).foldl (fun s t => s.modTh t (fun x =>
    match x.buf with
    | some b => if b.pa / 64 = line then { x with buf := none, fetch := if x.fetch = .loaded then .empty else x.fetch } else x
    | none => x)) s

/-- R139: every core has acknowledged. -/
def execIflushComplete (t : Gtn) (s : State) : Out :=
  match (s.th t).mem with
  | .iflushAck line => whenOk (s.alive t) s (((s.iflushLine line).setMem t .idle).readyBy t (s.cycleOf t))
  | _ => ok s

/-! ## The commands of the M unit -/

/-- R117. -/
def State.ld (s : State) (t : Nat) (q : Pred) (k : LdKind) (rd : Reg) (a : Addr) : State :=
  s.memSyl t q (fun _ => .load k rd.val) (fun s => s.ea t a)

/-- R117: a plain store of the low `n` bytes. -/
def State.st (s : State) (t : Nat) (q : Pred) (n : Nat) (rd : Reg) (a : Addr) : State :=
  s.memSyl t q (fun s => .store (leBytes n (s.src t rd).toNat)) (fun s => s.ea t a)

/-- R117. -/
def execLdB (t : Gtn) (q : Pred) (rd : Reg) (a : Addr) (s : State) : Out :=
  s.ask (.ldB t q rd a) (ok (s.ld t q .b rd a))

/-- R117. -/
def execLdH (t : Gtn) (q : Pred) (rd : Reg) (a : Addr) (s : State) : Out :=
  s.ask (.ldH t q rd a) (ok (s.ld t q .h rd a))

/-- R117. -/
def execLdW (t : Gtn) (q : Pred) (rd : Reg) (a : Addr) (s : State) : Out :=
  s.ask (.ldW t q rd a) (ok (s.ld t q .w rd a))

/-- R117, R80. -/
def execLdX (t : Gtn) (q : Pred) (rd : Reg) (a : Addr) (s : State) : Out :=
  s.ask (.ldX t q rd a) (ok (s.ld t q .x rd a))

/-- R117. -/
def execLdBu (t : Gtn) (q : Pred) (rd : Reg) (a : Addr) (s : State) : Out :=
  s.ask (.ldBu t q rd a) (ok (s.ld t q .bu rd a))

/-- R117. -/
def execLdHu (t : Gtn) (q : Pred) (rd : Reg) (a : Addr) (s : State) : Out :=
  s.ask (.ldHu t q rd a) (ok (s.ld t q .hu rd a))

/-- R117. -/
def execLdWu (t : Gtn) (q : Pred) (rd : Reg) (a : Addr) (s : State) : Out :=
  s.ask (.ldWu t q rd a) (ok (s.ld t q .wu rd a))

/-- R117, R78. -/
def execLdD (t : Gtn) (q : Pred) (rd : Reg) (a : Addr) (s : State) : Out :=
  s.ask (.ldD t q rd a) (ok (if isPair rd then s.ld t q .d rd a else s.reserved t q 2 (memBody 7 rd a)))

/-- R117. -/
def execStB (t : Gtn) (q : Pred) (rd : Reg) (a : Addr) (s : State) : Out :=
  s.ask (.stB t q rd a) (ok (s.st t q 1 rd a))

/-- R117. -/
def execStH (t : Gtn) (q : Pred) (rd : Reg) (a : Addr) (s : State) : Out :=
  s.ask (.stH t q rd a) (ok (s.st t q 2 rd a))

/-- R117. -/
def execStW (t : Gtn) (q : Pred) (rd : Reg) (a : Addr) (s : State) : Out :=
  s.ask (.stW t q rd a) (ok (s.st t q 4 rd a))

/-- R117, R80. -/
def execStX (t : Gtn) (q : Pred) (rd : Reg) (a : Addr) (s : State) : Out :=
  s.ask (.stX t q rd a) (ok (s.memSyl t q (fun s => .store (leBytes 8 (extSlot (s.src t rd)).toNat)) (fun s => s.ea t a)))

/-- R117, R78. -/
def execStD (t : Gtn) (q : Pred) (rd : Reg) (a : Addr) (s : State) : Out :=
  s.ask (.stD t q rd a) (ok (if isPair rd then
        s.memSyl t q (fun s => .store (leBytes 4 (s.srcPair t rd).1.toNat ++ leBytes 4 (s.srcPair t rd).2.toNat)) (fun s => s.ea t a)
      else s.reserved t q 2 (memBody 0xC rd a)))

/-- R120: a saturating store of `w` bits. -/
def State.ss (s : State) (t : Nat) (q : Pred) (w : Nat) (sg : Bool) (rd ra rb : Reg) : State :=
  s.syl t q 4 (fun s =>
    let v := satResult w sg (s.src t rd)
    (s.sov t v.2).memTry t { op := .store (leBytes (w / 8) v.1.toNat), va := s.ea t (.idx ra rb) } .fresh)

/-- R120. -/
def execSsB (t : Gtn) (q : Pred) (rd ra rb : Reg) (s : State) : Out :=
  s.ask (.ssB t q rd ra rb) (ok (s.ss t q 8 true rd ra rb))

/-- R120. -/
def execSsBu (t : Gtn) (q : Pred) (rd ra rb : Reg) (s : State) : Out :=
  s.ask (.ssBu t q rd ra rb) (ok (s.ss t q 8 false rd ra rb))

/-- R120. -/
def execSsH (t : Gtn) (q : Pred) (rd ra rb : Reg) (s : State) : Out :=
  s.ask (.ssH t q rd ra rb) (ok (s.ss t q 16 true rd ra rb))

/-- R120. -/
def execSsHu (t : Gtn) (q : Pred) (rd ra rb : Reg) (s : State) : Out :=
  s.ask (.ssHu t q rd ra rb) (ok (s.ss t q 16 false rd ra rb))

/-- R120. -/
def execSsW (t : Gtn) (q : Pred) (rd ra rb : Reg) (s : State) : Out :=
  s.ask (.ssW t q rd ra rb) (ok (s.ss t q 32 true rd ra rb))

/-- R120. -/
def execSsWu (t : Gtn) (q : Pred) (rd ra rb : Reg) (s : State) : Out :=
  s.ask (.ssWu t q rd ra rb) (ok (s.ss t q 32 false rd ra rb))

/-- R132. -/
def execLdAqW (t : Gtn) (q : Pred) (rd ra rb : Reg) (s : State) : Out :=
  s.ask (.ldAqW t q rd ra rb) (ok (s.memSyl t q (fun _ => .loadAcq false rd.val) (fun s => s.ea t (.idx ra rb))))

/-- R132. -/
def execLdAqX (t : Gtn) (q : Pred) (rd ra rb : Reg) (s : State) : Out :=
  s.ask (.ldAqX t q rd ra rb) (ok (s.memSyl t q (fun _ => .loadAcq true rd.val) (fun s => s.ea t (.idx ra rb))))

/-- R132. -/
def execStRlW (t : Gtn) (q : Pred) (rd ra rb : Reg) (s : State) : Out :=
  s.ask (.stRlW t q rd ra rb) (ok (s.memSyl t q (fun s => .storeRel (leBytes 4 (s.src t rd).toNat)) (fun s => s.ea t (.idx ra rb))))

/-- R132. -/
def execStRlX (t : Gtn) (q : Pred) (rd ra rb : Reg) (s : State) : Out :=
  s.ask (.stRlX t q rd ra rb) (ok (s.memSyl t q (fun s => .storeRel (leBytes 8 (extSlot (s.src t rd)).toNat)) (fun s => s.ea t (.idx ra rb))))

/-- R132. -/
def execFence (t : Gtn) (q : Pred) (s : State) : Out :=
  s.ask (.fence t q) (ok (s.syl t q 4 (fun s => if (s.sbReal t).isEmpty then s else s.modTh t (fun x => { x with stall := .fence }))))

/-- R132, R197. -/
def execFenceSs (t : Gtn) (q : Pred) (s : State) : Out :=
  s.ask (.fenceSs t q) (ok (s.syl t q 4 (fun s => if (s.sbReal t).isEmpty then s else s.sbPush t .marker 0 [])))

/-- R125. -/
def execLdlW (t : Gtn) (q : Pred) (rd ra : Reg) (s : State) : Out :=
  s.ask (.ldlW t q rd ra) (ok (s.memSyl t q (fun _ => .loadLink false rd.val) (fun s => s.src t ra)))

/-- R125. -/
def execLdlX (t : Gtn) (q : Pred) (rd ra : Reg) (s : State) : Out :=
  s.ask (.ldlX t q rd ra) (ok (s.memSyl t q (fun _ => .loadLink true rd.val) (fun s => s.src t ra)))

/-- R126. -/
def execStcW (t : Gtn) (q : Pred) (rd ra rb : Reg) (s : State) : Out :=
  s.ask (.stcW t q rd ra rb) (ok (s.memSyl t q (fun s => .stc false (leBytes 4 (s.src t rd).toNat) rb.val) (fun s => s.src t ra)))

/-- R126. -/
def execStcX (t : Gtn) (q : Pred) (rd ra rb : Reg) (s : State) : Out :=
  s.ask (.stcX t q rd ra rb) (ok (s.memSyl t q (fun s => .stc true (leBytes 8 (extSlot (s.src t rd)).toNat) rb.val) (fun s => s.src t ra)))

/-- R130. -/
def State.amo (s : State) (t : Nat) (q : Pred) (op : AmoOp) (ext : Bool) (rd ra rb : Reg) : State :=
  s.memSyl t q (fun s => .amo op ext rd.val (s.src t rb) (s.src t rd)) (fun s => s.src t ra)

/-- R130. -/
def execAmoSwapW (t : Gtn) (q : Pred) (rd ra rb : Reg) (s : State) : Out :=
  s.ask (.amoSwapW t q rd ra rb) (ok (s.amo t q .swap false rd ra rb))

/-- R130. -/
def execAmoAddW (t : Gtn) (q : Pred) (rd ra rb : Reg) (s : State) : Out :=
  s.ask (.amoAddW t q rd ra rb) (ok (s.amo t q .add false rd ra rb))

/-- R130. -/
def execAmoAndW (t : Gtn) (q : Pred) (rd ra rb : Reg) (s : State) : Out :=
  s.ask (.amoAndW t q rd ra rb) (ok (s.amo t q .and false rd ra rb))

/-- R130. -/
def execAmoOrW (t : Gtn) (q : Pred) (rd ra rb : Reg) (s : State) : Out :=
  s.ask (.amoOrW t q rd ra rb) (ok (s.amo t q .or false rd ra rb))

/-- R130. -/
def execAmoXorW (t : Gtn) (q : Pred) (rd ra rb : Reg) (s : State) : Out :=
  s.ask (.amoXorW t q rd ra rb) (ok (s.amo t q .xor false rd ra rb))

/-- R130. -/
def execAmoMinW (t : Gtn) (q : Pred) (rd ra rb : Reg) (s : State) : Out :=
  s.ask (.amoMinW t q rd ra rb) (ok (s.amo t q .min false rd ra rb))

/-- R130. -/
def execAmoMaxW (t : Gtn) (q : Pred) (rd ra rb : Reg) (s : State) : Out :=
  s.ask (.amoMaxW t q rd ra rb) (ok (s.amo t q .max false rd ra rb))

/-- R130. -/
def execAmoMinuW (t : Gtn) (q : Pred) (rd ra rb : Reg) (s : State) : Out :=
  s.ask (.amoMinuW t q rd ra rb) (ok (s.amo t q .minu false rd ra rb))

/-- R130. -/
def execAmoMaxuW (t : Gtn) (q : Pred) (rd ra rb : Reg) (s : State) : Out :=
  s.ask (.amoMaxuW t q rd ra rb) (ok (s.amo t q .maxu false rd ra rb))

/-- R130. -/
def execAmoCasW (t : Gtn) (q : Pred) (rd ra rb : Reg) (s : State) : Out :=
  s.ask (.amoCasW t q rd ra rb) (ok (s.amo t q .cas false rd ra rb))

/-- R130. -/
def execAmoSwapX (t : Gtn) (q : Pred) (rd ra rb : Reg) (s : State) : Out :=
  s.ask (.amoSwapX t q rd ra rb) (ok (s.amo t q .swap true rd ra rb))

/-- R130. -/
def execAmoAddX (t : Gtn) (q : Pred) (rd ra rb : Reg) (s : State) : Out :=
  s.ask (.amoAddX t q rd ra rb) (ok (s.amo t q .add true rd ra rb))

/-- R130. -/
def execAmoCasX (t : Gtn) (q : Pred) (rd ra rb : Reg) (s : State) : Out :=
  s.ask (.amoCasX t q rd ra rb) (ok (s.amo t q .cas true rd ra rb))

/-- R212. -/
def State.clSyl (s : State) (t : Nat) (q : Pred) (k : ClKind) (ra : Reg) : State :=
  s.memSyl t q (fun _ => .cl k) (fun s => s.src t ra)

/-- R212, R213. -/
def execClClean (t : Gtn) (q : Pred) (ra : Reg) (s : State) : Out :=
  s.ask (.clClean t q ra) (ok (s.clSyl t q .clean ra))

/-- R212, R213. -/
def execClFlush (t : Gtn) (q : Pred) (ra : Reg) (s : State) : Out :=
  s.ask (.clFlush t q ra) (ok (s.clSyl t q .flush ra))

/-- R212, R213. -/
def execClInv (t : Gtn) (q : Pred) (ra : Reg) (s : State) : Out :=
  s.ask (.clInv t q ra) (ok (s.clSyl t q .inv ra))

/-- R212, R213. -/
def execClZero (t : Gtn) (q : Pred) (ra : Reg) (s : State) : Out :=
  s.ask (.clZero t q ra) (ok (s.clSyl t q .zero ra))

/-- R214. -/
def execClPref (t : Gtn) (q : Pred) (ra : Reg) (s : State) : Out :=
  s.ask (.clPref t q ra) (ok (s.syl t q 4 (fun s => s.orXFault t (fun s => s.prefetch t (s.src t ra) false))))

/-- R214. -/
def execClPrefw (t : Gtn) (q : Pred) (ra : Reg) (s : State) : Out :=
  s.ask (.clPrefw t q ra) (ok (s.syl t q 4 (fun s => s.orXFault t (fun s => s.prefetch t (s.src t ra) true))))

/-- R181. -/
def execTlbiVa (t : Gtn) (q : Pred) (ra : Reg) (s : State) : Out :=
  s.ask (.tlbiVa t q ra) (ok (s.tlbiSyl t q 0x70 1 (fun s => s.tlbiOwn t (some (s.th t).asid.toNat) (some (s.src t ra).toNat) true false)))

/-- R181. -/
def execTlbiVaa (t : Gtn) (q : Pred) (ra : Reg) (s : State) : Out :=
  s.ask (.tlbiVaa t q ra) (ok (s.tlbiSyl t q 0x71 1 (fun s => s.tlbiOwn t none (some (s.src t ra).toNat) true false)))

/-- R181. -/
def execTlbiAsid (t : Gtn) (q : Pred) (ra : Reg) (s : State) : Out :=
  s.ask (.tlbiAsid t q ra) (ok (s.tlbiSyl t q 0x72 1 (fun s => s.tlbiOwn t (some (bits (s.src t ra) 11 0)) none false true)))

/-- R181. -/
def execTlbiOwn (t : Gtn) (q : Pred) (s : State) : Out :=
  s.ask (.tlbiOwn t q) (ok (s.tlbiSyl t q 0x73 1 (fun s => s.tlbiOwn t none none true false)))

/-- R181. -/
def execTlbiIpa (t : Gtn) (q : Pred) (ra rb : Reg) (s : State) : Out :=
  s.ask (.tlbiIpa t q ra rb) (ok (s.tlbiSyl t q 0x78 2 (fun s =>
    { gtn := some t, berth := some (bits (s.src t rb) 5 0), asid := none, withGlobal := true, va := none,
      ipa := some (bits (s.src t ra) 27 0 * 0x1000) })))

/-- R181. -/
def execTlbiB (t : Gtn) (q : Pred) (rb : Reg) (s : State) : Out :=
  s.ask (.tlbiB t q rb) (ok (s.tlbiSyl t q 0x79 2 (fun s =>
    { gtn := some t, berth := some (bits (s.src t rb) 5 0), asid := none, withGlobal := true, va := none, ipa := none })))

/-- R181. -/
def execTlbiAll (t : Gtn) (q : Pred) (s : State) : Out :=
  s.ask (.tlbiAll t q) (ok (s.tlbiSyl t q 0x7A 2 (fun _ =>
    { gtn := some t, berth := none, asid := none, withGlobal := true, va := none, ipa := none })))

/-- R139. -/
def execIflush (t : Gtn) (q : Pred) (ra : Reg) (s : State) : Out :=
  s.ask (.iflush t q ra) (ok (s.memSyl t q (fun _ => .iflush) (fun s => s.src t ra)))

/-- R140, R471. -/
def execTnote (t : Gtn) (q : Pred) (ra : Reg) (tag : Fin 32) (s : State) : Out :=
  s.ask (.tnote t q ra tag) (ok (s.syl t q 4 (fun s => if s.traced t (s.bunOf t).old.st then s.encNote t tag.val (s.src t ra) else s)))

end Sys2Proof.Machine
end

