-- ==== Sys2Proof/Machine/Waits.lean ====
section
/-! DEFINITION. The accesses that wait for a block's power domain (R22) or for the end of a link's hold (R128), in arrival order. -/

namespace Sys2Proof.Machine

/-- Can what waits be tried now. -/
def State.waitReady (s : State) (x : Nat × Wait) : Bool :=
  (x.1 == 24 || s.domain x.1 == .on) &&
  (!s.frozen || (match x.2 with
    | .reg _ _ _ => true
    | .debug => true
    | .thread _ => true
    | _ => false))

/-- An access is tried again. -/
def State.serveWait (s : State) (x : Wait) : State :=
  match x with
  | .reg rq pa w => s.regServe rq pa w
  | .thread t => s.deviceAnswer t 0 false
  | .dma set c => s.unlessHeld (s.dmaDone set c false true)
  | .pcie r => s.pceAsk r true
  | .debug => s.daeDone
  | .gwRx q el src => s.gwToQueue q el src true
  | .gwTx q => s.gwqWork q

/-- R22: what can be performed is performed, in arrival order. -/
def State.serveWaits (s : State) : State :=
  (s.waits.filter s.waitReady).foldl (fun s x => s.serveWait x.2)
    { s with waits := s.waits.filter (fun x => !s.waitReady x) }

/-- R396, R22: a domain that was woken is ready: a return from OFF is recorded, and what waited for the domain is performed. -/
def execDomainReady (d : Fin 24) (s : State) : Out :=
  let was := s.domain d.val
  let fused := decide (2 ≤ d.val) && decide (d.val ≤ 9) && s.clusterFused (d.val - 2)
  if Tbl.get (fun _ => false) s.domReq d.val && !fused && !s.pwr.shut && (was == .gated || was == .off) then
    let s := { s.setDom d.val .on with domReq := Tbl.set (fun _ => false) s.domReq d.val false }
    ok (if was = .off then (s.domRecord d.val (2 ^ 18)).agentBack d.val else s).serveWaits
  else ok s

end Sys2Proof.Machine
end

