-- ==== Sys2Proof/Machine/Clock.lean ====
section
/-! DEFINITION. The passing of one nanosecond, which is what a step is while no command waits (log 6): global time with its
rate adjustment and slew (R361), the watchdogs (R317), the time limits of draining instances (R320), a reset that
SYS_RESET asked for (R297), and the accesses whose wait is over (R22, R128). -/

namespace Sys2Proof.Machine

/-- R361: the most that a slew moves global time in one ns, 100 ppm, in 2^-32 ns. -/
def slewStep : Int := 429496

/-- R361: the part of the offset that one ns removes. -/
def State.slewNow (s : State) : Int := max (-slewStep) (min slewStep s.eth.slew)

/-- R361: the rate adjustment in 2^-32 ns per ns; none while the source is free-running. -/
def State.rateNow (s : State) : Int := if s.eth.source = 0 then 0 else (s.reg 0x1044016008).toInt

/-- Global time after one ns: ns and 2^-32 ns (R361). It never runs backwards. -/
def State.gtbNext (s : State) : Nat × Nat :=
  let f : Nat := ((s.gtbFrac : Int) + 2 ^ 32 + s.rateNow + s.slewNow).toNat
  ((s.gtb + f / 2 ^ 32) % 2 ^ 64, f % 2 ^ 32)

/-- R316, R317: an enabled watchdog counts. -/
def Berth.tick (x : Berth) : Berth := if x.wdEn then { x with elapsed := x.elapsed + 1 } else x

/-- R320: the time that a draining instance has left. -/
def Inst.tick (i : Inst) : Inst := if i.rst && !i.frog then { i with left := i.left - 1 } else i

/-- Is the device in a sleep state (R403). -/
def State.asleep (s : State) : Bool :=
  match s.pwr.sleep with
  | .asleep _ => true
  | _ => false

/-- The watchdogs and the instances after one ns: nothing counts while the device is frozen, and no watchdog in a sleep state
(R317, R405, R466). -/
def State.timersTick (s : State) : State :=
  if s.frozen then s
  else s.modHm (fun h => { h with
    berths := if s.asleep then h.berths else h.berths.map (fun e => (e.1, e.2.tick)),
    insts := h.insts.map (fun e => (e.1, e.2.tick)) })

/-- One ns passes (log 6). -/
def State.tick (s : State) : State :=
  match s.rstReq with
  | some k => { (s.deviceReset k 0 0 false) with rstReq := none }
  | none =>
    let n := s.gtbNext
    { s.timersTick with
        time := s.time + 1, gtb := n.1, gtbFrac := n.2, eth := { s.eth with slew := s.eth.slew - s.slewNow } }.serveWaits

end Sys2Proof.Machine
end

