-- ==== Sys2Proof/Machine/Float.lean ====
section
/-! DEFINITION. Floating point of chapter 04 (R109 to R115): exact integer arithmetic on unpacked values and one rounding
to nearest, ties to even. Every operation answers its result and whether it sets ST.SOV (invalid or overflow, R111). -/

namespace Sys2Proof.Machine

/-- A binary format: fraction bits and exponent bits. -/
structure FFmt where
  frac : Nat
  expo : Nat
deriving DecidableEq, Repr

/-- binary32 (R109). -/
def fmtS : FFmt := { frac := 23, expo := 8 }

/-- binary16 (R109). -/
def fmtH : FFmt := { frac := 10, expo := 5 }

/-- The width of a format in bits. -/
def FFmt.width (f : FFmt) : Nat := f.frac + f.expo + 1

/-- The exponent of the least significant bit of a subnormal. -/
def FFmt.low (f : FFmt) : Int := 2 - (2 ^ (f.expo - 1) : Nat) - (f.frac : Nat)

/-- A value taken apart: the finite value is (−1)^neg × man × 2^ex. -/
inductive FVal where
  | nan (signalling : Bool)
  | inf (neg : Bool)
  | fin (neg : Bool) (man : Nat) (ex : Int)
deriving DecidableEq, Repr

/-- R109: reads the low bits of a register; the bits above the format are ignored. -/
def fUnpack (f : FFmt) (x : Nat) : FVal :=
  let m := x % 2 ^ f.frac
  let e := x / 2 ^ f.frac % 2 ^ f.expo
  let s := decide (x / 2 ^ (f.frac + f.expo) % 2 = 1)
  if e = 2 ^ f.expo - 1 then
    if m = 0 then .inf s else .nan (decide (m / 2 ^ (f.frac - 1) = 0))
  else if e = 0 then .fin s m f.low
  else .fin s (m + 2 ^ f.frac) (f.low + (e : Int) - 1)

/-- R110: the canonical quiet NaN. -/
def fNan (f : FFmt) : Nat := (2 ^ f.expo - 1) * 2 ^ f.frac + 2 ^ (f.frac - 1)

/-- The sign bit in place. -/
def fSign (f : FFmt) (neg : Bool) : Nat := b2n neg * 2 ^ (f.frac + f.expo)

/-- ±∞. -/
def fInf (f : FFmt) (neg : Bool) : Nat := fSign f neg + (2 ^ f.expo - 1) * 2 ^ f.frac

/-- `m / 2^n` rounded to nearest, ties to even. -/
def rneShift (m n : Nat) : Nat :=
  let q := m / 2 ^ n
  let r := m % 2 ^ n
  if n = 0 then m
  else if 2 ^ (n - 1) < r ∨ (r = 2 ^ (n - 1) ∧ q % 2 = 1) then q + 1 else q

/-- R110: the rounded encoding of (−1)^neg × m × 2^e, and whether it overflowed (R111). -/
def fRound (f : FFmt) (neg : Bool) (m : Nat) (e : Int) : Nat × Bool :=
  if m = 0 then (fSign f neg, false)
  else
    let top : Int := e + (m.log2 : Int) - (f.frac : Int)
    let q : Int := if top < f.low then f.low else top
    let mm := if q ≤ e then m * 2 ^ (e - q).toNat else rneShift m (q - e).toNat
    let code := if mm < 2 ^ f.frac then mm else (q - f.low).toNat * 2 ^ f.frac + mm
    if (2 ^ f.expo - 1) * 2 ^ f.frac ≤ code then (fInf f neg, true) else (fSign f neg + code, false)

/-- Is it a signalling NaN. -/
def FVal.isSnan : FVal → Bool
  | .nan s => s
  | _ => false

/-- Is it a NaN. -/
def FVal.isNan : FVal → Bool
  | .nan _ => true
  | _ => false

/-- The value with its sign inverted. -/
def FVal.neg : FVal → FVal
  | .nan s => .nan s
  | .inf n => .inf (!n)
  | .fin n m e => .fin (!n) m e

/-- The signed integer (−1)^neg × m × 2^(e − base), for `base ≤ e`. -/
def scaled (neg : Bool) (m : Nat) (e base : Int) : Int :=
  let x : Int := m * 2 ^ (e - base).toNat
  if neg then -x else x

/-- R112: the sum of two finite values, rounded; an exact zero of opposite signs is +0. -/
def fAddFin (f : FFmt) (an : Bool) (am : Nat) (ae : Int) (bn : Bool) (bm : Nat) (be : Int) : Nat × Bool :=
  let base := if ae ≤ be then ae else be
  let x := scaled an am ae base + scaled bn bm be base
  if x = 0 then (fSign f (an && bn), false)
  else fRound f (decide (x < 0)) x.natAbs base

/-- R111, R112: a sum of two values. -/
def fAddVal (f : FFmt) (a b : FVal) : Nat × Bool :=
  match a, b with
  | .nan s, y => (fNan f, s || y.isSnan)
  | x, .nan s => (fNan f, s || x.isSnan)
  | .inf n, .inf m => if n = m then (fInf f n, false) else (fNan f, true)
  | .inf n, .fin _ _ _ => (fInf f n, false)
  | .fin _ _ _, .inf n => (fInf f n, false)
  | .fin an am ae, .fin bn bm be => fAddFin f an am ae bn bm be

/-- The exact product as a value; the flag is 0 × ∞. -/
def fMulVal (a b : FVal) : FVal × Bool :=
  match a, b with
  | .nan s, y => (.nan (s || y.isSnan), false)
  | x, .nan s => (.nan (s || x.isSnan), false)
  | .inf n, .inf m => (.inf (n != m), false)
  | .inf n, .fin m k _ => if k = 0 then (.nan false, true) else (.inf (n != m), false)
  | .fin m k _, .inf n => if k = 0 then (.nan false, true) else (.inf (n != m), false)
  | .fin an am ae, .fin bn bm be => (.fin (an != bn) (am * bm) (ae + be), false)

/-- R112: FADD. -/
def fAdd (f : FFmt) (a b : Nat) : Nat × Bool := fAddVal f (fUnpack f a) (fUnpack f b)

/-- R112: FSUB. -/
def fSub (f : FFmt) (a b : Nat) : Nat × Bool := fAddVal f (fUnpack f a) (fUnpack f b).neg

/-- R112: FMUL. -/
def fMul (f : FFmt) (a b : Nat) : Nat × Bool :=
  match fMulVal (fUnpack f a) (fUnpack f b) with
  | (.nan s, iv) => (fNan f, s || iv)
  | (.inf n, _) => (fInf f n, false)
  | (.fin n m e, _) => fRound f n m e

/-- R111, R112: FMA, RA × RB + RD with a single rounding; 0 × ∞ is invalid even with a quiet NaN addend. -/
def fFma (f : FFmt) (a b d : Nat) : Nat × Bool :=
  let p := fMulVal (fUnpack f a) (fUnpack f b)
  let r := fAddVal f p.1 (fUnpack f d)
  (r.1, r.2 || p.2)

/-- The order of two non-NaN values; −0 and +0 are equal. -/
def fCmp (a b : FVal) : Ordering :=
  match a, b with
  | .inf n, .inf m => if n = m then .eq else if n then .lt else .gt
  | .inf n, _ => if n then .lt else .gt
  | _, .inf n => if n then .gt else .lt
  | .fin an am ae, .fin bn bm be =>
    let base := if ae ≤ be then ae else be
    compare (scaled an am ae base) (scaled bn bm be base)
  | _, _ => .eq

/-- R112: FMIN and FMAX, minimumNumber and maximumNumber, −0 less than +0. -/
def fMinMax (f : FFmt) (max : Bool) (a b : Nat) : Nat × Bool :=
  let x := fUnpack f a
  let y := fUnpack f b
  let sn := x.isSnan || y.isSnan
  let a' := a % 2 ^ f.width
  let b' := b % 2 ^ f.width
  if x.isNan && y.isNan then (fNan f, sn)
  else if x.isNan then (b', sn)
  else if y.isNan then (a', sn)
  else
    let aLess := match fCmp x y with
      | .lt => true
      | .gt => false
      | .eq => decide (2 ^ (f.width - 1) ≤ a')
    (if aLess != max then a' else b', false)

/-- R113: a finite value as an integer, truncated toward zero or rounded to nearest even. -/
def fToInt (nearest neg : Bool) (m : Nat) (e : Int) : Int :=
  let x : Nat := if 0 ≤ e then m * 2 ^ e.toNat
    else if nearest then rneShift m (-e).toNat else m / 2 ^ (-e).toNat
  if neg then -(x : Int) else x

/-- R113: conversion to an integer clamped to a range; NaN gives 0; out of range is invalid. -/
def fConvInt (f : FFmt) (nearest : Bool) (lo hi : Int) (a : Nat) : Int × Bool :=
  match fUnpack f a with
  | .nan _ => (0, true)
  | .inf n => (if n then lo else hi, true)
  | .fin n m e =>
    let x := fToInt nearest n m e
    (if x < lo then lo else if hi < x then hi else x, decide (x < lo ∨ hi < x))

/-- R113: conversion between the two formats; a NaN gives the canonical NaN. -/
def fConvert (src dst : FFmt) (a : Nat) : Nat × Bool :=
  match fUnpack src a with
  | .nan s => (fNan dst, s)
  | .inf n => (fInf dst n, false)
  | .fin n m e => fRound dst n m e

/-- R113: an integer to binary32. -/
def fFromInt (f : FFmt) (x : Int) : Nat := (fRound f (decide (x < 0)) x.natAbs 0).1

/-- R114: the one-hot class mask. -/
def fClass (f : FFmt) (a : Nat) : Nat :=
  match fUnpack f a with
  | .nan true => 2 ^ 8
  | .nan false => 2 ^ 9
  | .inf true => 1
  | .inf false => 2 ^ 7
  | .fin n m _ =>
    if m = 0 then (if n then 2 ^ 3 else 2 ^ 4)
    else if m < 2 ^ f.frac then (if n then 2 ^ 2 else 2 ^ 5)
    else (if n then 2 else 2 ^ 6)

/-- The B-unit compare conditions (R115). -/
inductive FCond where
  | eq | lt | le | un
deriving DecidableEq, Repr

/-- R115: the condition and whether invalid is signalled. -/
def fCond (f : FFmt) (c : FCond) (a b : Nat) : Bool × Bool :=
  let x := fUnpack f a
  let y := fUnpack f b
  let nan := x.isNan || y.isNan
  let sn := x.isSnan || y.isSnan
  match c with
  | .eq => (!nan && fCmp x y == .eq, sn)
  | .lt => (!nan && fCmp x y == .lt, nan)
  | .le => (!nan && fCmp x y != .gt, nan)
  | .un => (nan, sn)

end Sys2Proof.Machine
end

