-- ==== Sys2Proof/Machine/Integer.lean ====
section
/-! DEFINITION. The integer, guard-bit and bit-field commands (R95 to R108): one meaning each, over the pure operations of
Alu.lean. -/

namespace Sys2Proof.Machine

/-- A two-source operation on registers. -/
def State.alu3 (s : State) (t : Nat) (q : Pred) (rd ra rb : Reg) (o : AluOp) (iv : Nat) : State :=
  s.syl t q iv (fun s => s.wrReg t 0 rd (aluResult o (s.src t ra) (s.src t rb)))

/-- A two-source operation with an immediate (R94). -/
def State.aluI (s : State) (t : Nat) (q : Pred) (rd ra : Reg) (i : Word) (o : AluOp) (iv : Nat) : State :=
  s.syl t q iv (fun s => s.wrReg t 0 rd (aluResult o (s.src t ra) i))

/-- A one-source operation. -/
def State.alu1 (s : State) (t : Nat) (q : Pred) (rd ra : Reg) (f : Word → Word) : State :=
  s.syl t q 4 (fun s => s.wrReg t 0 rd (f (s.src t ra)))

/-- A one-source operation that may set ST.SOV (R97, R98). -/
def State.alu1s (s : State) (t : Nat) (q : Pred) (rd ra : Reg) (f : Word → Word × Bool) : State :=
  s.syl t q 4 (fun s => let r := f (s.src t ra); (s.wrReg t 0 rd r.1).sov t r.2)

/-- Pair addition and subtraction (R99); opcode `opc` for the reserved form (R78). -/
def State.pair3 (s : State) (t : Nat) (q : Pred) (opc : Nat) (rd ra rb : Reg) (sub signed : Bool) : State :=
  s.sylPair t q 4 opc rd ra rb (isPair rd && isPair ra && isPair rb)
    (fun s => s.wrPair t 0 rd (pairAddSub sub signed (s.srcPair t ra).1 (s.srcPair t ra).2 (s.srcPair t rb).1 (s.srcPair t rb).2))

/-- A compare writes PD and, when C = 1, the inverse to PD XOR 1 (R108). -/
def State.wrCmp (s : State) (t : Nat) (c : Bool) (pd : PReg) (v : Bool) : State :=
  let s := s.wrPred t pd v
  if c then s.wrPred t (Fin.ofNat 8 (Nat.xor pd.val 1)) (!v) else s

/-- An A-unit compare (R108). -/
def State.cmp (s : State) (t : Nat) (q : Pred) (c : Bool) (pd : PReg) (ra : Reg) (b : Opnd) (k : IntCond) : State :=
  s.syl t q 4 (fun s => s.wrCmp t c pd (intCond k (s.src t ra) (s.opnd t b)))

/-- R95. -/
def execAdd (t : Gtn) (q : Pred) (rd ra rb : Reg) (s : State) : Out :=
  s.ask (.add t q rd ra rb) (ok (s.alu3 t q rd ra rb .add 4))

/-- R95. -/
def execSub (t : Gtn) (q : Pred) (rd ra rb : Reg) (s : State) : Out :=
  s.ask (.sub t q rd ra rb) (ok (s.alu3 t q rd ra rb .sub 4))

/-- R95. -/
def execAnd (t : Gtn) (q : Pred) (rd ra rb : Reg) (s : State) : Out :=
  s.ask (.and t q rd ra rb) (ok (s.alu3 t q rd ra rb .and 4))

/-- R95. -/
def execOr (t : Gtn) (q : Pred) (rd ra rb : Reg) (s : State) : Out :=
  s.ask (.or t q rd ra rb) (ok (s.alu3 t q rd ra rb .or 4))

/-- R95. -/
def execXor (t : Gtn) (q : Pred) (rd ra rb : Reg) (s : State) : Out :=
  s.ask (.xor t q rd ra rb) (ok (s.alu3 t q rd ra rb .xor 4))

/-- R95. -/
def execAndn (t : Gtn) (q : Pred) (rd ra rb : Reg) (s : State) : Out :=
  s.ask (.andn t q rd ra rb) (ok (s.alu3 t q rd ra rb .andn 4))

/-- R95. -/
def execShl (t : Gtn) (q : Pred) (rd ra rb : Reg) (s : State) : Out :=
  s.ask (.shl t q rd ra rb) (ok (s.alu3 t q rd ra rb .shl 4))

/-- R95. -/
def execShr (t : Gtn) (q : Pred) (rd ra rb : Reg) (s : State) : Out :=
  s.ask (.shr t q rd ra rb) (ok (s.alu3 t q rd ra rb .shr 4))

/-- R95. -/
def execSra (t : Gtn) (q : Pred) (rd ra rb : Reg) (s : State) : Out :=
  s.ask (.sra t q rd ra rb) (ok (s.alu3 t q rd ra rb .sra 4))

/-- R95. -/
def execMin (t : Gtn) (q : Pred) (rd ra rb : Reg) (s : State) : Out :=
  s.ask (.min t q rd ra rb) (ok (s.alu3 t q rd ra rb .min 4))

/-- R95. -/
def execMax (t : Gtn) (q : Pred) (rd ra rb : Reg) (s : State) : Out :=
  s.ask (.max t q rd ra rb) (ok (s.alu3 t q rd ra rb .max 4))

/-- R95. -/
def execMinu (t : Gtn) (q : Pred) (rd ra rb : Reg) (s : State) : Out :=
  s.ask (.minu t q rd ra rb) (ok (s.alu3 t q rd ra rb .minu 4))

/-- R95. -/
def execMaxu (t : Gtn) (q : Pred) (rd ra rb : Reg) (s : State) : Out :=
  s.ask (.maxu t q rd ra rb) (ok (s.alu3 t q rd ra rb .maxu 4))

/-- R96. -/
def execSxB (t : Gtn) (q : Pred) (rd ra : Reg) (s : State) : Out :=
  s.ask (.sxB t q rd ra) (ok (s.alu1 t q rd ra (signExtFrom 8)))

/-- R96. -/
def execSxH (t : Gtn) (q : Pred) (rd ra : Reg) (s : State) : Out :=
  s.ask (.sxH t q rd ra) (ok (s.alu1 t q rd ra (signExtFrom 16)))

/-- R96. -/
def execSxW (t : Gtn) (q : Pred) (rd ra : Reg) (s : State) : Out :=
  s.ask (.sxW t q rd ra) (ok (s.alu1 t q rd ra (signExtFrom 32)))

/-- R96. -/
def execZxB (t : Gtn) (q : Pred) (rd ra : Reg) (s : State) : Out :=
  s.ask (.zxB t q rd ra) (ok (s.alu1 t q rd ra (zeroExtFrom 8)))

/-- R96. -/
def execZxH (t : Gtn) (q : Pred) (rd ra : Reg) (s : State) : Out :=
  s.ask (.zxH t q rd ra) (ok (s.alu1 t q rd ra (zeroExtFrom 16)))

/-- R96. -/
def execZxW (t : Gtn) (q : Pred) (rd ra : Reg) (s : State) : Out :=
  s.ask (.zxW t q rd ra) (ok (s.alu1 t q rd ra (zeroExtFrom 32)))

/-- R99. -/
def execAddP (t : Gtn) (q : Pred) (rd ra rb : Reg) (s : State) : Out :=
  s.ask (.addP t q rd ra rb) (ok (s.pair3 t q 0x13 rd ra rb false true))

/-- R99. -/
def execSubP (t : Gtn) (q : Pred) (rd ra rb : Reg) (s : State) : Out :=
  s.ask (.subP t q rd ra rb) (ok (s.pair3 t q 0x14 rd ra rb true true))

/-- R99. -/
def execAddPu (t : Gtn) (q : Pred) (rd ra rb : Reg) (s : State) : Out :=
  s.ask (.addPu t q rd ra rb) (ok (s.pair3 t q 0x15 rd ra rb false false))

/-- R99. -/
def execSubPu (t : Gtn) (q : Pred) (rd ra rb : Reg) (s : State) : Out :=
  s.ask (.subPu t q rd ra rb) (ok (s.pair3 t q 0x16 rd ra rb true false))

/-- R97. -/
def execSatB (t : Gtn) (q : Pred) (rd ra : Reg) (s : State) : Out :=
  s.ask (.satB t q rd ra) (ok (s.alu1s t q rd ra (satResult 8 true)))

/-- R97. -/
def execSatBu (t : Gtn) (q : Pred) (rd ra : Reg) (s : State) : Out :=
  s.ask (.satBu t q rd ra) (ok (s.alu1s t q rd ra (satResult 8 false)))

/-- R97. -/
def execSatH (t : Gtn) (q : Pred) (rd ra : Reg) (s : State) : Out :=
  s.ask (.satH t q rd ra) (ok (s.alu1s t q rd ra (satResult 16 true)))

/-- R97. -/
def execSatHu (t : Gtn) (q : Pred) (rd ra : Reg) (s : State) : Out :=
  s.ask (.satHu t q rd ra) (ok (s.alu1s t q rd ra (satResult 16 false)))

/-- R97. -/
def execSatW (t : Gtn) (q : Pred) (rd ra : Reg) (s : State) : Out :=
  s.ask (.satW t q rd ra) (ok (s.alu1s t q rd ra (satResult 32 true)))

/-- R97. -/
def execSatWu (t : Gtn) (q : Pred) (rd ra : Reg) (s : State) : Out :=
  s.ask (.satWu t q rd ra) (ok (s.alu1s t q rd ra (satResult 32 false)))

/-- R100. -/
def execSatP (t : Gtn) (q : Pred) (rd ra : Reg) (s : State) : Out :=
  s.ask (.satP t q rd ra) (ok (s.sylPair t q 4 0x26 rd ra 0 (isPair rd && isPair ra)
    (fun s => let r := satPair (s.srcPair t ra).1 (s.srcPair t ra).2; (s.wrPair t 0 rd r.1).sov t r.2)))

/-- R106. -/
def execClz (t : Gtn) (q : Pred) (rd ra : Reg) (s : State) : Out :=
  s.ask (.clz t q rd ra) (ok (s.alu1 t q rd ra (clz 36)))

/-- R106. -/
def execClzW (t : Gtn) (q : Pred) (rd ra : Reg) (s : State) : Out :=
  s.ask (.clzW t q rd ra) (ok (s.alu1 t q rd ra (fun a => clz 32 (zeroExtFrom 32 a))))

/-- R106. -/
def execCls (t : Gtn) (q : Pred) (rd ra : Reg) (s : State) : Out :=
  s.ask (.cls t q rd ra) (ok (s.alu1 t q rd ra cls))

/-- R107. -/
def execBperm (t : Gtn) (q : Pred) (rd ra rb : Reg) (s : State) : Out :=
  s.ask (.bperm t q rd ra rb) (ok (s.syl t q 4 (fun s => s.wrReg t 0 rd (bperm (s.src t ra) (s.src t rd) (s.src t rb)))))

/-- R101. -/
def execMul (t : Gtn) (q : Pred) (rd ra rb : Reg) (s : State) : Out :=
  s.ask (.mul t q rd ra rb) (ok (s.alu3 t q rd ra rb .mul 6))

/-- R101. -/
def execMulWp (t : Gtn) (q : Pred) (rd ra rb : Reg) (s : State) : Out :=
  s.ask (.mulWp t q rd ra rb) (ok (s.sylPair t q 6 0x41 rd ra rb (isPair rd)
    (fun s => s.wrPair t 0 rd (mulWide true (s.src t ra) (s.src t rb)))))

/-- R101. -/
def execMulWpu (t : Gtn) (q : Pred) (rd ra rb : Reg) (s : State) : Out :=
  s.ask (.mulWpu t q rd ra rb) (ok (s.sylPair t q 6 0x42 rd ra rb (isPair rd)
    (fun s => s.wrPair t 0 rd (mulWide false (s.src t ra) (s.src t rb)))))

/-- R102. -/
def execMacH (t : Gtn) (q : Pred) (rd ra rb : Reg) (s : State) : Out :=
  s.ask (.macH t q rd ra rb) (ok (s.syl t q 6 (fun s => s.wrReg t 0 rd (macHalf true (s.src t rd) (s.src t ra) (s.src t rb)))))

/-- R102. -/
def execMacHu (t : Gtn) (q : Pred) (rd ra rb : Reg) (s : State) : Out :=
  s.ask (.macHu t q rd ra rb) (ok (s.syl t q 6 (fun s => s.wrReg t 0 rd (macHalf false (s.src t rd) (s.src t ra) (s.src t rb)))))

/-- R102. -/
def execMacP (t : Gtn) (q : Pred) (rd ra rb : Reg) (s : State) : Out :=
  s.ask (.macP t q rd ra rb) (ok (s.sylPair t q 6 0x46 rd ra rb (isPair rd)
    (fun s => s.wrPair t 0 rd (macPair (s.srcPair t rd).1 (s.srcPair t rd).2 (s.src t ra) (s.src t rb)))))

/-- R94. -/
def execAddi (t : Gtn) (q : Pred) (rd ra : Reg) (i : Word) (s : State) : Out :=
  s.ask (.addi t q rd ra i) (ok (s.aluI t q rd ra i .add 4))

/-- R94. -/
def execAndi (t : Gtn) (q : Pred) (rd ra : Reg) (i : Word) (s : State) : Out :=
  s.ask (.andi t q rd ra i) (ok (s.aluI t q rd ra i .and 4))

/-- R94. -/
def execOri (t : Gtn) (q : Pred) (rd ra : Reg) (i : Word) (s : State) : Out :=
  s.ask (.ori t q rd ra i) (ok (s.aluI t q rd ra i .or 4))

/-- R94. -/
def execXori (t : Gtn) (q : Pred) (rd ra : Reg) (i : Word) (s : State) : Out :=
  s.ask (.xori t q rd ra i) (ok (s.aluI t q rd ra i .xor 4))

/-- R94. -/
def execShli (t : Gtn) (q : Pred) (rd ra : Reg) (i : Word) (s : State) : Out :=
  s.ask (.shli t q rd ra i) (ok (s.aluI t q rd ra i .shl 4))

/-- R94. -/
def execShri (t : Gtn) (q : Pred) (rd ra : Reg) (i : Word) (s : State) : Out :=
  s.ask (.shri t q rd ra i) (ok (s.aluI t q rd ra i .shr 4))

/-- R94. -/
def execSrai (t : Gtn) (q : Pred) (rd ra : Reg) (i : Word) (s : State) : Out :=
  s.ask (.srai t q rd ra i) (ok (s.aluI t q rd ra i .sra 4))

/-- R94. -/
def execMini (t : Gtn) (q : Pred) (rd ra : Reg) (i : Word) (s : State) : Out :=
  s.ask (.mini t q rd ra i) (ok (s.aluI t q rd ra i .min 4))

/-- R94. -/
def execMaxi (t : Gtn) (q : Pred) (rd ra : Reg) (i : Word) (s : State) : Out :=
  s.ask (.maxi t q rd ra i) (ok (s.aluI t q rd ra i .max 4))

/-- R94. -/
def execMinui (t : Gtn) (q : Pred) (rd ra : Reg) (i : Word) (s : State) : Out :=
  s.ask (.minui t q rd ra i) (ok (s.aluI t q rd ra i .minu 4))

/-- R94. -/
def execMaxui (t : Gtn) (q : Pred) (rd ra : Reg) (i : Word) (s : State) : Out :=
  s.ask (.maxui t q rd ra i) (ok (s.aluI t q rd ra i .maxu 4))

/-- R94. -/
def execMuli (t : Gtn) (q : Pred) (rd ra : Reg) (i : Word) (s : State) : Out :=
  s.ask (.muli t q rd ra i) (ok (s.aluI t q rd ra i .mul 6))

/-- R94. -/
def execRsubi (t : Gtn) (q : Pred) (rd ra : Reg) (i : Word) (s : State) : Out :=
  s.ask (.rsubi t q rd ra i) (ok (s.syl t q 4 (fun s => s.wrReg t 0 rd (aluResult .sub i (s.src t ra)))))

/-- R105, R88. -/
def execBfx (t : Gtn) (q : Pred) (rd ra : Reg) (pos : Nat) (wm1 : Fin 32) (s : State) : Out :=
  s.ask (.bfx t q rd ra pos wm1) (ok (if pos < 36 then s.syl t q 4 (fun s => s.wrReg t 0 rd (bfx (s.src t ra) pos wm1))
    else s.reserved t q 0 (bfdBody 0 rd ra pos wm1)))

/-- R105, R88. -/
def execBfi (t : Gtn) (q : Pred) (rd ra : Reg) (pos : Nat) (wm1 : Fin 32) (s : State) : Out :=
  s.ask (.bfi t q rd ra pos wm1) (ok (if pos < 36 then s.syl t q 4 (fun s => s.wrReg t 0 rd (bfi (s.src t rd) (s.src t ra) pos wm1))
    else s.reserved t q 0 (bfdBody 1 rd ra pos wm1)))

/-- R108. -/
def execEq (t : Gtn) (q : Pred) (c : Bool) (pd : PReg) (ra : Reg) (b : Opnd) (s : State) : Out :=
  s.ask (.eq t q c pd ra b) (ok (s.cmp t q c pd ra b .eq))

/-- R108. -/
def execNe (t : Gtn) (q : Pred) (c : Bool) (pd : PReg) (ra : Reg) (b : Opnd) (s : State) : Out :=
  s.ask (.ne t q c pd ra b) (ok (s.cmp t q c pd ra b .ne))

/-- R108. -/
def execLt (t : Gtn) (q : Pred) (c : Bool) (pd : PReg) (ra : Reg) (b : Opnd) (s : State) : Out :=
  s.ask (.lt t q c pd ra b) (ok (s.cmp t q c pd ra b .lt))

/-- R108. -/
def execGe (t : Gtn) (q : Pred) (c : Bool) (pd : PReg) (ra : Reg) (b : Opnd) (s : State) : Out :=
  s.ask (.ge t q c pd ra b) (ok (s.cmp t q c pd ra b .ge))

/-- R108. -/
def execLe (t : Gtn) (q : Pred) (c : Bool) (pd : PReg) (ra : Reg) (b : Opnd) (s : State) : Out :=
  s.ask (.le t q c pd ra b) (ok (s.cmp t q c pd ra b .le))

/-- R108. -/
def execGt (t : Gtn) (q : Pred) (c : Bool) (pd : PReg) (ra : Reg) (b : Opnd) (s : State) : Out :=
  s.ask (.gt t q c pd ra b) (ok (s.cmp t q c pd ra b .gt))

/-- R108. -/
def execLtu (t : Gtn) (q : Pred) (c : Bool) (pd : PReg) (ra : Reg) (b : Opnd) (s : State) : Out :=
  s.ask (.ltu t q c pd ra b) (ok (s.cmp t q c pd ra b .ltu))

/-- R108. -/
def execGeu (t : Gtn) (q : Pred) (c : Bool) (pd : PReg) (ra : Reg) (b : Opnd) (s : State) : Out :=
  s.ask (.geu t q c pd ra b) (ok (s.cmp t q c pd ra b .geu))

/-- R108. -/
def execLeu (t : Gtn) (q : Pred) (c : Bool) (pd : PReg) (ra : Reg) (b : Opnd) (s : State) : Out :=
  s.ask (.leu t q c pd ra b) (ok (s.cmp t q c pd ra b .leu))

/-- R108. -/
def execGtu (t : Gtn) (q : Pred) (c : Bool) (pd : PReg) (ra : Reg) (b : Opnd) (s : State) : Out :=
  s.ask (.gtu t q c pd ra b) (ok (s.cmp t q c pd ra b .gtu))

/-- R108. -/
def execTst (t : Gtn) (q : Pred) (c : Bool) (pd : PReg) (ra : Reg) (b : Opnd) (s : State) : Out :=
  s.ask (.tst t q c pd ra b) (ok (s.cmp t q c pd ra b .tst))

/-- R108. -/
def execNtst (t : Gtn) (q : Pred) (c : Bool) (pd : PReg) (ra : Reg) (b : Opnd) (s : State) : Out :=
  s.ask (.ntst t q c pd ra b) (ok (s.cmp t q c pd ra b .ntst))

/-- R89, R90. -/
def execReservedEncoding (t : Gtn) (q : Pred) (body : ResSyl) (s : State) : Out :=
  s.ask (.reservedEncoding t q body) (ok (s.reserved t q body.unit.val body.bits.toNat))

end Sys2Proof.Machine
end

