-- ==== Sys2Proof/Machine/FloatOps.lean ====
section
/-! DEFINITION. The floating-point commands (R109 to R115) over the pure operations of Float.lean. -/

namespace Sys2Proof.Machine

/-- A floating-point source of a format (R109). -/
def fSrc (f : FFmt) (w : Word) : Nat := w.toNat % 2 ^ f.width

/-- A floating-point operation: the result with every bit above its format zero, and ST.SOV (R109, R111). -/
def State.fp (s : State) (t : Nat) (q : Pred) (rd : Reg) (f : State → Nat × Bool) : State :=
  s.syl t q 8 (fun s => let r := f s; (s.wrReg t 0 rd (BitVec.ofNat 36 r.1)).sov t r.2)

/-- A B-unit compare (R115). -/
def State.fcmp (s : State) (t : Nat) (q : Pred) (c : Bool) (pd : PReg) (ra : Reg) (b : Opnd) (f : FFmt) (k : FCond) : State :=
  s.syl t q 8 (fun s =>
    let r := fCond f k (fSrc f (s.src t ra)) (fSrc f (s.opnd t b))
    (s.wrCmp t c pd r.1).sov t r.2)

/-- A conversion to an integer (R113). -/
def State.fToReg (s : State) (t : Nat) (q : Pred) (rd ra : Reg) (nearest : Bool) (lo hi : Int) : State :=
  s.syl t q 8 (fun s =>
    let r := fConvInt fmtS nearest lo hi (fSrc fmtS (s.src t ra))
    (s.wrReg t 0 rd (BitVec.ofInt 36 r.1)).sov t r.2)

/-- R112. -/
def execFaddS (t : Gtn) (q : Pred) (rd ra rb : Reg) (s : State) : Out :=
  s.ask (.faddS t q rd ra rb) (ok (s.fp t q rd (fun s => fAdd fmtS (fSrc fmtS (s.src t ra)) (fSrc fmtS (s.src t rb)))))

/-- R112. -/
def execFsubS (t : Gtn) (q : Pred) (rd ra rb : Reg) (s : State) : Out :=
  s.ask (.fsubS t q rd ra rb) (ok (s.fp t q rd (fun s => fSub fmtS (fSrc fmtS (s.src t ra)) (fSrc fmtS (s.src t rb)))))

/-- R112. -/
def execFmulS (t : Gtn) (q : Pred) (rd ra rb : Reg) (s : State) : Out :=
  s.ask (.fmulS t q rd ra rb) (ok (s.fp t q rd (fun s => fMul fmtS (fSrc fmtS (s.src t ra)) (fSrc fmtS (s.src t rb)))))

/-- R112. -/
def execFmaS (t : Gtn) (q : Pred) (rd ra rb : Reg) (s : State) : Out :=
  s.ask (.fmaS t q rd ra rb) (ok (s.fp t q rd (fun s => fFma fmtS (fSrc fmtS (s.src t ra)) (fSrc fmtS (s.src t rb)) (fSrc fmtS (s.src t rd)))))

/-- R112. -/
def execFminS (t : Gtn) (q : Pred) (rd ra rb : Reg) (s : State) : Out :=
  s.ask (.fminS t q rd ra rb) (ok (s.fp t q rd (fun s => fMinMax fmtS false (fSrc fmtS (s.src t ra)) (fSrc fmtS (s.src t rb)))))

/-- R112. -/
def execFmaxS (t : Gtn) (q : Pred) (rd ra rb : Reg) (s : State) : Out :=
  s.ask (.fmaxS t q rd ra rb) (ok (s.fp t q rd (fun s => fMinMax fmtS true (fSrc fmtS (s.src t ra)) (fSrc fmtS (s.src t rb)))))

/-- R110. -/
def execFabsS (t : Gtn) (q : Pred) (rd ra : Reg) (s : State) : Out :=
  s.ask (.fabsS t q rd ra) (ok (s.fp t q rd (fun s => (fSrc fmtS (s.src t ra) % 2 ^ (fmtS.width - 1), false))))

/-- R110. -/
def execFnegS (t : Gtn) (q : Pred) (rd ra : Reg) (s : State) : Out :=
  s.ask (.fnegS t q rd ra) (ok (s.fp t q rd (fun s => (Nat.xor (fSrc fmtS (s.src t ra)) (2 ^ (fmtS.width - 1)), false))))

/-- R112. -/
def execFaddH (t : Gtn) (q : Pred) (rd ra rb : Reg) (s : State) : Out :=
  s.ask (.faddH t q rd ra rb) (ok (s.fp t q rd (fun s => fAdd fmtH (fSrc fmtH (s.src t ra)) (fSrc fmtH (s.src t rb)))))

/-- R112. -/
def execFsubH (t : Gtn) (q : Pred) (rd ra rb : Reg) (s : State) : Out :=
  s.ask (.fsubH t q rd ra rb) (ok (s.fp t q rd (fun s => fSub fmtH (fSrc fmtH (s.src t ra)) (fSrc fmtH (s.src t rb)))))

/-- R112. -/
def execFmulH (t : Gtn) (q : Pred) (rd ra rb : Reg) (s : State) : Out :=
  s.ask (.fmulH t q rd ra rb) (ok (s.fp t q rd (fun s => fMul fmtH (fSrc fmtH (s.src t ra)) (fSrc fmtH (s.src t rb)))))

/-- R112. -/
def execFmaH (t : Gtn) (q : Pred) (rd ra rb : Reg) (s : State) : Out :=
  s.ask (.fmaH t q rd ra rb) (ok (s.fp t q rd (fun s => fFma fmtH (fSrc fmtH (s.src t ra)) (fSrc fmtH (s.src t rb)) (fSrc fmtH (s.src t rd)))))

/-- R112. -/
def execFminH (t : Gtn) (q : Pred) (rd ra rb : Reg) (s : State) : Out :=
  s.ask (.fminH t q rd ra rb) (ok (s.fp t q rd (fun s => fMinMax fmtH false (fSrc fmtH (s.src t ra)) (fSrc fmtH (s.src t rb)))))

/-- R112. -/
def execFmaxH (t : Gtn) (q : Pred) (rd ra rb : Reg) (s : State) : Out :=
  s.ask (.fmaxH t q rd ra rb) (ok (s.fp t q rd (fun s => fMinMax fmtH true (fSrc fmtH (s.src t ra)) (fSrc fmtH (s.src t rb)))))

/-- R110. -/
def execFabsH (t : Gtn) (q : Pred) (rd ra : Reg) (s : State) : Out :=
  s.ask (.fabsH t q rd ra) (ok (s.fp t q rd (fun s => (fSrc fmtH (s.src t ra) % 2 ^ (fmtH.width - 1), false))))

/-- R110. -/
def execFnegH (t : Gtn) (q : Pred) (rd ra : Reg) (s : State) : Out :=
  s.ask (.fnegH t q rd ra) (ok (s.fp t q rd (fun s => (Nat.xor (fSrc fmtH (s.src t ra)) (2 ^ (fmtH.width - 1)), false))))

/-- R113. -/
def execFcvtSH (t : Gtn) (q : Pred) (rd ra : Reg) (s : State) : Out :=
  s.ask (.fcvtSH t q rd ra) (ok (s.fp t q rd (fun s => fConvert fmtH fmtS (fSrc fmtH (s.src t ra)))))

/-- R113. -/
def execFcvtHS (t : Gtn) (q : Pred) (rd ra : Reg) (s : State) : Out :=
  s.ask (.fcvtHS t q rd ra) (ok (s.fp t q rd (fun s => fConvert fmtS fmtH (fSrc fmtS (s.src t ra)))))

/-- R113. -/
def execFcvtSW (t : Gtn) (q : Pred) (rd ra : Reg) (s : State) : Out :=
  s.ask (.fcvtSW t q rd ra) (ok (s.fp t q rd (fun s => (fFromInt fmtS (s.src t ra).toInt, false))))

/-- R113. -/
def execFcvtSWu (t : Gtn) (q : Pred) (rd ra : Reg) (s : State) : Out :=
  s.ask (.fcvtSWu t q rd ra) (ok (s.fp t q rd (fun s => (fFromInt fmtS (s.src t ra).toNat, false))))

/-- R113. -/
def execFcvtWS (t : Gtn) (q : Pred) (rd ra : Reg) (s : State) : Out :=
  s.ask (.fcvtWS t q rd ra) (ok (s.fToReg t q rd ra false (-(2 ^ 31)) (2 ^ 31 - 1)))

/-- R113. -/
def execFcvtWSN (t : Gtn) (q : Pred) (rd ra : Reg) (s : State) : Out :=
  s.ask (.fcvtWSN t q rd ra) (ok (s.fToReg t q rd ra true (-(2 ^ 31)) (2 ^ 31 - 1)))

/-- R113. -/
def execFcvtWuS (t : Gtn) (q : Pred) (rd ra : Reg) (s : State) : Out :=
  s.ask (.fcvtWuS t q rd ra) (ok (s.fToReg t q rd ra false 0 (2 ^ 32 - 1)))

/-- R114. -/
def execFclassS (t : Gtn) (q : Pred) (rd ra : Reg) (s : State) : Out :=
  s.ask (.fclassS t q rd ra) (ok (s.fp t q rd (fun s => (fClass fmtS (fSrc fmtS (s.src t ra)), false))))

/-- R114. -/
def execFclassH (t : Gtn) (q : Pred) (rd ra : Reg) (s : State) : Out :=
  s.ask (.fclassH t q rd ra) (ok (s.fp t q rd (fun s => (fClass fmtH (fSrc fmtH (s.src t ra)), false))))

/-- R115. -/
def execFeqS (t : Gtn) (q : Pred) (c : Bool) (pd : PReg) (ra : Reg) (b : Opnd) (s : State) : Out :=
  s.ask (.feqS t q c pd ra b) (ok (s.fcmp t q c pd ra b fmtS .eq))

/-- R115. -/
def execFltS (t : Gtn) (q : Pred) (c : Bool) (pd : PReg) (ra : Reg) (b : Opnd) (s : State) : Out :=
  s.ask (.fltS t q c pd ra b) (ok (s.fcmp t q c pd ra b fmtS .lt))

/-- R115. -/
def execFleS (t : Gtn) (q : Pred) (c : Bool) (pd : PReg) (ra : Reg) (b : Opnd) (s : State) : Out :=
  s.ask (.fleS t q c pd ra b) (ok (s.fcmp t q c pd ra b fmtS .le))

/-- R115. -/
def execFunS (t : Gtn) (q : Pred) (c : Bool) (pd : PReg) (ra : Reg) (b : Opnd) (s : State) : Out :=
  s.ask (.funS t q c pd ra b) (ok (s.fcmp t q c pd ra b fmtS .un))

/-- R115. -/
def execFeqH (t : Gtn) (q : Pred) (c : Bool) (pd : PReg) (ra : Reg) (b : Opnd) (s : State) : Out :=
  s.ask (.feqH t q c pd ra b) (ok (s.fcmp t q c pd ra b fmtH .eq))

/-- R115. -/
def execFltH (t : Gtn) (q : Pred) (c : Bool) (pd : PReg) (ra : Reg) (b : Opnd) (s : State) : Out :=
  s.ask (.fltH t q c pd ra b) (ok (s.fcmp t q c pd ra b fmtH .lt))

/-- R115. -/
def execFleH (t : Gtn) (q : Pred) (c : Bool) (pd : PReg) (ra : Reg) (b : Opnd) (s : State) : Out :=
  s.ask (.fleH t q c pd ra b) (ok (s.fcmp t q c pd ra b fmtH .le))

/-- R115. -/
def execFunH (t : Gtn) (q : Pred) (c : Bool) (pd : PReg) (ra : Reg) (b : Opnd) (s : State) : Out :=
  s.ask (.funH t q c pd ra b) (ok (s.fcmp t q c pd ra b fmtH .un))

end Sys2Proof.Machine
end

