-- ==== Sys2Proof/Machine/Thread.lean ====
section
/-! DEFINITION. The thread engine (chapters 02 and 06): fetch, issue, the bundle boundary, entries, lock-up, waits, holds, paired
mismatch, and the end of table walks. -/

namespace Sys2Proof.Machine

/-! ## Fetch (R47, R48, R158, R192) -/

/-- The bytes of the bundle that framing reads (R71). -/
def bundleBytes (l : List Byte) : Nat :=
  match frameRead 4 0 l [] with
  | .good ws => 4 * ws.length
  | .bad _ p => 4 * (p + 1)

/-! ### Early launch (R56 to R58; log 18) -/

/-- The registers that the address of an M-unit load is formed from (R116). -/
def sylBase (w : W32) : List Nat := if sylFmt w = 1 then [bits w 12 8] else [bits w 9 5, bits w 4 0]

/-- The plain load of a bundle and its length. -/
def bundleLoad (ws : List W32) : Option (W32 × Nat) :=
  ws.findSome? (fun w => match loadOf w with
    | some (n, true) => some (w, n)
    | _ => none)

/-- The lookup of a launched load in the L1D, and its read of the L2 where that misses. -/
def State.launchAt (s : State) (t : Nat) (pc : Word) (pa n : Nat) : State :=
  let core := coreOf t
  let line := pa / 64
  let put (s : State) (back : Bool) : State := s.modTh t (fun x => { x with launch := some { addr := pc, line := line, back := back } })
  let s := s.l1dCheck core pa n
  if s.inL1d core line then put (s.fillL1d core line) true
  else (put ((s.wantRead (clusterOf t) line).corePerf t 0x011) false).l2Perf (clusterOf t) 0x101

/-- R56: the load of a predicted bundle `ws` at `pc` is launched; `dests` are the destinations of the executing bundle. A launch stops where
neither the DTLB nor the cluster's TLB translates, where the permission fails, and at anything but a normal region. -/
def State.launchLoad (s : State) (t : Nat) (pc : Word) (dests : List Nat) (ws : List W32) : State :=
  match bundleLoad ws with
  | none => s
  | some (w, n) =>
    if (sylBase w).any (fun r => r != 0 && dests.contains r) then s
    else match pieces ((s.th t).ctx.sylEa ws w) n with
      | [p] =>
        (match s.translate t p.va .read with
         | (.hit pa _, s) => if (s.region pa).normal then s.launchAt t pc pa n else s
         | (_, s) => s)
      | _ => s

/-- The launch that waited for a line: the bundle that a thread has loaded is the predicted one, or there is no launch. -/
def State.launchWaiting (s : State) (t : Nat) : State :=
  let x := s.th t
  match x.elWant, x.buf with
  | some (pc, dests), some l =>
    let s := s.setTh t { x with elWant := none }
    if pc = x.ctx.pc ∧ x.fetch = .loaded then
      (match frameBundle false (l.bytes.drop (pc.toNat % 64)) with
       | .good ws => s.launchLoad t pc dests ws
       | .bad _ _ => s)
    else s
  | _, _ => s

/-- The bytes of a line as the thread's line buffer or its core's L1I holds them, where the core's ITLB or the cluster's TLB translates. -/
def State.peekLine (s : State) (t : Nat) (pc : Word) : Option (List Byte) :=
  let x := s.th t
  let va := pc.toNat / 64 * 64
  match x.buf.filter (fun b => b.va == va) with
  | some b => some b.bytes
  | none =>
    let pa := if x.flat then some va
      else (s.tlbs.find? (fun e => !e.bad && (e.hits (.itlb (coreOf t)) x.berth x.asid.toNat va ||
        e.hits (.l2 (clusterOf t)) x.berth x.asid.toNat va))).map (fun e => e.outPa va)
    pa.bind (fun a => s.coh.l1i.lookup (lineKey (coreOf t) (a / 64)))

/-- Does a bundle end where its successor is not predicted: an indirect branch (R55); where it executes, a call, a return, a wait, SYNC.C,
PBAR, or a customer pattern, whose destinations are not named. -/
def Ctx.unpredicted (c : Ctx) (w : W32) : Bool :=
  let opc := bits w 21 16
  !sylLim w && sylUnit w == 3 &&
  ((sylFmt w == 0 && (bits w 21 15 == 2 || bits w 21 15 == 3)) ||
   (sylFmt w == 1 && (c.rdP (bits w 28 26) != bit w 25) && decide (opc ≤ 7) && opc != 5))

/-- R53, R54: the predicted successor of a bundle. -/
def State.predicted (s : State) (t : Nat) (b : Bundle) (ws : List W32) : Option Word :=
  let x := s.th t
  if x.pbar || ws.any b.old.unpredicted then none
  else match ws.getLast? with
    | some w =>
      if !sylLim w && sylUnit w == 3 && sylFmt w == 2 then
        (let cond := bits w 28 26 != 0 || bit w 25
         let n : BitVec 2 := Tbl.get (fun _ => (1 : BitVec 2)) (s.core (coreOf t)).pred (predIndex b.addr x.hist t)
         let guess := !cond || (if stDyn b.old.st then decide (2 ≤ n.toNat) else bit w 20)
         some (if guess then b.addr + BitVec.ofInt 36 ((w.setWidth 20).toInt * 4) else b.next))
      else some b.next
    | none => none

/-- R56: what a bundle's issue launches: the load of its predicted successor, at once where that bundle's line is at hand, else when the line
comes. -/
def State.launchNext (s : State) (t : Nat) (b : Bundle) (ws : List W32) : State :=
  let dests := ws.flatMap sylDests
  match s.predicted t b ws with
  | none => s
  | some pc =>
    match s.peekLine t pc with
    | some bytes =>
      (match frameBundle false (bytes.drop (pc.toNat % 64)) with
       | .good ws' => s.launchLoad t pc dests ws'
       | .bad _ _ => s)
    | none => s.modTh t (fun x => { x with elWant := some (pc, dests) })

/-! ### The fetch of a bundle -/

/-- A line comes into a thread's line buffer; a bundle with a byte in a poisoned word cannot be fetched (R230). -/
def State.loadLine (s : State) (t : Nat) (l : LineBuf) : State :=
  let x := s.th t
  let off := x.ctx.pc.toNat % 64
  let f : Fetch := match s.firstPoison (l.pa + off) (bundleBytes (l.bytes.drop off)) with
    | some a => .failed (lostCause false true x.ctx.pc (l.va + (a - l.pa)))
    | none => .loaded
  (s.setTh t { x with buf := some l, fetch := f }).launchWaiting t

/-- R203: the bytes of a bundle in a line buffer whose parity is wrong. -/
def LineBuf.wrong (l : LineBuf) (pc : Word) : BitVec 64 :=
  let off := pc.toNat % 64
  l.bad &&& byteMask off (bundleBytes (l.bytes.drop off))

/-- R203: a parity error found in a thread's line buffer: the copies of the line in it and in the L1I are given up. -/
def State.dropBuf (s : State) (t : Nat) (l : LineBuf) (pc : Word) : State :=
  let core := coreOf t
  let s := s.modCoh (fun h => { h with
    l1i := Tbl.del h.l1i (lineKey core (l.pa / 64)), l1iBad := Tbl.del h.l1iBad (lineKey core (l.pa / 64)) })
  (s.modTh t (fun x => { x with buf := none, fetch := .empty })).l1Parity core (l.pa / 64) (firstWord (l.wrong pc)) 3

/-- R189, R203: the L1I's bytes of a line; a line with a parity error is given up. -/
def State.readL1i (s : State) (core line : Nat) : Option (List Byte) × State :=
  let k := lineKey core line
  match s.coh.l1i.lookup k with
  | none => (none, s)
  | some bs =>
    let m := Tbl.get (fun _ => (0 : BitVec 64)) s.coh.l1iBad k
    let c : CacheId := .l1i core
    if m = 0 then
      (some bs, match c.touch (s.cset c line) line (fun l => (s.coh.l1i.lookup (lineKey core l)).isSome) (fun _ => true) with
        | .hit x => s.setCset c line x
        | _ => s)
    else (none, (s.modCoh (fun h => { h with l1i := Tbl.del h.l1i k, l1iBad := Tbl.del h.l1iBad k })).l1Parity core line (firstWord m) 1)

/-- R189, R192: the L1I takes a line. -/
def State.fillL1i (s : State) (core line : Nat) (bs : List Byte) : State :=
  let c : CacheId := .l1i core
  let put (s : State) (x : CSet) : State :=
    (s.modCoh (fun h => { h with
      l1i := Tbl.ins (lineKey core line) bs (Tbl.del h.l1i (lineKey core line)), l1iBad := Tbl.del h.l1iBad (lineKey core line) })).setCset c
        line x
  match c.touch (s.cset c line) line (fun l => (s.coh.l1i.lookup (lineKey core l)).isSome) (fun _ => true) with
  | .hit x => put s x
  | .fill x none => put s x
  | .fill x (some v) =>
    put (s.modCoh (fun h => { h with l1i := Tbl.del h.l1i (lineKey core v), l1iBad := Tbl.del h.l1iBad (lineKey core v) })) x
  | .full => s

/-- R16, R15: the cause of a fetch that a region refuses. -/
def fetchCause (reg : Region) (pc : Word) : Option Cause :=
  let nx : Cause := { cls := 3, detail := 1, target := 1, level := some 15, xra := pc, xfa := pc }
  match reg with
  | .device => some nx
  | .pcie => some nx
  | .absent => some (busCause false true 0 pc pc.toNat)
  | _ => none

/-- What a fetch waits for, or how it failed. -/
def State.setFetch (s : State) (t : Nat) (f : Fetch) : State := s.modTh t (fun x => { x with fetch := f })

/-- The next bundle's line is fetched: from the line buffer, the L1I, or the L2 (LINE_FILL_ARRIVE). -/
def State.startFetch (s : State) (t : Nat) : State :=
  let x := s.th t
  let pc := x.ctx.pc
  let va := pc.toNat / 64 * 64
  match x.buf.filter (fun b => b.va == va) with
  | some b => s.loadLine t b
  | none =>
    match s.translate t pc.toNat .exec with
    | (.miss, s) => (((s.setFetch t .walk).startWalk t pc.toNat).corePerf t 0x015).walkPerf t
    | (.fail f, s) => s.setFetch t (.failed (failCause f false true pc pc.toNat))
    | (.hit pa _, s) =>
      match fetchCause (s.region pa) pc with
      | some c => s.setFetch t (.failed c)
      | none =>
        let line := pa / 64
        match s.readL1i (coreOf t) line with
        | (some bs, s) => s.loadLine t { va := va, pa := line * 64, bytes := bs }
        | (none, s) =>
          (((s.setFetch t (.line (line * 64))).wantRead (clusterOf t) line).corePerf t 0x010).l2Perf (clusterOf t) 0x101

/-- A thread whose first bundle is to issue as a wake issue joins the wake queue when that bundle is loaded (R50, R157): it is ready
6 cycles later after a wake, 5 after an interrupt. -/
def State.joinQueue (s : State) (t : Nat) : State :=
  let x := s.th t
  if x.wakeNext && x.fetch == .loaded && x.state == .run then
    (s.setTh t { x with wakeNext := false, readyAt := s.cycleOf t + (if x.byIntr then 5 else 6) }).enqueue t
  else s

/-- A fetch, and the wake queue where it is loaded at once. -/
def State.fetchNext (s : State) (t : Nat) : State := (s.startFetch t).joinQueue t

/-- The line that a thread's fetch waits for has come: the L1I and the line buffer hold it; the bundle is ready 4 cycles later (R41). -/
def State.fetchArrives (s : State) (t pa : Nat) : State :=
  let line := pa / 64
  if !s.readable (clusterOf t) line then s.wantRead (clusterOf t) line
  else if s.flashWaits pa then s
  else
    let a := clusterOf t
    let r := s.copyRead (1 + a) line (coreOf t) 0 false (s.aline a line).st.only
    if r.1 then (r.2.evict a line).wantRead a line
    else
    let s := r.2.agentUse a line
    let bs := s.coreBytes a pa 64
    let s := s.fillL1i (coreOf t) line bs
    let s := s.loadLine t { va := (s.th t).ctx.pc.toNat / 64 * 64, pa := pa, bytes := bs }
    (s.modTh t (fun x => { x with readyAt := Nat.max x.readyAt (s.cycleOf t + 4) })).joinQueue t

/-- May a thread's fetch go on. -/
def State.fetching (s : State) (t : Nat) : Bool :=
  let x := s.th t
  s.coreRuns (coreOf t) && (x.state == .run || x.state == .wait) && x.bun.isNone && !x.resetting

/-- R41, R192: a line arrives; a thread that has fetched nothing begins its fetch. -/
def execLineFillArrive (t : Gtn) (s : State) : Out :=
  match (s.th t).fetch with
  | .empty => whenOk (s.fetching t) s (s.fetchNext t)
  | .line pa => whenOk (s.fetching t) s (s.fetchArrives t pa)
  | _ => ok s

/-! ## Entries (R153, R156) -/

/-- The berth counter of a fault class (R342). -/
def State.faultCount (s : State) (t cls : Nat) : State :=
  let r := match cls with
    | 7 => 3
    | 9 => 4
    | 8 => 5
    | 1 => 6
    | 10 => 7
    | _ => 0
  if r = 0 then s else s.count (0x100 + (s.th t).berth) r

/-- What follows an entry: trace (R469), the counter, and the fetch of the vector. -/
def State.entered (s : State) (t cls level : Nat) (esc : Bool) (st xra : Word) : State :=
  let s := if s.traced t st then s.encExc t cls level esc xra (s.th t).ctx.pc else s
  (s.corePerf t 0x01C).fetchNext t

/-- R153: a synchronous cause is taken; `addr` is the bundle's address, `late` the cycles to the handler's first bundle. -/
def State.takeCause (s : State) (t : Nat) (c : Cause) (addr : Word) (late : Nat) : State :=
  let x := s.th t
  let st := x.ctx.st
  let s := s.faultCount t c.cls
  match takeSync x.bndSt c with
  | .lock k => s.lockThread t k c.cls addr 0
  | .enter level esc =>
    let y := x.enter level c.xra (xcaValue c.cls c.detail 0 0 esc (stPl st)) c.xfa (stSync st level esc) c.tfi c.cls
    (s.setTh t { y with wakeNext := false, readyAt := s.cycleOf t + late }).entered t c.cls level esc st c.xra

/-- R154, R156, R157, R263: a presented interrupt is accepted; its first bundle issues as a wake issue. -/
def State.acceptIntr (s : State) (t : Nat) (i : Intr) : State :=
  let x := s.th t
  let c := x.ctx
  let m := c.wPend &&& c.wMask
  let c := if x.state = .wait then { c with wLast := m, wPend := c.wPend &&& ~~~m }
           else if x.resuming then { c with wLast := 0 } else c
  let y := ({ x with ctx := c }).enter i.level c.pc (xcaValue 0 0 i.event i.prio false (stPl c.st)) 0
    (stIntr c.st i.level i.prio) none 0
  ((s.clearPend i.entry).setTh t { y with state := .run, wakeNext := true, byIntr := true }).entered t 0 i.level false c.st c.pc

/-! ## The boundary (R159) -/

/-- The synchronous cause that waits at a boundary, and the cycles to its handler: that of the bundle just executed, or the failed
fetch of the next (R158). -/
def Thread.waiting (x : Thread) : Option (Cause × Nat) :=
  match x.pend with
  | some c => some (c, 0)
  | none => match x.fetch with
    | .failed c => some (c, 10)
    | _ => none

/-- R38, R127: a thread becomes HELD. -/
def State.holdNow (s : State) (t : Nat) : State :=
  ((s.launchLost t).unqueue t).modTh t (fun x => { x.held with link := none, wakeNext := false })

/-- R48: a failed fetch of the resume bundle: the thread does not park. -/
def Thread.notParked (x : Thread) : Thread :=
  if x.resuming then { x with ctx := { x.ctx with wLast := 0 }, resuming := false } else x

/-- A failed fetch is the cause of the bundle that follows: it meets ST as that bundle would (R158, R162). -/
def Thread.fetchSt (x : Thread) : Thread := if x.pend.isSome then x else { x with bndEnt := none }

/-- The boundary of a thread's last bundle is past. -/
def State.passed (s : State) (t : Nat) : State := s.modTh t (fun x => { x with bnd := false, bndEnt := none })

/-- R41, R155, R158: has the moment of the boundary of the thread's last bundle come: a cause waits, or the next bundle is loaded and the
thread's ready time is reached. -/
def State.boundaryDue (s : State) (t : Nat) : Bool :=
  let x := s.th t
  x.bun.isNone && !s.queued t && (x.waiting.isSome || (x.bnd && x.fetch == .loaded && decide (x.readyAt ≤ s.cycleOf t)))

/-- R159: the causes at a boundary in their order. `addr` is the address of the bundle just executed. -/
def State.atBoundary (s : State) (t : Nat) (addr : Word) : State :=
  let x := (s.th t).fetchSt
  let locks := match x.waiting with
    | some (c, _) => (match takeSync x.bndSt c with
      | .lock _ => true
      | .enter _ _ => false)
    | none => false
  if x.holdReq && !locks then s.holdNow t
  else if (s.frzReq || s.frozen) && !locks then s
  else
    let s := match x.waiting with
      | some (c, late) =>
        (s.setTh t x.notParked).takeCause t c (if x.pend.isSome then addr else x.ctx.pc) late
      | none => s
    match (if (s.th t).state = .run ∧ ((s.th t).waiting).isNone then s.acceptable t else none) with
    | some i => s.acceptIntr t i
    | none => s.passed t

/-- R489: the record of a sampled issue. -/
def State.sampleEnds (s : State) (t : Nat) (b : Bundle) : State :=
  if b.sampled then
    let c := b.old
    s.smpRecord (coreOf t)
      [BitVec.ofNat 32 (b.addr.toNat / 4 * 4), BitVec.ofNat 32 (b.addr.toNat / 2 ^ 32 + t * 2 ^ 4 + b2n b.wake * 2 ^ 14 + c.cls * 2 ^ 15 +
        stPl c.st * 2 ^ 17 + b.seen), BitVec.ofNat 32 (min 0xFFFF (b.ready - b.issued)), BitVec.ofNat 32 b.issuedNs]
  else s

/-- R82, R138: SYNC.C completes: what was written takes effect, and the line buffer is discarded. -/
def State.syncC (s : State) (t : Nat) : State :=
  let s := s.modTh t (fun x => { x with
    stall := .none, srNow := x.ctx.inForce, asid := BitVec.ofNat 12 (bits x.ctx.st 23 12), buf := none })
  match Tbl.get (fun _ => (none : Option Word)) (s.core (coreOf t)).schedNew t with
  | some w => s.modCore (coreOf t) (fun k => { k with
      sched := w, schedNew := Tbl.set (fun _ => (none : Option Word)) k.schedNew t none })
  | none => s

/-- R137, R161, R90: RFX: ST and the program counter come from the registers of the level the bundle ran at; ST.STRICT stays the copy
of the berth's bit. -/
def State.rfx (s : State) (t level : Nat) : State :=
  s.modTh t (fun x => { x with
    ctx := { x.ctx with st := putBit (x.ctx.sysr (xReg level 1)) 8 (s.strictOf t), pc := x.ctx.sysr (xReg level 0) },
    link := none, buf := none })

/-- R151: Step. -/
def stepCause (pc : Word) : Cause := { cls := 0xB, target := 1, level := some 15, xra := pc, xfa := pc }

/-- A bundle that did not fault completes: where the thread goes, and the cause that it raises by completing (R136, R151). -/
def State.completes (s : State) (t : Nat) (b : Bundle) : State :=
  let s := s.modTh t (fun x => { x with ctx := { x.ctx with pc := b.next }, bun := none, fetch := .empty })
  let s := if b.rfx then s.rfx t (stPl b.old.st) else s
  let s := if (s.th t).stall = .syncC then s.syncC t else s
  let pc := (s.th t).ctx.pc
  let s := if b.exited then s.corePerf t 0x01B
           else s.traceBundle t b.old.st b.addr (if b.rfx then b.tev ++ [.addr pc] else b.tev)
  s.modTh t (fun x => { x with
    resuming := b.waitMask.isSome,
    bndEnt := if b.rfx then none else some (stEnt b.old.st),
    pend := match b.call with
      | some c => some c
      | none => if stStep b.old.st && !b.exited then some (stepCause pc) else none })

/-- ST as the boundary of a completed bundle sees it (R84, R137, R162). -/
def State.endSt (s : State) (t : Nat) (b : Bundle) : Word :=
  if b.rfx then (s.th t).ctx.sysr (xReg (stPl b.old.st) 1) else putBit (s.th t).ctx.st 6 (stEnt b.old.st)

/-- The cause that a bundle raises by completing (R136, R151), where it locks the thread: the bundle then has no effect (R163). -/
def State.endsLocked (s : State) (t : Nat) (b : Bundle) : Option (Cause × Nat) :=
  let c := match b.call with
    | some c => some c
    | none => if stStep b.old.st && !b.exited then some (stepCause b.next) else none
  match c with
  | some c => match takeSync (s.endSt t b) c with
    | .lock k => some (c, k)
    | .enter _ _ => none
  | none => none

/-- A bundle's end leaves the boundary to be taken: at once where it is due, else when the next bundle is loaded. -/
def State.toBoundary (s : State) (t : Nat) (addr : Word) : State :=
  let s := (s.modTh t (fun x => { x with readyAt := s.cycleOf t, bnd := true }))
  let s := if (s.th t).pend.isSome then s else s.fetchNext t
  let s := s.stepReady t
  if s.boundaryDue t then s.atBoundary t addr else s

/-- The end of the bundle a thread has executed. -/
def State.bundleEnds (s : State) (t : Nat) (b : Bundle) : State :=
  let s := s.sampleEnds t b
  if (s.th t).pend.isSome then (s.modTh t (fun x => { x with bun := none, fetch := .empty })).toBoundary t b.addr
  else match s.endsLocked t b with
  | some (c, k) => (s.lockThread t k c.cls b.addr 0).stepReady t
  | none => (s.completes t b).toBoundary t b.addr

/-- R159, R41: the bundle of a thread has reached its ready time with nothing outstanding; or a cause waits between bundles. -/
def State.mayEnd (s : State) (t : Nat) (b : Bundle) : Bool :=
  let x := s.th t
  decide (b.len ≤ b.pos) && x.mem == .idle && x.pat.isNone && (x.stall == .none || (x.stall == .syncC && x.tlbis == 0)) &&
    decide (b.ready ≤ s.cycleOf t)

/-- R159. -/
def execBundleBoundary (t : Gtn) (s : State) : Out :=
  let x := s.th t
  if !(s.coreRuns (coreOf t) && x.state == .run && !x.resetting) then ok s
  else match x.bun with
    | some b => whenOk (s.mayEnd t b) s (s.bundleEnds t b)
    | none => whenOk (s.boundaryDue t && (x.waiting.isSome || !x.resuming)) s (s.atBoundary t x.ctx.pc)

/-- R154, R155: acceptance in WAIT, or at the boundary of a thread in RUN. -/
def execInterruptAccept (t : Gtn) (s : State) : Out :=
  let x := s.th t
  let may := s.coreRuns (coreOf t) && !x.resetting &&
    (x.state == .wait || (x.state == .run && s.boundaryDue t && x.waiting.isNone && !x.holdReq))
  match s.acceptable t with
  | some i => whenOk may s (s.acceptIntr t i)
  | none => ok s

/-! ## Waits (R47 to R50) -/

/-- R47 step 4. -/
def execWaitChannelWake (t : Gtn) (s : State) : Out :=
  let x := s.th t
  let m := x.ctx.wPend &&& x.ctx.wMask
  whenOk (s.coreRuns (coreOf t) && !s.frzReq && x.state == .wait && m != 0) s
    (let s := s.setTh t { x with
        state := .run, ctx := { x.ctx with wLast := m, wPend := x.ctx.wPend &&& ~~~m }, wakeNext := true, byIntr := false }
     if x.fetch = .empty then s.fetchNext t else s.joinQueue t)

/-- R47 steps 2 and 3, R48. -/
def State.resumeLoaded (s : State) (t : Nat) : State :=
  let x := s.th t
  let m := x.ctx.wPend &&& x.ctx.wMask
  match x.fetch with
  | .loaded =>
    let s := if m ≠ 0 then
        s.setTh t { x with resuming := false, ctx := { x.ctx with wLast := m, wPend := x.ctx.wPend &&& ~~~m } }
      else s.setTh t { x with resuming := false, state := .wait, link := none, bnd := false, bndEnt := none }
    if x.holdReq then s.holdNow t else s
  | .failed _ => s.atBoundary t x.ctx.pc
  | .empty => s.fetchNext t
  | _ => s

/-- R47, R48. -/
def execResumeBundleLoaded (t : Gtn) (s : State) : Out :=
  let x := s.th t
  whenOk (s.coreRuns (coreOf t) && x.state == .run && x.resuming && x.bun.isNone && x.pend.isNone && !s.frzReq) s (s.resumeLoaded t)

/-- R65, R159: a hold reaches the thread's core. -/
def execThreadHoldArrival (t : Gtn) (s : State) : Out :=
  let x := s.th t
  if !x.holdSent then ok s
  else
    let s := s.modTh t (fun x => { x with holdSent := false })
    match x.state with
    | .wait => ok (s.holdNow t)
    | .run =>
      let s := s.modTh t (fun x => { x with holdReq := true })
      ok (if s.boundaryDue t && !x.resuming then s.atBoundary t x.ctx.pc else s)
    | _ => ok s

/-! ## Issue (R42 to R45) -/

/-- The share of a class (R43). -/
def Core.share (k : Core) (c : Nat) : Nat := bits k.sched (8 * c + 6) (8 * c)

/-- Issues of a class in the last 63 cycles. -/
def Core.used (k : Core) (c : Nat) : Nat := ((k.hist.take 63).filter (fun h => h == c)).length

/-- May a thread take an issue slot. Once a freeze is asked for, only the micro-words of a pattern that has begun issue, up to its next
safe point or its end (R143, R460). -/
def State.mayIssue (s : State) (t : Nat) : Bool := s.eligible t && (!s.frzReq || (s.th t).bun.isSome)

/-- The lowest eligible thread of a class numbered above the pointer, wrapping (R44). -/
def State.nextEligible (s : State) (core c : Nat) : Option Nat :=
  let p := Tbl.get (fun _ => (31 : Nat)) (s.core core).rr c
  ((List.range 32).map (fun i => core * 32 + (p + 1 + i) % 32)).find? (fun t => (s.th t).ctx.cls == c && s.mayIssue t)

/-- The choice of R44 among the classes from `n - 1` down, and whether a class with an eligible thread was skipped. -/
def State.pick (s : State) (core : Nat) : Nat → Bool → Option (Nat × Nat) × Bool
  | 0, cap => (none, cap)
  | c + 1, cap =>
    let k := s.core core
    if k.share c < 64 ∧ k.share c ≤ k.used c then s.pick core c (cap || (s.nextEligible core c).isSome)
    else match s.nextEligible core c with
      | some t => (some (t, c), cap)
      | none => s.pick core c cap

/-- The head of the wake queue that may issue (R50, R157, R210). -/
def State.wakeHead (s : State) (core : Nat) : Option Nat :=
  if s.frzReq then none
  else (s.core core).wq.find? (fun t =>
    (s.th t).fetch == .loaded && decide ((s.th t).readyAt ≤ (s.core core).cycle) && (s.th t).bun.isNone)

/-- The class of the last issue slot enters the history (R44). -/
def State.slotUsed (s : State) (core c : Nat) : State := s.modCore core (fun k => { k with hist := (c :: k.hist).take 64 })

/-- R489: the issue of a thread is counted, and may be the sampled one; `seen` is what its record starts with. -/
def State.sampleIssue (s : State) (t seen : Nat) : State :=
  match s.smpIssue t with
  | (hit, s) => s.modTh t (fun x => match x.bun with
    | some b => { x with bun := some { b with sampled := hit, seen := if hit then seen else 0, issuedNs := s.gtb } }
    | none => x)

/-- The first register that a bundle would read with wrong parity (R79). -/
def Thread.badReg (x : Thread) (ws : List W32) : Option Nat := (ws.flatMap x.ctx.sylReads).find? x.badPar

/-- R74: the fault of the bundle's X syllable, where it executes. -/
def State.bundleXFault (s : State) (t : Nat) (ws : List W32) : Option Cause :=
  let x := s.th t
  match ws.getLast? with
  | some w =>
    if sylUnit w = 3 ∧ !sylLim w ∧ (x.ctx.rdP (bits w 28 26) != bit w 25) then s.xFaultOf t x.ctx.pc (ws.length - 1) w else none
  | none => none

/-- A thread's next bundle issues (R66 to R74, R79, R90). -/
def State.issueFresh (s : State) (t : Nat) (wake : Bool) : State :=
  let x := s.th t
  let pc := x.ctx.pc
  let now := s.cycleOf t
  let b : Bundle := { addr := pc, len := 0, old := x.ctx, next := pc, issued := now, ready := now + 4, sbMark := x.sbOrder, wake := wake }
  let s := s.setTh t { x with bun := some b, wakeNext := false, byIntr := false }
  match x.nextBundle (stStrict x.ctx.st) with
  | some (.good ws) =>
    (match x.badReg ws with
     | some r => s.lockThread t 2 0 pc r
     | none =>
       let el := x.launch.filter (fun l => l.addr == pc)
       let s := if el.isSome then (s.modTh t (fun y => { y with launch := none, elWant := none })).corePerf t 0x013 else s.launchLost t
       let b := { b with
         code := ws.filter (fun w => !sylLim w), lim := limOf ws, len := (ws.filter (fun w => !sylLim w)).length, size := ws.length,
         next := pc + BitVec.ofNat 36 (4 * ws.length), xFault := s.bundleXFault t ws, el := el }
       ((s.modTh t (fun y => { y with bun := some b })).launchNext t b ws).sampleIssue t 0)
  | some (.bad k p) => (s.sampleIssue t 0).fault t (illegalCause pc k p)
  | none => s.setTh t x

/-- A further micro-word of the thread's pattern issues (R240): the record of the word before it is written. -/
def State.issueWord (s : State) (t : Nat) (b : Bundle) : State :=
  ((s.sampleEnds t b).modTh t (fun x => { x with
    bun := some { b with grant := true, sampled := false, issued := s.cycleOf t, ready := s.cycleOf t + 4 } })).sampleIssue t (2 ^ 23)

/-- The chosen thread issues; where its line buffer shows wrong parity it fetches its bundle again (R203, log 107). -/
def State.issue (s : State) (t : Nat) (wake : Bool) : State :=
  let x := s.th t
  let go (s : State) : State := (s.corePerf t 0x002).stepIssued t
  match x.bun, x.buf with
  | some b, _ => (go s).issueWord t b
  | none, some l => if l.wrong x.ctx.pc = 0 then (go s).issueFresh t wake else ((s.dropBuf t l x.ctx.pc).modTh t (fun x => { x with wakeNext := wake })).fetchNext t
  | none, none => (go s).issueFresh t wake

/-- The latency of a wake issue (R482, R490). -/
def State.wakeMeasured (s : State) (t : Nat) : State :=
  let x := s.th t
  let n := s.cycleOf t - x.wokeAt
  let who := some (t, x.berth)
  let s := (s.corePerf t 0x003).perfEvent (coreOf t) 0x006 n who
  let s := if 8 < n then s.corePerf t 0x007 else s
  s.histAdd (if x.byIntr then 2 else 1) (coreOf t) n

/-- R44: one cycle of a core. -/
def State.select (s : State) (core : Nat) : State :=
  let s := (s.modCore core (fun k => { k with cycle := k.cycle + 1 })).perfEvent core 0x001 1 none
  match s.wakeHead core with
  | some t => (((s.unqueue t).wakeMeasured t).slotUsed core 4).issue t true
  | none =>
    match s.pick core 4 false with
    | (some (t, c), cap) =>
      let s := if cap then s.perfEvent core 0x005 1 none else s
      (((s.modCore core (fun k => { k with rr := Tbl.set (fun _ => (31 : Nat)) k.rr c (t % 32) })).slotUsed core c).issue t false)
    | (none, cap) =>
      let s := if cap then s.perfEvent core 0x005 1 none else s
      (s.slotUsed core 4).perfEvent core 0x004 1 none

/-- R44. -/
def execIssueSelect (core : CoreId) (s : State) : Out := whenOk (s.coreRuns core) s (s.select core)

/-! ## Walks (R175 to R177) -/

/-- R177: the walk of a thread's access ends. -/
def State.walkEnds (s : State) (t : Nat) (r : MReq) (va : Word) : State :=
  match s.threadWalk t va.toNat r.op.acc with
  | .ok e => s.walkDone t e (fun s => s.memTry t r .walked)
  | .error f =>
    let s := if r.op.isStc then s.modTh t Thread.unlink else s
    ((s.endWalk t).walkLost (some t) (s.th t).berth f).faultLate t (failCause f r.op.wr false (s.bunOf t).addr va.toNat)

/-- R177: the walk of a pattern's byte ends: its word issues again, or its bundle faults with the progress made so far (R145). -/
def State.walkPattern (s : State) (t : Nat) (va : Word) (acc : Acc) : State :=
  match s.threadWalk t va.toNat acc with
  | .ok e => s.walkDone t e (fun s => s.wordGoes t)
  | .error f =>
    let s := ((s.endWalk t).walkLost (some t) (s.th t).berth f).modTh t (fun x => match x.bun with
      | some b => { x with bun := some { b with old := x.ctx } }
      | none => x)
    s.faultLate t (failCause f (acc != .read) false (s.bunOf t).addr va.toNat)

/-- R177: the walk of a fetch ends. -/
def State.walkFetch (s : State) (t : Nat) : State :=
  let pc := (s.th t).ctx.pc
  match s.threadWalk t pc.toNat .exec with
  | .ok e => s.walkDone t e (fun s => s.fetchNext t)
  | .error f => ((s.endWalk t).walkLost (some t) (s.th t).berth f).setFetch t (.failed (failCause f false true pc pc.toNat))

/-- R177: the walk of a thread's page, if it is one of the four in flight (R175). -/
def execTableWalkDone (t : Gtn) (s : State) : Out :=
  let x := s.th t
  if !s.coreRuns (coreOf t) || (s.walkOf t).isNone then ok s
  else match x.mem with
    | .walk r va => whenOk (s.alive t) s (s.walkEnds t r va)
    | .pattern va acc => whenOk (s.alive t) s (s.walkPattern t va acc)
    | _ => if x.fetch = .walk then whenOk (s.fetching t) s (s.walkFetch t) else ok s

/-! ## Paired mismatch (R62, R63) -/

/-- R63: is a pair that mismatches again within 1 s of a reset taken out of service. -/
def State.pairOut (s : State) (p : Nat) : Bool :=
  let a := Tbl.get (fun _ => (0 : Nat)) s.hm.pairAt p
  decide (2 ≤ a) && decide (s.time < a - 2 + 1000000000)

/-- The threads of a core. -/
def coreThreads (c : Nat) : List Nat := (List.range 32).map (fun i => c * 32 + i)

/-- R62: the primary core of a pair; all its threads lock. -/
def State.mismatch (s : State) (p sel kind : Nat) : State :=
  let t := p * 32 + sel
  let n := p / 4
  let page := 0x1040000000 + n * 0x100000 + (1 + p % 4) * 0x1000
  let out := s.pairOut p
  let s := s.recordCap (page + 0x88) (2 ^ 18) (some (8 * n + 1 + p % 4 / 2)) [(page + 0x8C, BitVec.ofNat 32 (t * 2 ^ 16 + kind))]
  let s := (s.lockRecord t 3 0 (s.th t).ctx.pc).count n 16
  let s := (coreThreads p).foldl (fun s u =>
    if (s.th u).state = .locked then s else s.lockOne u 3 0 (s.th u).ctx.pc 0) s
  let entry (s : State) (o : Bool) : State :=
    s.logErr 1 2 none 0 0 (kind + t * 2 ^ 16 + b2n o * 2 ^ 28) (p % 4 + n * 4)
  let s := entry s false
  let s := s.modHm (fun h => { h with pairAt := Tbl.set (fun _ => (0 : Nat)) h.pairAt p 1 })
  if out then entry (s.modHm (fun h => { h with outPair := Tbl.set (fun _ => false) h.outPair p true })) true else s

/-- R62. -/
def execPairMismatch (cluster : Fin 8) (high : Bool) (sel : Fin 32) (kind : Fin 7) (s : State) : Out :=
  let p := 4 * cluster.val + 2 * b2n high
  whenOk (s.paired.getLsbD cluster.val && s.coreRuns p) s (s.mismatch p sel.val kind.val)

end Sys2Proof.Machine
end

