-- ==== Sys2Proof/Machine/Dispatch.lean ====
section
/-! DEFINITION. One arm per command, each one direct call of the command's meaning. -/

namespace Sys2Proof.Machine

def exec (i : Instr) (s : State) : Host.Outcome State Fault Refusal :=
  match i with
  | .issueSelect core => Sys2Proof.Machine.execIssueSelect core s
  | .bundleBoundary t => Sys2Proof.Machine.execBundleBoundary t s
  | .interruptAccept t => Sys2Proof.Machine.execInterruptAccept t s
  | .waitChannelWake t => Sys2Proof.Machine.execWaitChannelWake t s
  | .resumeBundleLoaded t => Sys2Proof.Machine.execResumeBundleLoaded t s
  | .lineFillArrive t => Sys2Proof.Machine.execLineFillArrive t s
  | .loadDataReturn t => Sys2Proof.Machine.execLoadDataReturn t s
  | .deviceAccessResponse t data err => Sys2Proof.Machine.execDeviceAccessResponse t data err s
  | .registerAccessTimeout t => Sys2Proof.Machine.execRegisterAccessTimeout t s
  | .pairMismatch cluster high sel kind => Sys2Proof.Machine.execPairMismatch cluster high sel kind s
  | .threadHoldArrival t => Sys2Proof.Machine.execThreadHoldArrival t s
  | .threadContextResetDone t => Sys2Proof.Machine.execThreadContextResetDone t s
  | .add t q rd ra rb => Sys2Proof.Machine.execAdd t q rd ra rb s
  | .sub t q rd ra rb => Sys2Proof.Machine.execSub t q rd ra rb s
  | .and t q rd ra rb => Sys2Proof.Machine.execAnd t q rd ra rb s
  | .or t q rd ra rb => Sys2Proof.Machine.execOr t q rd ra rb s
  | .xor t q rd ra rb => Sys2Proof.Machine.execXor t q rd ra rb s
  | .andn t q rd ra rb => Sys2Proof.Machine.execAndn t q rd ra rb s
  | .shl t q rd ra rb => Sys2Proof.Machine.execShl t q rd ra rb s
  | .shr t q rd ra rb => Sys2Proof.Machine.execShr t q rd ra rb s
  | .sra t q rd ra rb => Sys2Proof.Machine.execSra t q rd ra rb s
  | .min t q rd ra rb => Sys2Proof.Machine.execMin t q rd ra rb s
  | .max t q rd ra rb => Sys2Proof.Machine.execMax t q rd ra rb s
  | .minu t q rd ra rb => Sys2Proof.Machine.execMinu t q rd ra rb s
  | .maxu t q rd ra rb => Sys2Proof.Machine.execMaxu t q rd ra rb s
  | .sxB t q rd ra => Sys2Proof.Machine.execSxB t q rd ra s
  | .sxH t q rd ra => Sys2Proof.Machine.execSxH t q rd ra s
  | .sxW t q rd ra => Sys2Proof.Machine.execSxW t q rd ra s
  | .zxB t q rd ra => Sys2Proof.Machine.execZxB t q rd ra s
  | .zxH t q rd ra => Sys2Proof.Machine.execZxH t q rd ra s
  | .zxW t q rd ra => Sys2Proof.Machine.execZxW t q rd ra s
  | .addP t q rd ra rb => Sys2Proof.Machine.execAddP t q rd ra rb s
  | .subP t q rd ra rb => Sys2Proof.Machine.execSubP t q rd ra rb s
  | .addPu t q rd ra rb => Sys2Proof.Machine.execAddPu t q rd ra rb s
  | .subPu t q rd ra rb => Sys2Proof.Machine.execSubPu t q rd ra rb s
  | .satB t q rd ra => Sys2Proof.Machine.execSatB t q rd ra s
  | .satBu t q rd ra => Sys2Proof.Machine.execSatBu t q rd ra s
  | .satH t q rd ra => Sys2Proof.Machine.execSatH t q rd ra s
  | .satHu t q rd ra => Sys2Proof.Machine.execSatHu t q rd ra s
  | .satW t q rd ra => Sys2Proof.Machine.execSatW t q rd ra s
  | .satWu t q rd ra => Sys2Proof.Machine.execSatWu t q rd ra s
  | .satP t q rd ra => Sys2Proof.Machine.execSatP t q rd ra s
  | .clz t q rd ra => Sys2Proof.Machine.execClz t q rd ra s
  | .clzW t q rd ra => Sys2Proof.Machine.execClzW t q rd ra s
  | .cls t q rd ra => Sys2Proof.Machine.execCls t q rd ra s
  | .bperm t q rd ra rb => Sys2Proof.Machine.execBperm t q rd ra rb s
  | .mul t q rd ra rb => Sys2Proof.Machine.execMul t q rd ra rb s
  | .mulWp t q rd ra rb => Sys2Proof.Machine.execMulWp t q rd ra rb s
  | .mulWpu t q rd ra rb => Sys2Proof.Machine.execMulWpu t q rd ra rb s
  | .macH t q rd ra rb => Sys2Proof.Machine.execMacH t q rd ra rb s
  | .macHu t q rd ra rb => Sys2Proof.Machine.execMacHu t q rd ra rb s
  | .macP t q rd ra rb => Sys2Proof.Machine.execMacP t q rd ra rb s
  | .div t q rd ra rb => Sys2Proof.Machine.execDiv t q rd ra rb s
  | .divu t q rd ra rb => Sys2Proof.Machine.execDivu t q rd ra rb s
  | .rem t q rd ra rb => Sys2Proof.Machine.execRem t q rd ra rb s
  | .remu t q rd ra rb => Sys2Proof.Machine.execRemu t q rd ra rb s
  | .faddS t q rd ra rb => Sys2Proof.Machine.execFaddS t q rd ra rb s
  | .fsubS t q rd ra rb => Sys2Proof.Machine.execFsubS t q rd ra rb s
  | .fmulS t q rd ra rb => Sys2Proof.Machine.execFmulS t q rd ra rb s
  | .fmaS t q rd ra rb => Sys2Proof.Machine.execFmaS t q rd ra rb s
  | .fminS t q rd ra rb => Sys2Proof.Machine.execFminS t q rd ra rb s
  | .fmaxS t q rd ra rb => Sys2Proof.Machine.execFmaxS t q rd ra rb s
  | .fabsS t q rd ra => Sys2Proof.Machine.execFabsS t q rd ra s
  | .fnegS t q rd ra => Sys2Proof.Machine.execFnegS t q rd ra s
  | .faddH t q rd ra rb => Sys2Proof.Machine.execFaddH t q rd ra rb s
  | .fsubH t q rd ra rb => Sys2Proof.Machine.execFsubH t q rd ra rb s
  | .fmulH t q rd ra rb => Sys2Proof.Machine.execFmulH t q rd ra rb s
  | .fmaH t q rd ra rb => Sys2Proof.Machine.execFmaH t q rd ra rb s
  | .fminH t q rd ra rb => Sys2Proof.Machine.execFminH t q rd ra rb s
  | .fmaxH t q rd ra rb => Sys2Proof.Machine.execFmaxH t q rd ra rb s
  | .fabsH t q rd ra => Sys2Proof.Machine.execFabsH t q rd ra s
  | .fnegH t q rd ra => Sys2Proof.Machine.execFnegH t q rd ra s
  | .fcvtSH t q rd ra => Sys2Proof.Machine.execFcvtSH t q rd ra s
  | .fcvtHS t q rd ra => Sys2Proof.Machine.execFcvtHS t q rd ra s
  | .fcvtSW t q rd ra => Sys2Proof.Machine.execFcvtSW t q rd ra s
  | .fcvtSWu t q rd ra => Sys2Proof.Machine.execFcvtSWu t q rd ra s
  | .fcvtWS t q rd ra => Sys2Proof.Machine.execFcvtWS t q rd ra s
  | .fcvtWSN t q rd ra => Sys2Proof.Machine.execFcvtWSN t q rd ra s
  | .fcvtWuS t q rd ra => Sys2Proof.Machine.execFcvtWuS t q rd ra s
  | .fclassS t q rd ra => Sys2Proof.Machine.execFclassS t q rd ra s
  | .fclassH t q rd ra => Sys2Proof.Machine.execFclassH t q rd ra s
  | .addi t q rd ra imm => Sys2Proof.Machine.execAddi t q rd ra imm s
  | .andi t q rd ra imm => Sys2Proof.Machine.execAndi t q rd ra imm s
  | .ori t q rd ra imm => Sys2Proof.Machine.execOri t q rd ra imm s
  | .xori t q rd ra imm => Sys2Proof.Machine.execXori t q rd ra imm s
  | .shli t q rd ra imm => Sys2Proof.Machine.execShli t q rd ra imm s
  | .shri t q rd ra imm => Sys2Proof.Machine.execShri t q rd ra imm s
  | .srai t q rd ra imm => Sys2Proof.Machine.execSrai t q rd ra imm s
  | .rsubi t q rd ra imm => Sys2Proof.Machine.execRsubi t q rd ra imm s
  | .mini t q rd ra imm => Sys2Proof.Machine.execMini t q rd ra imm s
  | .maxi t q rd ra imm => Sys2Proof.Machine.execMaxi t q rd ra imm s
  | .minui t q rd ra imm => Sys2Proof.Machine.execMinui t q rd ra imm s
  | .maxui t q rd ra imm => Sys2Proof.Machine.execMaxui t q rd ra imm s
  | .muli t q rd ra imm => Sys2Proof.Machine.execMuli t q rd ra imm s
  | .bfx t q rd ra pos wm1 => Sys2Proof.Machine.execBfx t q rd ra pos wm1 s
  | .bfi t q rd ra pos wm1 => Sys2Proof.Machine.execBfi t q rd ra pos wm1 s
  | .eq t q c pd ra b => Sys2Proof.Machine.execEq t q c pd ra b s
  | .ne t q c pd ra b => Sys2Proof.Machine.execNe t q c pd ra b s
  | .lt t q c pd ra b => Sys2Proof.Machine.execLt t q c pd ra b s
  | .ge t q c pd ra b => Sys2Proof.Machine.execGe t q c pd ra b s
  | .le t q c pd ra b => Sys2Proof.Machine.execLe t q c pd ra b s
  | .gt t q c pd ra b => Sys2Proof.Machine.execGt t q c pd ra b s
  | .ltu t q c pd ra b => Sys2Proof.Machine.execLtu t q c pd ra b s
  | .geu t q c pd ra b => Sys2Proof.Machine.execGeu t q c pd ra b s
  | .leu t q c pd ra b => Sys2Proof.Machine.execLeu t q c pd ra b s
  | .gtu t q c pd ra b => Sys2Proof.Machine.execGtu t q c pd ra b s
  | .tst t q c pd ra b => Sys2Proof.Machine.execTst t q c pd ra b s
  | .ntst t q c pd ra b => Sys2Proof.Machine.execNtst t q c pd ra b s
  | .feqS t q c pd ra b => Sys2Proof.Machine.execFeqS t q c pd ra b s
  | .fltS t q c pd ra b => Sys2Proof.Machine.execFltS t q c pd ra b s
  | .fleS t q c pd ra b => Sys2Proof.Machine.execFleS t q c pd ra b s
  | .funS t q c pd ra b => Sys2Proof.Machine.execFunS t q c pd ra b s
  | .feqH t q c pd ra b => Sys2Proof.Machine.execFeqH t q c pd ra b s
  | .fltH t q c pd ra b => Sys2Proof.Machine.execFltH t q c pd ra b s
  | .fleH t q c pd ra b => Sys2Proof.Machine.execFleH t q c pd ra b s
  | .funH t q c pd ra b => Sys2Proof.Machine.execFunH t q c pd ra b s
  | .reservedEncoding t q body => Sys2Proof.Machine.execReservedEncoding t q body s
  | .ldB t q rd a => Sys2Proof.Machine.execLdB t q rd a s
  | .ldH t q rd a => Sys2Proof.Machine.execLdH t q rd a s
  | .ldW t q rd a => Sys2Proof.Machine.execLdW t q rd a s
  | .ldX t q rd a => Sys2Proof.Machine.execLdX t q rd a s
  | .ldBu t q rd a => Sys2Proof.Machine.execLdBu t q rd a s
  | .ldHu t q rd a => Sys2Proof.Machine.execLdHu t q rd a s
  | .ldWu t q rd a => Sys2Proof.Machine.execLdWu t q rd a s
  | .ldD t q rd a => Sys2Proof.Machine.execLdD t q rd a s
  | .stB t q rd a => Sys2Proof.Machine.execStB t q rd a s
  | .stH t q rd a => Sys2Proof.Machine.execStH t q rd a s
  | .stW t q rd a => Sys2Proof.Machine.execStW t q rd a s
  | .stX t q rd a => Sys2Proof.Machine.execStX t q rd a s
  | .stD t q rd a => Sys2Proof.Machine.execStD t q rd a s
  | .ssB t q rd ra rb => Sys2Proof.Machine.execSsB t q rd ra rb s
  | .ssBu t q rd ra rb => Sys2Proof.Machine.execSsBu t q rd ra rb s
  | .ssH t q rd ra rb => Sys2Proof.Machine.execSsH t q rd ra rb s
  | .ssHu t q rd ra rb => Sys2Proof.Machine.execSsHu t q rd ra rb s
  | .ssW t q rd ra rb => Sys2Proof.Machine.execSsW t q rd ra rb s
  | .ssWu t q rd ra rb => Sys2Proof.Machine.execSsWu t q rd ra rb s
  | .ldAqW t q rd ra rb => Sys2Proof.Machine.execLdAqW t q rd ra rb s
  | .ldAqX t q rd ra rb => Sys2Proof.Machine.execLdAqX t q rd ra rb s
  | .stRlW t q rd ra rb => Sys2Proof.Machine.execStRlW t q rd ra rb s
  | .stRlX t q rd ra rb => Sys2Proof.Machine.execStRlX t q rd ra rb s
  | .fence t q => Sys2Proof.Machine.execFence t q s
  | .fenceSs t q => Sys2Proof.Machine.execFenceSs t q s
  | .ldlW t q rd ra => Sys2Proof.Machine.execLdlW t q rd ra s
  | .ldlX t q rd ra => Sys2Proof.Machine.execLdlX t q rd ra s
  | .stcW t q rd ra rb => Sys2Proof.Machine.execStcW t q rd ra rb s
  | .stcX t q rd ra rb => Sys2Proof.Machine.execStcX t q rd ra rb s
  | .sunpk t q rd ra rb => Sys2Proof.Machine.execSunpk t q rd ra rb s
  | .spack t q rd ra rb => Sys2Proof.Machine.execSpack t q rd ra rb s
  | .copy t q rd ra rb => Sys2Proof.Machine.execCopy t q rd ra rb s
  | .fill t q rd ra rb => Sys2Proof.Machine.execFill t q rd ra rb s
  | .cmpb t q rd ra rb => Sys2Proof.Machine.execCmpb t q rd ra rb s
  | .crc32c t q rd ra rb => Sys2Proof.Machine.execCrc32c t q rd ra rb s
  | .crc16 t q rd ra rb => Sys2Proof.Machine.execCrc16 t q rd ra rb s
  | .crc8 t q rd ra rb => Sys2Proof.Machine.execCrc8 t q rd ra rb s
  | .crc8h t q rd ra rb => Sys2Proof.Machine.execCrc8h t q rd ra rb s
  | .amoSwapW t q rd ra rb => Sys2Proof.Machine.execAmoSwapW t q rd ra rb s
  | .amoAddW t q rd ra rb => Sys2Proof.Machine.execAmoAddW t q rd ra rb s
  | .amoAndW t q rd ra rb => Sys2Proof.Machine.execAmoAndW t q rd ra rb s
  | .amoOrW t q rd ra rb => Sys2Proof.Machine.execAmoOrW t q rd ra rb s
  | .amoXorW t q rd ra rb => Sys2Proof.Machine.execAmoXorW t q rd ra rb s
  | .amoMinW t q rd ra rb => Sys2Proof.Machine.execAmoMinW t q rd ra rb s
  | .amoMaxW t q rd ra rb => Sys2Proof.Machine.execAmoMaxW t q rd ra rb s
  | .amoMinuW t q rd ra rb => Sys2Proof.Machine.execAmoMinuW t q rd ra rb s
  | .amoMaxuW t q rd ra rb => Sys2Proof.Machine.execAmoMaxuW t q rd ra rb s
  | .amoCasW t q rd ra rb => Sys2Proof.Machine.execAmoCasW t q rd ra rb s
  | .amoSwapX t q rd ra rb => Sys2Proof.Machine.execAmoSwapX t q rd ra rb s
  | .amoAddX t q rd ra rb => Sys2Proof.Machine.execAmoAddX t q rd ra rb s
  | .amoCasX t q rd ra rb => Sys2Proof.Machine.execAmoCasX t q rd ra rb s
  | .clClean t q ra => Sys2Proof.Machine.execClClean t q ra s
  | .clFlush t q ra => Sys2Proof.Machine.execClFlush t q ra s
  | .clInv t q ra => Sys2Proof.Machine.execClInv t q ra s
  | .clZero t q ra => Sys2Proof.Machine.execClZero t q ra s
  | .clPref t q ra => Sys2Proof.Machine.execClPref t q ra s
  | .clPrefw t q ra => Sys2Proof.Machine.execClPrefw t q ra s
  | .tlbiVa t q ra => Sys2Proof.Machine.execTlbiVa t q ra s
  | .tlbiVaa t q ra => Sys2Proof.Machine.execTlbiVaa t q ra s
  | .tlbiAsid t q ra => Sys2Proof.Machine.execTlbiAsid t q ra s
  | .tlbiOwn t q => Sys2Proof.Machine.execTlbiOwn t q s
  | .tlbiIpa t q ra rb => Sys2Proof.Machine.execTlbiIpa t q ra rb s
  | .tlbiB t q rb => Sys2Proof.Machine.execTlbiB t q rb s
  | .tlbiAll t q => Sys2Proof.Machine.execTlbiAll t q s
  | .tlbMaintenanceComplete => Sys2Proof.Machine.execTlbMaintenanceComplete s
  | .tableWalkDone t => Sys2Proof.Machine.execTableWalkDone t s
  | .mfsr t q rd srn => Sys2Proof.Machine.execMfsr t q rd srn s
  | .mtsr t q srn rd => Sys2Proof.Machine.execMtsr t q srn rd s
  | .jmp t q ra => Sys2Proof.Machine.execJmp t q ra s
  | .jmpl t q rd ra => Sys2Proof.Machine.execJmpl t q rd ra s
  | .bra t q link hint disp => Sys2Proof.Machine.execBra t q link hint disp s
  | .iflush t q ra => Sys2Proof.Machine.execIflush t q ra s
  | .iflushComplete t => Sys2Proof.Machine.execIflushComplete t s
  | .tnote t q ra tag => Sys2Proof.Machine.execTnote t q ra tag s
  | .wait t q mask => Sys2Proof.Machine.execWait t q mask s
  | .sysc t q arg => Sys2Proof.Machine.execSysc t q arg s
  | .hypc t q arg => Sys2Proof.Machine.execHypc t q arg s
  | .rfx t q => Sys2Proof.Machine.execRfx t q s
  | .syncC t q => Sys2Proof.Machine.execSyncC t q s
  | .pflush t q => Sys2Proof.Machine.execPflush t q s
  | .pbar t q => Sys2Proof.Machine.execPbar t q s
  | .ucall t q imm => Sys2Proof.Machine.execUcall t q imm s
  | .patternMicroWord t => Sys2Proof.Machine.execPatternMicroWord t s
  | .patternWordRewrite core addr => Sys2Proof.Machine.execPatternWordRewrite core addr s
  | .storeBufferDrain t order => Sys2Proof.Machine.execStoreBufferDrain t order s
  | .linkDelayExpiry t => Sys2Proof.Machine.execLinkDelayExpiry t s
  | .gets agent line => Sys2Proof.Machine.execGets agent line s
  | .getm agent line => Sys2Proof.Machine.execGetm agent line s
  | .getmz agent line => Sys2Proof.Machine.execGetmz agent line s
  | .rdonce agent line => Sys2Proof.Machine.execRdonce agent line s
  | .clean agent line => Sys2Proof.Machine.execClean agent line s
  | .flush agent line => Sys2Proof.Machine.execFlush agent line s
  | .busyQueueTake line => Sys2Proof.Machine.execBusyQueueTake line s
  | .homeMemoryReadDone line => Sys2Proof.Machine.execHomeMemoryReadDone line s
  | .puts agent line => Sys2Proof.Machine.execPuts agent line s
  | .pute agent line => Sys2Proof.Machine.execPute agent line s
  | .putm agent line => Sys2Proof.Machine.execPutm agent line s
  | .puto agent line => Sys2Proof.Machine.execPuto agent line s
  | .unblock agent line => Sys2Proof.Machine.execUnblock agent line s
  | .fwdGets agent line => Sys2Proof.Machine.execFwdGets agent line s
  | .fwdRdonce agent line => Sys2Proof.Machine.execFwdRdonce agent line s
  | .fwdGetm agent line => Sys2Proof.Machine.execFwdGetm agent line s
  | .fwdGetmz agent line => Sys2Proof.Machine.execFwdGetmz agent line s
  | .inv agent line => Sys2Proof.Machine.execInv agent line s
  | .recall agent line => Sys2Proof.Machine.execRecall agent line s
  | .downgrade agent line => Sys2Proof.Machine.execDowngrade agent line s
  | .data agent line => Sys2Proof.Machine.execData agent line s
  | .grant agent line => Sys2Proof.Machine.execGrant agent line s
  | .invAck agent line toHome => Sys2Proof.Machine.execInvAck agent line toHome s
  | .recallData agent line => Sys2Proof.Machine.execRecallData agent line s
  | .putAck agent line => Sys2Proof.Machine.execPutAck agent line s
  | .putStale agent line => Sys2Proof.Machine.execPutStale agent line s
  | .done agent line => Sys2Proof.Machine.execDone agent line s
  | .coherenceTimeout agent line => Sys2Proof.Machine.execCoherenceTimeout agent line s
  | .agentFatalError agent => Sys2Proof.Machine.execAgentFatalError agent s
  | .reclaimComplete => Sys2Proof.Machine.execReclaimComplete s
  | .scrubRead kind unit => Sys2Proof.Machine.execScrubRead kind unit s
  | .dmcInjWrite rq c w => Sys2Proof.Machine.execDmcInjWrite rq c w s
  | .dramTemperatureRead c rate hot => Sys2Proof.Machine.execDramTemperatureRead c rate hot s
  | .wckTracking c => Sys2Proof.Machine.execWckTracking c s
  | .eventSignal n b => Sys2Proof.Machine.execEventSignal n b s
  | .routeDelivery entry => Sys2Proof.Machine.execRouteDelivery entry s
  | .ertRteCfgWrite rq n w => Sys2Proof.Machine.execErtRteCfgWrite rq n w s
  | .ertRteStatWrite rq n w => Sys2Proof.Machine.execErtRteStatWrite rq n w s
  | .ertDbRing rq d w => Sys2Proof.Machine.execErtDbRing rq d w s
  | .eventRecordWrite rq pa w => Sys2Proof.Machine.execEventRecordWrite rq pa w s
  | .registerWrite rq pa w => Sys2Proof.Machine.execRegisterWrite rq pa w s
  | .rsqRead rq pa => Sys2Proof.Machine.execRsqRead rq pa s
  | .mbxReqWrite rq m imm w => Sys2Proof.Machine.execMbxReqWrite rq m imm w s
  | .go rq m => Sys2Proof.Machine.execGo rq m s
  | .cack rq m => Sys2Proof.Machine.execCack rq m s
  | .requestTaken m => Sys2Proof.Machine.execRequestTaken m s
  | .completionPost m => Sys2Proof.Machine.execCompletionPost m s
  | .harbourmasterMismatch => Sys2Proof.Machine.execHarbourmasterMismatch s
  | .sysInfo m => Sys2Proof.Machine.execSysInfo m s
  | .sysReset m => Sys2Proof.Machine.execSysReset m s
  | .sysEcho m => Sys2Proof.Machine.execSysEcho m s
  | .pwrLevel m => Sys2Proof.Machine.execPwrLevel m s
  | .pwrCeil m => Sys2Proof.Machine.execPwrCeil m s
  | .pwrBudget m => Sys2Proof.Machine.execPwrBudget m s
  | .pwrSleep m => Sys2Proof.Machine.execPwrSleep m s
  | .pwrStatus m => Sys2Proof.Machine.execPwrStatus m s
  | .berthCreate m => Sys2Proof.Machine.execBerthCreate m s
  | .berthDestroy m => Sys2Proof.Machine.execBerthDestroy m s
  | .berthReset m => Sys2Proof.Machine.execBerthReset m s
  | .berthStatus m => Sys2Proof.Machine.execBerthStatus m s
  | .berthWdog m => Sys2Proof.Machine.execBerthWdog m s
  | .clusterRestart m => Sys2Proof.Machine.execClusterRestart m s
  | .threadAssign m => Sys2Proof.Machine.execThreadAssign m s
  | .threadStart m => Sys2Proof.Machine.execThreadStart m s
  | .threadHold m => Sys2Proof.Machine.execThreadHold m s
  | .threadReset m => Sys2Proof.Machine.execThreadReset m s
  | .threadRelease m => Sys2Proof.Machine.execThreadRelease m s
  | .instCreate m => Sys2Proof.Machine.execInstCreate m s
  | .instDestroy m => Sys2Proof.Machine.execInstDestroy m s
  | .instReset m => Sys2Proof.Machine.execInstReset m s
  | .instQuery m => Sys2Proof.Machine.execInstQuery m s
  | .routeGive m => Sys2Proof.Machine.execRouteGive m s
  | .routeReturn m => Sys2Proof.Machine.execRouteReturn m s
  | .dbShare m => Sys2Proof.Machine.execDbShare m s
  | .routeQuery m => Sys2Proof.Machine.execRouteQuery m s
  | .memMap m => Sys2Proof.Machine.execMemMap m s
  | .memUnmap m => Sys2Proof.Machine.execMemUnmap m s
  | .logRead m => Sys2Proof.Machine.execLogRead m s
  | .cntRead m => Sys2Proof.Machine.execCntRead m s
  | .cntClear m => Sys2Proof.Machine.execCntClear m s
  | .agentReclaim m => Sys2Proof.Machine.execAgentReclaim m s
  | .scrubStatus m => Sys2Proof.Machine.execScrubStatus m s
  | .secStatus m => Sys2Proof.Machine.execSecStatus m s
  | .keyGive m => Sys2Proof.Machine.execKeyGive m s
  | .keyRevoke m => Sys2Proof.Machine.execKeyRevoke m s
  | .attest m => Sys2Proof.Machine.execAttest m s
  | .dbgChallenge m => Sys2Proof.Machine.execDbgChallenge m s
  | .dbgOpen m => Sys2Proof.Machine.execDbgOpen m s
  | .dbgClose m => Sys2Proof.Machine.execDbgClose m s
  | .dbgStatus m => Sys2Proof.Machine.execDbgStatus m s
  | .nonceLapse => Sys2Proof.Machine.execNonceLapse s
  | .manWrite m => Sys2Proof.Machine.execManWrite m s
  | .manCommit m => Sys2Proof.Machine.execManCommit m s
  | .manStatus m => Sys2Proof.Machine.execManStatus m s
  | .timeGet m => Sys2Proof.Machine.execTimeGet m s
  | .timeStep m => Sys2Proof.Machine.execTimeStep m s
  | .timeSource m => Sys2Proof.Machine.execTimeSource m s
  | .alarmGive m => Sys2Proof.Machine.execAlarmGive m s
  | .snap m => Sys2Proof.Machine.execSnap m s
  | .cntGive m => Sys2Proof.Machine.execCntGive m s
  | .traceBuf m => Sys2Proof.Machine.execTraceBuf m s
  | .traceCtl m => Sys2Proof.Machine.execTraceCtl m s
  | .sspWriteWords off ws => Sys2Proof.Machine.execSspWriteWords off ws s
  | .sspReadWords off n => Sys2Proof.Machine.execSspReadWords off n s
  | .sspReadStat => Sys2Proof.Machine.execSspReadStat s
  | .managementFrameRx port vid src msg => Sys2Proof.Machine.execManagementFrameRx port vid src msg s
  | .berthResetQuiesced b => Sys2Proof.Machine.execBerthResetQuiesced b s
  | .berthResetComplete b => Sys2Proof.Machine.execBerthResetComplete b s
  | .watchdogServiceWrite rq b w => Sys2Proof.Machine.execWatchdogServiceWrite rq b w s
  | .watchdogWarning b => Sys2Proof.Machine.execWatchdogWarning b s
  | .watchdogExpiry b => Sys2Proof.Machine.execWatchdogExpiry b s
  | .instResetTimeout imm => Sys2Proof.Machine.execInstResetTimeout imm s
  | .instanceResetComplete imm => Sys2Proof.Machine.execInstanceResetComplete imm s
  | .functionLevelReset f => Sys2Proof.Machine.execFunctionLevelReset f s
  | .clusterGate n => Sys2Proof.Machine.execClusterGate n s
  | .domainReady d => Sys2Proof.Machine.execDomainReady d s
  | .domainIdleOff d => Sys2Proof.Machine.execDomainIdleOff d s
  | .pllLock p => Sys2Proof.Machine.execPllLock p s
  | .arbiterEpoch => Sys2Proof.Machine.execArbiterEpoch s
  | .pmicVgoodRise => Sys2Proof.Machine.execPmicVgoodRise s
  | .voltageStepTimeout => Sys2Proof.Machine.execVoltageStepTimeout s
  | .supplyDip soc => Sys2Proof.Machine.execSupplyDip soc s
  | .dipRecovery => Sys2Proof.Machine.execDipRecovery s
  | .dipEnd => Sys2Proof.Machine.execDipEnd s
  | .thermalSample tj => Sys2Proof.Machine.execThermalSample tj s
  | .thermalStage2Check => Sys2Proof.Machine.execThermalStage2Check s
  | .sleepEntryDone => Sys2Proof.Machine.execSleepEntryDone s
  | .wakeSourceAssert code arg => Sys2Proof.Machine.execWakeSourceAssert code arg s
  | .wakeTimerExpiry => Sys2Proof.Machine.execWakeTimerExpiry s
  | .wakePortMatch addr rd byte => Sys2Proof.Machine.execWakePortMatch addr rd byte s
  | .sleepExitComplete => Sys2Proof.Machine.execSleepExitComplete s
  | .pcrWkpCfgWrite rq w => Sys2Proof.Machine.execPcrWkpCfgWrite rq w s
  | .pwrGoodRise => Sys2Proof.Machine.execPwrGoodRise s
  | .por cause rail => Sys2Proof.Machine.execPor cause rail s
  | .bor soc => Sys2Proof.Machine.execBor soc s
  | .railMonitorTrip rail => Sys2Proof.Machine.execRailMonitorTrip rail s
  | .pinReset => Sys2Proof.Machine.execPinReset s
  | .resetRelease => Sys2Proof.Machine.execResetRelease s
  | .earlySegmentAccept => Sys2Proof.Machine.execEarlySegmentAccept s
  | .islandStart => Sys2Proof.Machine.execIslandStart s
  | .islandRouteForward => Sys2Proof.Machine.execIslandRouteForward s
  | .manifestCommit => Sys2Proof.Machine.execManifestCommit s
  | .dramTrainingDone good => Sys2Proof.Machine.execDramTrainingDone good s
  | .clusterBringUpDone n => Sys2Proof.Machine.execClusterBringUpDone n s
  | .dramZeroingDone c => Sys2Proof.Machine.execDramZeroingDone c s
  | .fullServiceDeclare => Sys2Proof.Machine.execFullServiceDeclare s
  | .securityAlarm kind => Sys2Proof.Machine.execSecurityAlarm kind s
  | .shiQCancel rq r => Sys2Proof.Machine.execShiQCancel rq r s
  | .aesGcmEncrypt rq r => Sys2Proof.Machine.execAesGcmEncrypt rq r s
  | .aesGcmDecrypt rq r => Sys2Proof.Machine.execAesGcmDecrypt rq r s
  | .aesCtr rq r => Sys2Proof.Machine.execAesCtr rq r s
  | .aesCmac rq r => Sys2Proof.Machine.execAesCmac rq r s
  | .sha256 rq r => Sys2Proof.Machine.execSha256 rq r s
  | .sha384 rq r => Sys2Proof.Machine.execSha384 rq r s
  | .sha512 rq r => Sys2Proof.Machine.execSha512 rq r s
  | .sha3256 rq r => Sys2Proof.Machine.execSha3256 rq r s
  | .sha3384 rq r => Sys2Proof.Machine.execSha3384 rq r s
  | .sha3512 rq r => Sys2Proof.Machine.execSha3512 rq r s
  | .hmacSha256 rq r => Sys2Proof.Machine.execHmacSha256 rq r s
  | .ecdsaP256Sign rq r => Sys2Proof.Machine.execEcdsaP256Sign rq r s
  | .ecdsaP384Sign rq r => Sys2Proof.Machine.execEcdsaP384Sign rq r s
  | .ecdsaP256Verify rq r => Sys2Proof.Machine.execEcdsaP256Verify rq r s
  | .ecdsaP384Verify rq r => Sys2Proof.Machine.execEcdsaP384Verify rq r s
  | .mlDsa65Verify rq r => Sys2Proof.Machine.execMlDsa65Verify rq r s
  | .randomBytes rq r => Sys2Proof.Machine.execRandomBytes rq r s
  | .derive rq r => Sys2Proof.Machine.execDerive rq r s
  | .unwrap rq r => Sys2Proof.Machine.execUnwrap rq r s
  | .serviceSegmentDone r => Sys2Proof.Machine.execServiceSegmentDone r s
  | .shiLcReqWrite rq w => Sys2Proof.Machine.execShiLcReqWrite rq w s
  | .shiOtpCmdWrite rq w => Sys2Proof.Machine.execShiOtpCmdWrite rq w s
  | .idcode => Sys2Proof.Machine.execIdcode s
  | .samplePreload => Sys2Proof.Machine.execSamplePreload s
  | .extest => Sys2Proof.Machine.execExtest s
  | .clamp => Sys2Proof.Machine.execClamp s
  | .highz => Sys2Proof.Machine.execHighz s
  | .dbgacc => Sys2Proof.Machine.execDbgacc s
  | .bypass => Sys2Proof.Machine.execBypass s
  | .scanExitReset => Sys2Proof.Machine.execScanExitReset s
  | .debugRequest sdp seq reg rd w crcOk => Sys2Proof.Machine.execDebugRequest sdp seq reg rd w crcOk s
  | .sdpLineReset => Sys2Proof.Machine.execSdpLineReset s
  | .daeDataRead => Sys2Proof.Machine.execDaeDataRead s
  | .daeDataWrite w => Sys2Proof.Machine.execDaeDataWrite w s
  | .daeAccessDone => Sys2Proof.Machine.execDaeAccessDone s
  | .clrerr => Sys2Proof.Machine.execClrerr s
  | .freeze => Sys2Proof.Machine.execFreeze s
  | .release => Sys2Proof.Machine.execRelease s
  | .step g => Sys2Proof.Machine.execStep g s
  | .stepTimeout => Sys2Proof.Machine.execStepTimeout s
  | .freezeAck => Sys2Proof.Machine.execFreezeAck s
  | .dbgResetRequest => Sys2Proof.Machine.execDbgResetRequest s
  | .dbgResetFreezeRequest => Sys2Proof.Machine.execDbgResetFreezeRequest s
  | .dbtCtxHiWrite rq w => Sys2Proof.Machine.execDbtCtxHiWrite rq w s
  | .flowAtomTimeout t => Sys2Proof.Machine.execFlowAtomTimeout t s
  | .tsInterval core => Sys2Proof.Machine.execTsInterval core s
  | .traceOverflowRecover core => Sys2Proof.Machine.execTraceOverflowRecover core s
  | .traceUnitTimeout core => Sys2Proof.Machine.execTraceUnitTimeout core s
  | .traceSinkLineWrite => Sys2Proof.Machine.execTraceSinkLineWrite s
  | .align => Sys2Proof.Machine.execAlign s
  | .cntClr rq u => Sys2Proof.Machine.execCntClr rq u s
  | .cntLoRead rq u imm => Sys2Proof.Machine.execCntLoRead rq u imm s
  | .snapshotCapture => Sys2Proof.Machine.execSnapshotCapture s
  | .snapshotTableDone => Sys2Proof.Machine.execSnapshotTableDone s
  | .smpAck rq u w => Sys2Proof.Machine.execSmpAck rq u w s
  | .smpCfgWrite rq u w => Sys2Proof.Machine.execSmpCfgWrite rq u w s
  | .histClr rq h => Sys2Proof.Machine.execHistClr rq h s
  | .ethernetFrameRx port frame fcsOk => Sys2Proof.Machine.execEthernetFrameRx port frame fcsOk s
  | .ethernetFrameTxDone port => Sys2Proof.Machine.execEthernetFrameTxDone port s
  | .gateControlAdvance port => Sys2Proof.Machine.execGateControlAdvance port s
  | .tblRead rq gwy tbl idx => Sys2Proof.Machine.execTblRead rq gwy tbl idx s
  | .tblWrite rq gwy tbl idx => Sys2Proof.Machine.execTblWrite rq gwy tbl idx s
  | .tableAccessDone gwy => Sys2Proof.Machine.execTableAccessDone gwy s
  | .fdbAgeing => Sys2Proof.Machine.execFdbAgeing s
  | .frerResetTimer f => Sys2Proof.Machine.execFrerResetTimer f s
  | .linkChange port rate => Sys2Proof.Machine.execLinkChange port rate s
  | .preemptionVerifyDone port pass => Sys2Proof.Machine.execPreemptionVerifyDone port pass s
  | .t1sWakeSleepRx port wake => Sys2Proof.Machine.execT1sWakeSleepRx port wake s
  | .hqTxTailWrite rq q w => Sys2Proof.Machine.execHqTxTailWrite rq q w s
  | .hqRxTailWrite rq q w => Sys2Proof.Machine.execHqRxTailWrite rq q w s
  | .txDescriptorDone q => Sys2Proof.Machine.execTxDescriptorDone q s
  | .rxDescriptorDone q => Sys2Proof.Machine.execRxDescriptorDone q s
  | .coalesceTimerExpiry imm => Sys2Proof.Machine.execCoalesceTimerExpiry imm s
  | .eswTdOffsWrite rq w => Sys2Proof.Machine.execEswTdOffsWrite rq w s
  | .slewComplete => Sys2Proof.Machine.execSlewComplete s
  | .pcieInboundRequest r => Sys2Proof.Machine.execPcieInboundRequest r s
  | .pcieCompletionTimeout t => Sys2Proof.Machine.execPcieCompletionTimeout t s
  | .pcieLinkDown ctl => Sys2Proof.Machine.execPcieLinkDown ctl s
  | .pcieLinkUp ctl rate width => Sys2Proof.Machine.execPcieLinkUp ctl rate width s
  | .pceFnMsiWrite rq f w => Sys2Proof.Machine.execPceFnMsiWrite rq f w s
  | .msiPendingSend f v => Sys2Proof.Machine.execMsiPendingSend f v s
  | .canFrameRx k el => Sys2Proof.Machine.execCanFrameRx k el s
  | .canTxReq rq k w => Sys2Proof.Machine.execCanTxReq rq k w s
  | .canTxCancel rq k w => Sys2Proof.Machine.execCanTxCancel rq k w s
  | .canTxEnd k how => Sys2Proof.Machine.execCanTxEnd k how s
  | .canRxfAck rq k w => Sys2Proof.Machine.execCanRxfAck rq k w s
  | .canRxfCfgWrite rq k w => Sys2Proof.Machine.execCanRxfCfgWrite rq k w s
  | .canTimingWrite rq k reg w => Sys2Proof.Machine.execCanTimingWrite rq k reg w s
  | .canBusError k proto tec rec_ => Sys2Proof.Machine.execCanBusError k proto tec rec_ s
  | .canBusoffRecovery k => Sys2Proof.Machine.execCanBusoffRecovery k s
  | .canWake k => Sys2Proof.Machine.execCanWake k s
  | .cshTxReq rq imm w => Sys2Proof.Machine.execCshTxReq rq imm w s
  | .cshTxCancel rq imm w => Sys2Proof.Machine.execCshTxCancel rq imm w s
  | .cshRxfAck rq imm w => Sys2Proof.Machine.execCshRxfAck rq imm w s
  | .linScheduleSlot k n => Sys2Proof.Machine.execLinScheduleSlot k n s
  | .busFrameRx u ws err => Sys2Proof.Machine.execBusFrameRx u ws err s
  | .busTransferDone u err => Sys2Proof.Machine.execBusTransferDone u err s
  | .busTxdWrite rq u w => Sys2Proof.Machine.execBusTxdWrite rq u w s
  | .busRxdRead rq u => Sys2Proof.Machine.execBusRxdRead rq u s
  | .xspCmd rq k w => Sys2Proof.Machine.execXspCmd rq k w s
  | .gpioSet rq m w => Sys2Proof.Machine.execGpioSet rq m w s
  | .gpioClr rq m w => Sys2Proof.Machine.execGpioClr rq m w s
  | .gpioEdge g lvl => Sys2Proof.Machine.execGpioEdge g lvl s
  | .tmrCmpHiWrite rq t w => Sys2Proof.Machine.execTmrCmpHiWrite rq t w s
  | .timerMatch t => Sys2Proof.Machine.execTimerMatch t s
  | .dmaChTailWrite rq imm c w => Sys2Proof.Machine.execDmaChTailWrite rq imm c w s
  | .dmaDescriptorDone imm c => Sys2Proof.Machine.execDmaDescriptorDone imm c s
  | .gatewayFrameIn => Sys2Proof.Machine.execGatewayFrameIn s
  | .pduBufferPeriod b => Sys2Proof.Machine.execPduBufferPeriod b s
  | .acfWindowExpiry n => Sys2Proof.Machine.execAcfWindowExpiry n s
  | .acfAvtpduRx q => Sys2Proof.Machine.execAcfAvtpduRx q s
  | .gwqTxTailWrite rq q w => Sys2Proof.Machine.execGwqTxTailWrite rq q w s
  | .tapReset => Sys2Proof.Machine.execTapReset s
  | .gtbAlarmMatch a => Sys2Proof.Machine.execGtbAlarmMatch a s
  | .gtbPps => Sys2Proof.Machine.execGtbPps s
  | .counterWrap u imm => Sys2Proof.Machine.execCounterWrap u imm s
  | .lockupNMinLowExpiry => Sys2Proof.Machine.execLockupNMinLowExpiry s
  | .domainIdleGate d => Sys2Proof.Machine.execDomainIdleGate d s
  | .domainPowerLoss d => Sys2Proof.Machine.execDomainPowerLoss d s
  | .wakePortStop => Sys2Proof.Machine.execWakePortStop s
  | .canBusIntegrated k => Sys2Proof.Machine.execCanBusIntegrated k s

end Sys2Proof.Machine
end

