-- ==== Sys2Proof/Safety.lean ====
section
/-! DEFINITION. The terms in which claims about the machine are stated: what changes and what does not, when a syllable of a
thread runs and what its effect is, and the invariant that every step keeps. -/

namespace Sys2Proof.Machine

/-! ## Frames -/

/-- Nothing but the threads changes. -/
def SameButThreads (s s' : State) : Prop := { s' with thr := s.thr } = s

/-- Of the whole machine only thread `t` changes. -/
def OnlyThread (t : Nat) (s s' : State) : Prop := SameButThreads s s' ∧ ∀ u, u ≠ t → s'.th u = s.th u

/-- A command completes: it answers a next state, of which `P` holds. -/
def Gives (i : Instr) (s : State) (P : State → Prop) : Prop := ∃ s', exec i s = .next s' ∧ P s'

/-- What a table says of a command in a state: nothing, or what holds of the next state. -/
abbrev Rule := Instr → State → Option (State → Prop)

/-- A rule's entry where its condition holds. -/
def given (c : Bool) (P : State → Prop) : Option (State → Prop) := if c then some P else none

/-- Every command completes as a table says; a syllable does where the thread's bundle, if it was fetched, holds it next (R66). -/
def Rule.Holds (r : Rule) : Prop :=
  ∀ (i : Instr) (s : State) (P : State → Prop), r i s = some P → s.spells i = true → Gives i s P

/-- Every byte outside `n` bytes from `a` on reads as before. -/
def BytesKept (a n : Nat) (s s' : State) : Prop := ∀ x, x < a ∨ a + n ≤ x → s'.rdByte x = s.rdByte x

/-! ## Syllables (R66, R67, R73) -/

/-- The next syllable of thread `t` belongs to bundle `b`, and with predicate `q` it executes. -/
def Runs (s : State) (t : Gtn) (q : Pred) (b : Bundle) : Prop := s.openSyl t.val = some b ∧ b.holds q = true

/-- Is register `r` one that a pattern of a later unit than `u` has written in the bundle, and that keeps that value (R73,
R144). -/
def Bundle.keeps (b : Bundle) (u r : Nat) : Bool := b.keep.contains r && decide (u < b.keepUnit)

/-- What a syllable without memory access does: its thread, predicate and interval, its unit's rank, and by the context as it
stood before the bundle the registers and predicates it writes and whether it sets ST.SOV. -/
structure Effect where
  t : Gtn
  q : Pred
  iv : Nat
  unit : Nat := 0
  regs : Ctx → List (Nat × Word) := fun _ => []
  preds : Ctx → List (Nat × Bool) := fun _ => []
  sov : Ctx → Bool := fun _ => false

/-- What a general register reads as after the writes of a list: g0 and a kept register take none (R75). -/
def regAfter (b : Bundle) (unit : Nat) (was : Ctx) (w : List (Nat × Word)) (r : Nat) : Word :=
  match w.lookup r with
  | some v => if r = 0 ∨ b.keeps unit r = true then was.rd r else v
  | none => was.rd r

/-- What a predicate reads as after the writes of a list: p0 takes none (R75). -/
def predAfter (was : Ctx) (w : List (Nat × Bool)) (r : Nat) : Bool :=
  match w.lookup r with
  | some v => if r = 0 then true else v
  | none => was.rdP r

/-- The effect of a syllable that runs: the registers and predicates it writes and ST.SOV, its place in the bundle, and
nothing else anywhere. -/
def Effect.Done (e : Effect) (b : Bundle) (s s' : State) : Prop :=
  let x := s.th e.t
  let x' := s'.th e.t
  let c := b.old
  OnlyThread e.t s s' ∧
  (∀ r : Reg, x'.ctx.rd r = regAfter b e.unit x.ctx (e.regs c) r) ∧
  (∀ p : PReg, x'.ctx.rdP p = predAfter x.ctx (e.preds c) p) ∧
  x'.ctx.st = (if e.sov c then putBit x.ctx.st 9 true else x.ctx.st) ∧
  { x'.ctx with g := x.ctx.g, p := x.ctx.p, st := x.ctx.st } = x.ctx ∧
  x'.bun = some { b with pos := b.pos + 1, ready := max b.ready (b.issued + e.iv), sov := b.sov || e.sov c } ∧
  { x' with ctx := x.ctx, bun := x.bun, par := x.par } = x

/-- The effect of a syllable whose predicate does not hold: its place in the bundle (R67). -/
def SkipDone (t : Gtn) (b : Bundle) (s s' : State) : Prop :=
  OnlyThread t s s' ∧
  s'.th t = { s.th t with bun := some { b with pos := b.pos + 1, ready := max b.ready (b.issued + 4) } }

/-! ## The invariant -/

/-- What every step keeps: memory is in its canonical form, so that equal memories are equal lists. -/
def State.Inv (s : State) : Prop := Memory.wf s.mem = true

/-- A safe state: the invariant holds and the step from it stops neither with a fault nor with a refusal. -/
def State.Safe (s : State) : Prop := s.Inv ∧ ∃ s', step s = .next s'

end Sys2Proof.Machine
end

