-- ==== Sys2Proof/Rules/Control.lean ====
section
/-! DEFINITION. What chapters 02, 05, 06 and 10 give the commands of the X unit, of patterns and of the thread engine. -/

namespace Sys2Proof.Rules

open Sys2Proof.Machine

/-- A thread after a syllable of interval `iv`, with `f` done to its bundle (R41). -/
def afterSyl (x : Thread) (b : Bundle) (iv : Nat) (f : Bundle → Bundle) : Thread :=
  { x with bun := some (f { b with pos := b.pos + 1, ready := max b.ready (b.issued + iv) }) }

/-- Thread `t` becomes `x'` and nothing else changes. -/
def becomes (t : Gtn) (x' : Thread) (s s' : State) : Prop := OnlyThread t s s' ∧ s'.th t = x'

/-- The entry of a rule for a syllable that runs. -/
def running (s : State) (t : Gtn) (q : Pred) (f : Bundle → Option (State → Prop)) : Option (State → Prop) :=
  match s.openSyl t with
  | some b => if b.holds q then f b else none
  | none => none

/-- The address of the bundle that follows (R70). -/
def following (b : Bundle) : Word := b.addr + BitVec.ofNat 36 (4 * b.size)

/-- ST of a bundle, its level (R84), and the bundle's undoing: the cause waits for the boundary and the context is as before (R74). -/
def level (b : Bundle) : Nat := bits b.old.st 1 0

def Undone (t : Gtn) (b : Bundle) (c : Cause) (s s' : State) : Prop :=
  (s'.th t).pend = some c ∧ (s'.th t).ctx = b.old ∧ s'.mem = s.mem ∧ s'.regs = s.regs ∧
  ∀ u, u ≠ t.val → s'.th u = s.th u

/-! ## The X unit (R81 to R84, R119, R133 to R140) -/

/-- R84, R119: the Privilege cause of a syllable that the level does not allow. -/
def privilege (b : Bundle) (kind pos number : Nat) : Cause :=
  { cls := 2, detail := kind * 64 + pos, target := 1, level := some 15, xra := b.addr, xfa := BitVec.ofNat 36 number }

/-- R81, R84, R119: MFSR of a register that the level may not read, MTSR of one it may not write, HYPC, RFX and PFLUSH at U. -/
def privilegeRule : Rule
  | .mfsr t q _ srn, s => running s t q fun b =>
    given (srnAssigned srn.toNat && decide (level b < srnReadAt srn.toNat))
      (Undone t b (privilege b 0 (b.len - 1) srn.toNat) s)
  | .mtsr t q srn _, s => running s t q fun b =>
    given (srnAssigned srn.toNat && decide (level b < if srnReadOnly srn.toNat then srnReadAt srn.toNat else srnWriteAt srn.toNat))
      (Undone t b (privilege b 1 (b.len - 1) srn.toNat) s)
  | .hypc t q _, s => running s t q fun b => given (level b == 0) (Undone t b (privilege b 2 (b.len - 1) 2) s)
  | .rfx t q, s => running s t q fun b => given (level b == 0) (Undone t b (privilege b 2 (b.len - 1) 3) s)
  | .pflush t q, s => running s t q fun b => given (level b == 0) (Undone t b (privilege b 2 (b.len - 1) 5) s)
  | .tlbiVa t q _, s => running s t q fun b => given (level b == 0) (Undone t b (privilege b 2 b.pos 0x70) s)
  | .tlbiVaa t q _, s => running s t q fun b => given (level b == 0) (Undone t b (privilege b 2 b.pos 0x71) s)
  | .tlbiAsid t q _, s => running s t q fun b => given (level b == 0) (Undone t b (privilege b 2 b.pos 0x72) s)
  | .tlbiOwn t q, s => running s t q fun b => given (level b == 0) (Undone t b (privilege b 2 b.pos 0x73) s)
  | .tlbiIpa t q _ _, s => running s t q fun b => given (decide (level b < 2)) (Undone t b (privilege b 2 b.pos 0x78) s)
  | .tlbiB t q _, s => running s t q fun b => given (decide (level b < 2)) (Undone t b (privilege b 2 b.pos 0x79) s)
  | .tlbiAll t q, s => running s t q fun b => given (decide (level b < 2)) (Undone t b (privilege b 2 b.pos 0x7A) s)
  | _, _ => none

/-- R81, R83, R84: a system register that the level may read or write. The values of MFSR are those the registers held before
the bundle; MTSR writes the fields of R84 to R87. -/
def systemRegisterRule : Rule
  | .mfsr t q rd srn, s => running s t q fun b =>
    given (srnAssigned srn.toNat && decide (srnReadAt srn.toNat ≤ level b))
      (Effect.Done (Effect.mk t q 4 3 (fun c => [(rd.val, s.srnRead t c srn.toNat)]) (fun _ => []) (fun _ => false)) b s)
  | .mtsr t q srn rd, s => running s t q fun b =>
    let n := srn.toNat
    let v := b.old.rd rd
    let c := (s.th t).ctx
    let put (c' : Ctx) (s' : State) : Prop :=
      OnlyThread t s s' ∧ (s'.th t).ctx = c' ∧ { s'.th t with ctx := c, bun := (s.th t).bun, par := (s.th t).par } = s.th t
    given (srnAssigned n && decide ((if srnReadOnly n then srnReadAt n else srnWriteAt n) ≤ level b))
      (if srnReadOnly n then becomes t (afterSyl (s.th t) b 4 id) s
       else if n = 0xA then (fun s' =>
         (s'.core (t / 32)).schedLast = v &&& 0x7F7F7F7F#36 ∧ s'.th t = afterSyl (s.th t) b 4 id ∧ { s' with thr := s.thr, cores := s.cores } = s)
       else if n = 0 then put { c with st := stWritten c.st v (bits c.st 1 0) b.sov }
       else if n = 1 then put { c with cls := min (v.toNat % 4) c.ceil }
       else if n = 2 then put { c with wPend := v.setWidth 8 }
       else if n = 0x11 then put (c.setSysr n (xstWritten 1 (s.strictOf t) v))
       else if n = 0x21 then put (c.setSysr n (xstWritten 2 (s.strictOf t) v))
       else put (c.setSysr n (v &&& BitVec.ofNat 36 (srnMask n))))
  | _, _ => none

/-- R136: the cause of SYSC (class 0x10, to S) and HYPC (0x11, to H): XRA the following bundle, XFA the service number. -/
def serviceCall (cls target : Nat) (b : Bundle) (arg : BitVec 16) : Cause :=
  { cls := cls, target := target, level := none, xra := following b, xfa := arg.setWidth 36 }

/-- The entry of a rule for a syllable, by whether its predicate holds. -/
def whetherRuns (s : State) (t : Gtn) (q : Pred) (f g : Bundle → Option (State → Prop)) : Option (State → Prop) :=
  match s.openSyl t with
  | some b => if b.holds q then f b else g b
  | none => none

/-- R55, R59: an indirect branch that is not taken has its interval of 10 and ends the barrier. -/
def notTaken (s : State) (t : Gtn) (b : Bundle) : Option (State → Prop) :=
  some (becomes t { afterSyl (s.th t) b 10 id with pbar := false } s)

/-- R133 to R138, R47, R59, R54: what a control syllable leaves in its bundle and its thread. -/
def controlRule : Rule
  | .jmp t q ra, s => whetherRuns s t q (fun b =>
    let target := b.old.rd ra &&& 0xF_FFFF_FFFC#36
    let x := afterSyl (s.th t) b 10 (fun b => { b with next := target, branch := true, tev := b.tev ++ [.addr target] })
    given (!b.keeps 3 0) (becomes t { x with pbar := false, par := Tbl.del x.par 0 } s)) (notTaken s t)
  | .jmpl t q rd ra, s => whetherRuns s t q (fun b =>
    let target := b.old.rd ra &&& 0xF_FFFF_FFFC#36
    given (rd != 0 && !b.keeps 3 rd) (fun s' =>
      OnlyThread t s s' ∧ (s'.th t).ctx = (s.th t).ctx.wr rd (following b) ∧
      (s'.th t).bun.map Bundle.next = some target ∧ (s'.th t).pbar = false)) (notTaken s t)
  | .bra t q link hint disp, s => running s t q fun b =>
    let x := afterSyl (s.th t) b (if (s.th t).pbar then 10 else 4) (fun b => { b with
      branch := true, next := b.addr + BitVec.ofInt 36 (disp.toInt * 4), seen := Nat.lor b.seen 0 })
    given (q.reg == 0 && !q.neg && !link) (becomes t { x with pbar := false } s)
  | .wait t q mask, s => running s t q fun b =>
    let x := afterSyl (s.th t) b 4 (fun b => { b with waitMask := some mask })
    given true (becomes t { x with ctx := { x.ctx with wMask := mask } } s)
  | .sysc t q arg, s => running s t q fun b =>
    given true (becomes t (afterSyl (s.th t) b 12 (fun b => { b with call := some (serviceCall 0x10 1 b arg) })) s)
  | .hypc t q arg, s => running s t q fun b =>
    given (level b != 0) (becomes t (afterSyl (s.th t) b 12 (fun b => { b with call := some (serviceCall 0x11 2 b arg) })) s)
  | .rfx t q, s => running s t q fun b =>
    given (level b != 0) (becomes t (afterSyl (s.th t) b 10 (fun b => { b with rfx := true })) s)
  | .syncC t q, s => running s t q fun b =>
    given true (becomes t { afterSyl (s.th t) b 16 id with stall := .syncC } s)
  | .pflush t q, s => running s t q fun b =>
    given (level b != 0) (fun s' =>
      s'.th t = { afterSyl (s.th t) b 4 id with hist := 0 } ∧ (∀ u, u ≠ t.val → s'.th u = s.th u) ∧
      (s'.core (t / 32)).pred = [] ∧ { s' with thr := s.thr, cores := s.cores } = s)
  | .pbar t q, s => running s t q fun b => given true (becomes t { afterSyl (s.th t) b 4 id with pbar := true } s)
  | .tnote t q _ _, s => running s t q fun b =>
    given (!s.traced t b.old.st) (becomes t (afterSyl (s.th t) b 4 id) s)
  | _, _ => none

/-- R53, R54, R133: a conditional branch that is not taken, and one that is: where the thread goes, the counter of its index and
the history under ST.DYN = 1, and the interval by the prediction. -/
def conditionalBranch (t : Gtn) (q : Pred) (link hint : Bool) (disp : BitVec 20) (s : State) : Prop :=
  ∀ b, s.openSyl t = some b → (q.reg ≠ 0 ∨ q.neg = true) → s.spells (.bra t q link hint disp) = true →
    let x := s.th t
    let taken := b.holds q
    let i := predIndex b.addr x.hist t
    let n : BitVec 2 := Tbl.get (fun _ => (1 : BitVec 2)) (s.core (t / 32)).pred i
    let dyn := bit b.old.st 7
    let guess := if dyn then decide (2 ≤ n.toNat) else hint
    Gives (.bra t q link hint disp) s fun s' =>
      (s'.th t).bun.map Bundle.next = some (if taken then b.addr + BitVec.ofInt 36 (disp.toInt * 4) else b.next) ∧
      (s'.th t).bun.map Bundle.ready = some (max b.ready (b.issued + if guess = taken ∧ x.pbar = false then 4 else 10)) ∧
      (s'.th t).hist = (if dyn then x.hist * 2 + (if taken then 1 else 0) else x.hist) ∧
      (s'.th t).ctx.rd 31 = (if taken ∧ link ∧ b.keeps 3 31 = false then following b else x.ctx.rd 31) ∧
      (dyn = true → Tbl.get (fun _ => (1 : BitVec 2)) (s'.core (t / 32)).pred i =
        if taken then (if n = 3 then 3 else n + 1) else (if n = 0 then 0 else n - 1)) ∧
      s'.mem = s.mem

/-! ## Patterns (R103, R104, R141 to R147, R240 to R252) -/

/-- R103: quotient or remainder and ST.SOV. -/
def quotient (x y : Word) : Word × Bool :=
  if y = 0 then (if x.toInt < 0 then 0x8_0000_0000#36 else 0x7_FFFF_FFFF#36, true)
  else if x.toInt = -(2 ^ 35) ∧ y.toInt = -1 then (0x7_FFFF_FFFF#36, true)
  else (BitVec.ofInt 36 (x.toInt.tdiv y.toInt), false)
def quotientU (x y : Word) : Word × Bool := if y = 0 then (0xF_FFFF_FFFF#36, true) else (BitVec.ofNat 36 (x.toNat / y.toNat), false)
def remainder (x y : Word) : Word × Bool :=
  if y = 0 then (x, true)
  else if x.toInt = -(2 ^ 35) ∧ y.toInt = -1 then (0, true)
  else (BitVec.ofInt 36 (x.toInt.tmod y.toInt), false)
def remainderU (x y : Word) : Word × Bool := if y = 0 then (x, true) else (BitVec.ofNat 36 (x.toNat % y.toNat), false)

/-- R104: a pattern instruction, the first of its bundle, starts its pattern. -/
def startsPattern (s : State) (t : Gtn) (q : Pred) (p : Ctx → PatRun) : Option (State → Prop) :=
  running s t q fun b => given (b.pos == 0) (becomes t { afterSyl (s.th t) b 4 (fun b => { b with grant := true }) with pat := some (p b.old) } s)

/-- The pattern of an instruction that reads and writes registers RD, RA, RB as it goes. -/
def pattern (k : PatKind) (rd ra rb : Reg) (_ : Ctx) : PatRun := { kind := k, rd := rd.val, ra := ra.val, rb := rb.val }

/-- A division's pattern holds its result until its twentieth word (R103). -/
def division (f : Word → Word → Word × Bool) (rd ra rb : Reg) (c : Ctx) : PatRun :=
  { kind := .div rd.val (f (c.rd ra) (c.rd rb)).1 (f (c.rd ra) (c.rd rb)).2, rd := rd.val, ra := ra.val, rb := rb.val }

/-- R240, R250: may a thread's pattern execute its word now: the word was given its issue, and shows no error in the store. -/
def wordMay (s : State) (t : Gtn) (p : PatRun) (b : Bundle) : Bool :=
  let a := match p.kind with
    | .user _ => p.maddr
    | _ => p.vendorAt
  s.coreRuns (t / 32) && (s.th t).state == .run && (s.th t).mem == .idle && b.grant &&
  !Tbl.get (fun _ => false) s.pat.bad (patKey (t / 32) a) && !Tbl.get (fun _ => false) s.pat.sbe (patKey (t / 32) a)

/-- R237 to R243: a customer word without a memory operation, a safe point or a vendor-only code: its result goes to its destination, and
the pattern goes on at the next micro-address or completes. -/
def customerWord (s : State) (t : Gtn) (p : PatRun) : Option (State → Prop) :=
  let w := s.patWord (t / 32) p.maddr
  let c := (s.th t).ctx
  let src (code : Nat) : Word := p.source c (signExtFrom 24 (BitVec.ofNat 36 (bits w 23 0))) 0 code
  let r := patAlu (bits w 63 58) (src (bits w 53 50)) (src (bits w 49 46))
  let dst := bits w 57 54
  let d := if dst = 1 then p.rd else if dst = 2 then p.ra else if dst = 3 then p.rb else 0
  let cnt := match bits w 33 32 with
    | 1 => bits w 15 0
    | 2 => p.cnt - 1
    | 3 => bits r.1 15 0
    | _ => p.cnt
  let mdr := if dst = 0xC then r.1 else p.mdr
  given (bits w 45 42 == 0 && !bit w 80 && !vendorOnly w && !(wordSources w).contains 15 && ((p.wordReads w).find? (s.th t).badPar).isNone)
    (fun s' =>
      OnlyThread t s s' ∧ (∀ g : Reg, (s'.th t).ctx.rd g = if d ≠ 0 ∧ g.val = d then r.1 else c.rd g) ∧
      (s'.th t).ctx.st = (if bit w 31 then putBit c.st 9 true else c.st) ∧
      match patNext w p.maddr (fun sel => patCond sel r.1 r.2 cnt mdr (c.rd p.rb) (c.rd p.ra)) with
      | none => (s'.th t).pat = none
      | some a => (s'.th t).pat = some { p with
          maddr := a, issued := p.issued + 1, cnt := cnt, mdr := mdr,
          t := if 4 ≤ dst ∧ dst ≤ 0xB then Tbl.set (fun _ => (0 : Word)) p.t (dst - 4) r.1 else p.t })

/-- R103, R141, R142, R146, R247: the instructions that patterns implement. -/
def patternRule : Rule
  | .div t q rd ra rb, s => startsPattern s t q (division quotient rd ra rb)
  | .divu t q rd ra rb, s => startsPattern s t q (division quotientU rd ra rb)
  | .rem t q rd ra rb, s => startsPattern s t q (division remainder rd ra rb)
  | .remu t q rd ra rb, s => startsPattern s t q (division remainderU rd ra rb)
  | .copy t q rd ra rb, s => startsPattern s t q (pattern .copy rd ra rb)
  | .fill t q rd ra rb, s => startsPattern s t q (pattern .fill rd ra rb)
  | .cmpb t q rd ra rb, s => startsPattern s t q (pattern .cmpb rd ra rb)
  | .crc32c t q rd ra rb, s => startsPattern s t q (pattern (.crc .c32) rd ra rb)
  | .crc16 t q rd ra rb, s => startsPattern s t q (pattern (.crc .c16) rd ra rb)
  | .crc8 t q rd ra rb, s => startsPattern s t q (pattern (.crc .c8) rd ra rb)
  | .crc8h t q rd ra rb, s => startsPattern s t q (pattern (.crc .c8h) rd ra rb)
  | .sunpk t q rd ra rb, s => startsPattern s t q (pattern .unpack rd ra rb)
  | .spack t q rd ra rb, s => startsPattern s t q (pattern .pack rd ra rb)
  | .ucall t q i, s =>
    let k := patKey (t / 32) (0x2000 + i.val)
    let e := s.patEntry (t / 32) i
    if Tbl.get (fun _ => false) s.pat.bad k || Tbl.get (fun _ => false) s.pat.sbe k || !bit e 95 || !bit e (s.th t).berth then none
    else startsPattern s t q (fun _ =>
      { kind := .user i, rd := bits e 82 78, ra := bits e 77 73, rb := bits e 72 68, maddr := 0x1800 + bits e 93 83 })
  | .patternMicroWord t, s =>
    match (s.th t).pat, (s.th t).bun with
    | some p, some b =>
      if !wordMay s t p b then none
      else match p.kind with
        | .div rd v sov => some (fun s' =>
            OnlyThread t s s' ∧
            (if p.issued < 19 then (s'.th t).pat = some { p with issued := p.issued + 1 } ∧ (s'.th t).ctx = (s.th t).ctx
             else (s'.th t).pat = none ∧ (s'.th t).ctx.rd rd = (if rd = 0 then 0 else v) ∧
               (s'.th t).ctx.st = (if sov then putBit (s.th t).ctx.st 9 true else (s.th t).ctx.st)))
        | .user _ => customerWord s t p
        | _ => none
    | _, _ => none
  | .patternWordRewrite core a, s =>
    given (Tbl.get (fun _ => false) s.pat.bad (patKey core a)) (fun s' =>
      Tbl.get (fun _ => false) s'.pat.bad (patKey core a) = false ∧ s'.pat.words = s.pat.words ∧ s'.mem = s.mem ∧ s'.thr = s.thr)
  | _, _ => none

/-! ## The thread engine (R38, R41, R44, R47, R62, R65, R154, R159, R177) -/

/-- Every thread but `t` is as it was, but for a link that a line leaving the L2 clears (R127). -/
def OthersKept (t : Nat) (s s' : State) : Prop := ∀ u, u ≠ t → { s'.th u with link := (s.th u).link } = s.th u

/-- R44: in a cycle in which no wake issue waits and R44 picks thread `t` of class `c`, whose next bundle is whole. -/
def issues (s : State) (core : CoreId) : Option (State → Prop) :=
  let k := s.core core
  let s1 := (s.modCore core (fun k => { k with cycle := k.cycle + 1 })).perfEvent core 0x001 1 none
  if !s.coreRuns core || s.frzReq || (s1.wakeHead core).isSome then none
  else match (s1.pick core 4 false).1 with
    | none => some (fun s' => (s'.core core).cycle = k.cycle + 1 ∧ (s'.core core).hist.head? = some 4 ∧ s'.thr = s.thr ∧ s'.mem = s.mem)
    | some (t, c) =>
      let x := s.th t
      match x.nextBundle (bit x.ctx.st 8) with
      | some (.good ws) =>
        given (x.bun.isNone && (x.badReg ws).isNone && x.buf.all (fun l => l.wrong x.ctx.pc == 0)) (fun s' =>
          (s'.core core).cycle = k.cycle + 1 ∧ (s'.core core).hist.head? = some c ∧
          Tbl.get (fun _ => (31 : Nat)) (s'.core core).rr c = t % 32 ∧ (s'.th t).ctx = x.ctx ∧
          OthersKept t s s' ∧ s'.mem = s.mem ∧
          ∃ b, (s'.th t).bun = some b ∧ b.addr = x.ctx.pc ∧ b.size = ws.length ∧ b.code = ws.filter (fun w => !sylLim w) ∧ b.len = b.code.length ∧ b.old = x.ctx ∧ b.pos = 0 ∧
            b.issued = k.cycle + 1 ∧ b.ready = k.cycle + 5 ∧ b.next = x.ctx.pc + BitVec.ofNat 36 (4 * ws.length))
      | _ => none

/-- R156: the context after entry to level `l`: the registers it saves into, ST, and the vector. -/
def Entered (l : Nat) (old new : Ctx) (xra xca xfa st' vector : Word) : Prop :=
  new.sysr (if l = 2 then 0x20 else 0x10) = xra ∧ new.sysr (if l = 2 then 0x21 else 0x11) = old.st ∧
  new.sysr (if l = 2 then 0x22 else 0x12) = xca ∧ new.sysr (if l = 2 then 0x23 else 0x13) = xfa ∧
  new.st = st' ∧ new.pc = vector ∧ (∀ r : Reg, new.rd r = old.rd r) ∧ (∀ p : PReg, new.rdP p = old.rdP p)

/-- A bundle after which its thread goes on to the next: it raised nothing, calls, returns and waits for nothing, nothing is asked of
the thread, no interrupt is on its way, and the line of the next bundle is in the line buffer, free of poison. -/
def goesOn (s : State) (t : Gtn) (b : Bundle) : Bool :=
  let x := s.th t
  x.pend.isNone && b.call.isNone && !b.rfx && x.stall == .none && !bit b.old.st 11 && b.waitMask.isNone && !b.sampled &&
  !x.holdReq && !s.frzReq && !s.frozen && s.cand.isEmpty && !(s.enc (t / 32)).armed && s.dbg.step.isNone && !x.wakeNext &&
  (match x.buf with
   | some l => l.va == b.next.toNat / 64 * 64 && l.bytes.length == 64 && (s.firstPoison l.pa 64).isNone
   | none => false)

/-- R44: the core's next cycle has no wake issue, and R44 picks thread `t` of class `c`, whose next bundle `ws` is whole. -/
def picks (s : State) (core : CoreId) (t c : Nat) (ws : List W32) : Bool :=
  let s1 := (s.modCore core (fun k => { k with cycle := k.cycle + 1 })).perfEvent core 0x001 1 none
  let x := s.th t
  s.coreRuns core && !s.frzReq && (s1.wakeHead core).isNone && (s1.pick core 4 false).1 == some (t, c) &&
  (match x.nextBundle (bit x.ctx.st 8) with
   | some (.good l) => l == ws
   | _ => false) &&
  x.bun.isNone && (x.badReg ws).isNone && x.buf.all (fun l => l.wrong x.ctx.pc == 0)

/-- R154, R155: a thread accepts an interrupt now. -/
def acceptsNow (s : State) (t : Gtn) : Bool :=
  let x := s.th t
  match s.acceptable t with
  | some i => s.coreRuns (t / 32) && !x.resetting &&
      (x.state == .wait || (x.state == .run && s.boundaryDue t && x.waiting.isNone && !x.holdReq)) && decide (i.level = 1 ∨ i.level = 2)
  | none => false

/-- R47: the bundle at which a thread resumes from WAIT has come. -/
def resumes (s : State) (t : Gtn) : Bool :=
  let x := s.th t
  s.coreRuns (t / 32) && x.state == .run && x.resuming && x.bun.isNone && x.pend.isNone && !s.frzReq && x.fetch == .loaded && !x.holdReq

/-- R49: the line that a thread fetches has come, and can be read. -/
def fills (s : State) (t : Gtn) (pa : Nat) : Bool :=
  (s.th t).fetch == .line pa && s.fetching t && s.readable (t / 128) (pa / 64) && !s.flashWaits pa && !(s.th t).wakeNext && s.dram.flips.isEmpty

/-- The thread engine. -/
def engineRule : Rule
  | .issueSelect core, s => issues s core
  | .bundleBoundary t, s =>
    match (s.th t).bun with
    | some b =>
      given (s.coreRuns (t / 32) && (s.th t).state == .run && !(s.th t).resetting && s.mayEnd t b)
        (fun s' => (s'.th t).bun = none ∧
          (goesOn s t b = true → (s'.th t).ctx = { (s.th t).ctx with pc := b.next } ∧ (s'.th t).fetch = .loaded))
    | none => none
  | .interruptAccept t, s =>
    match s.acceptable t with
    | some i =>
      let x := s.th t
      given (acceptsNow s t)
        (fun s' => (s'.th t).state = .run ∧ (s'.th t).link = none ∧
          Entered i.level x.ctx (s'.th t).ctx x.ctx.pc
            (BitVec.ofNat 36 (bits x.ctx.st 1 0 * 2 ^ 6 + i.prio * 2 ^ 9 + i.event * 2 ^ 13)) 0
            (stIntr x.ctx.st i.level i.prio) (x.now (if i.level = 2 then 0x24 else 0x14)))
    | none => none
  | .waitChannelWake t, s =>
    let x := s.th t
    given (s.coreRuns (t / 32) && !s.frzReq && x.state == .wait && x.ctx.wPend &&& x.ctx.wMask != 0)
      (fun s' => (s'.th t).state = .run ∧
        (s'.th t).ctx = { x.ctx with wLast := x.ctx.wPend &&& x.ctx.wMask, wPend := x.ctx.wPend &&& ~~~(x.ctx.wPend &&& x.ctx.wMask) } ∧
        s'.mem = s.mem)
  | .resumeBundleLoaded t, s =>
    let x := s.th t
    let m := x.ctx.wPend &&& x.ctx.wMask
    given (resumes s t)
      (becomes t (if m = 0 then { x with resuming := false, state := .wait, link := none, bnd := false, bndEnt := none }
        else { x with resuming := false, ctx := { x.ctx with wLast := m, wPend := x.ctx.wPend &&& ~~~m } }) s)
  | .lineFillArrive t, s =>
    match (s.th t).fetch with
    | .line pa =>
      given (fills s t pa)
        (fun s' => (s'.th t).buf = some { va := (s.th t).ctx.pc.toNat / 64 * 64, pa := pa, bytes := s.coreBytes (t / 128) pa 64 } ∧
          (s'.th t).ctx = (s.th t).ctx ∧ (s'.th t).readyAt = max (s.th t).readyAt ((s.core (t / 32)).cycle + 4) ∧
          ((s.firstPoison pa 64).isNone = true → (s'.th t).fetch = .loaded) ∧ s'.mem = s.mem)
    | _ => none
  | .tableWalkDone t, s =>
    let x := s.th t
    match x.mem with
    | .walk r va =>
      (match s.threadWalk t va.toNat r.op.acc with
       | .ok e => given (s.alive t && (s.walkOf t).isSome) (fun s' => s' = s.walkDone t e (fun s => s.memTry t r .walked))
       | .error f => given (s.alive t && (s.walkOf t).isSome && !r.op.isStc && x.bun.isSome) (fun s' =>
           (s'.th t).pend = some (failCause f r.op.wr false (s.bunOf t).addr va.toNat) ∧ (s'.th t).mem = .idle))
    | _ => none
  | .pairMismatch n high sel kind, s =>
    let p := 4 * n.val + 2 * b2n high
    given (s.paired.getLsbD n && s.coreRuns p) (fun s' =>
      (∀ i, i < 32 → (s'.th (32 * p + i)).state = .locked) ∧ s'.lockLow = true ∧
      Tbl.get (fun _ => (0 : Nat)) s'.hm.pairAt p = 1 ∧ s'.counter n 16 = (if s.counter n 16 < 0xFF then s.counter n 16 + 1 else s.counter n 16))
  | .threadHoldArrival t, s =>
    let x := s.th t
    let held := { x with holdSent := false, holdReq := false, state := .held, memo := .wait, link := none, wakeNext := false }
    given (x.holdSent && x.state == .wait) (fun s' =>
      s'.th t = { held with launch := none, elWant := none } ∧
      s'.queued t = false ∧ (∀ u, u ≠ t.val → s'.th u = s.th u) ∧ s'.mem = s.mem)
  | .threadContextResetDone t, s =>
    given ((s.th t).resetting && s.hm.mbx.isEmpty) (fun s' =>
      let c := s'.th t
      OnlyThread t s s' ∧ c.resetting = false ∧ (∀ r : Reg, c.ctx.rd r = 0) ∧ (∀ p : PReg, c.ctx.rdP p = (p == 0)) ∧ c.par = [])
  | _, _ => none

end Sys2Proof.Rules
end

