-- ==== Sys2Proof/Rules/Memory.lean ====
section
/-! DEFINITION. What chapters 05, 07 and 08 give the memory commands: loads, stores, linked pairs, atomics, cache and TLB
maintenance, ordering, and the responses that let them go on. -/

namespace Sys2Proof.Rules

open Sys2Proof.Machine

/-- R77, R116: the effective address. -/
def address (c : Ctx) : Addr → Word
  | .imm ra i => c.rd ra + i
  | .idx ra rb => c.rd ra + c.rd rb

/-- Where the pieces of a request lie (R123, R174), when its translation finds them and no TLB entry has a parity error. -/
def found (s : State) (t : Gtn) (b : Bundle) (r : MReq) : Option (List PPiece) :=
  if s.tlbs.any TlbEntry.bad then none
  else match State.resolve t r.op b.addr (pieces r.va r.op.size) s [] with
  | (.found l, _) => some l
  | _ => none

/-- R189: does an agent's cache take a line without giving up another. -/
def roomFor (s : State) (a line : Nat) : Bool :=
  let c := agentCache a
  match c.touch (s.cset c line) line (fun l => let x := (s.aline a l).st; x != .I && !x.leaving) (fun l => (s.aline a l).st.holds) with
  | .hit _ => true
  | .fill _ none => true
  | _ => false

/-- The physical address of the first byte. -/
def firstPa (l : List PPiece) : Nat := (l.headD ⟨0, 0, 0, none⟩).pa

/-- The bytes that a cluster reads at the pieces: those of memory, but for flash lines that it holds from before the flash changed (R211). -/
def bytesAt (s : State) (t : Gtn) (l : List PPiece) : List Byte := l.flatMap (fun p => s.coreBytes (t / 128) p.pa p.len)

/-- Is every piece in DRAM or quay SRAM, or for a read also in flash (R14). -/
def inRam (s : State) (l : List PPiece) : Bool := l.all (fun p => s.region p.pa == .dram || s.region p.pa == .quay)
def inNormal (s : State) (l : List PPiece) : Bool := l.all (fun p => (s.region p.pa).normal)

/-! ## Loads (R117, R120, R125, R132) -/

/-- A load: thread, predicate, address, request, the registers it writes by its little-endian number, and whether it links. -/
structure Load where
  t : Gtn
  q : Pred
  va : Ctx → Word
  op : MOp
  regs : Nat → List (Nat × Word)
  link : Bool := false

/-- R117, R118: what each load writes. -/
def loadOf : Instr → Option Load
  | .ldB t q rd a => some ⟨t, q, (address · a), .load .b rd, fun n => [(rd.val, (BitVec.ofNat 8 n).signExtend 36)], false⟩
  | .ldH t q rd a => some ⟨t, q, (address · a), .load .h rd, fun n => [(rd.val, (BitVec.ofNat 16 n).signExtend 36)], false⟩
  | .ldW t q rd a => some ⟨t, q, (address · a), .load .w rd, fun n => [(rd.val, (BitVec.ofNat 32 n).signExtend 36)], false⟩
  | .ldX t q rd a => some ⟨t, q, (address · a), .load .x rd, fun n => [(rd.val, BitVec.ofNat 36 n)], false⟩
  | .ldBu t q rd a => some ⟨t, q, (address · a), .load .bu rd, fun n => [(rd.val, BitVec.ofNat 36 n)], false⟩
  | .ldHu t q rd a => some ⟨t, q, (address · a), .load .hu rd, fun n => [(rd.val, BitVec.ofNat 36 n)], false⟩
  | .ldWu t q rd a => some ⟨t, q, (address · a), .load .wu rd, fun n => [(rd.val, BitVec.ofNat 36 n)], false⟩
  | .ldD t q rd a =>
    if rd.val % 2 = 0 ∧ rd ≠ 0 then
      some ⟨t, q, (address · a), .load .d rd,
        fun n => [(rd.val, BitVec.ofNat 36 (n % 2 ^ 32)), (rd.val + 1, (BitVec.ofNat 32 (n / 2 ^ 32)).signExtend 36)], false⟩
    else none
  | .ldAqW t q rd ra rb => some ⟨t, q, (address · (.idx ra rb)), .loadAcq false rd, fun n => [(rd.val, (BitVec.ofNat 32 n).signExtend 36)], false⟩
  | .ldAqX t q rd ra rb => some ⟨t, q, (address · (.idx ra rb)), .loadAcq true rd, fun n => [(rd.val, BitVec.ofNat 36 n)], false⟩
  | .ldlW t q rd ra => some ⟨t, q, (·.rd ra), .loadLink false rd, fun n => [(rd.val, (BitVec.ofNat 32 n).signExtend 36)], true⟩
  | .ldlX t q rd ra => some ⟨t, q, (·.rd ra), .loadLink true rd, fun n => [(rd.val, BitVec.ofNat 36 n)], true⟩
  | _ => none

/-- A load that waits for nothing: aligned where it must be, translated and allowed, of lines that the core's L1D holds (and that
the cluster may write, for a link), with no buffered store of the thread, no poison and no flash port in use. -/
def loadReady (s : State) (l : Load) (b : Bundle) (ps : List PPiece) : Bool :=
  (!l.op.aligned || (l.va b.old).toNat % l.op.size == 0) && (if l.link then inRam s ps else inNormal s ps) &&
  (s.sbReal l.t).isEmpty && s.coh.l1dBad.isEmpty &&
  ps.all (fun p => (if l.link then s.writable (l.t / 128) (p.pa / 64) else s.readable (l.t / 128) (p.pa / 64)) &&
    s.inL1d (l.t / 32) (p.pa / 64) && !s.flashWaits p.pa && (s.firstPoison p.pa p.len).isNone)

/-- The interval of a load that hits the L1D (R41): 4 cycles where it was launched early and the launch has come back (R57), else 8. -/
def hitInterval (l : Load) (b : Bundle) (ps : List PPiece) : Nat :=
  match l.op, b.el with
  | .load _ _, some e => if e.line = firstPa ps / 64 ∧ e.back then 4 else 8
  | _, _ => 8

/-- R117, R120, R41, R57, R125: its destination holds the bytes in its form, an LDL sets the thread's link, and no byte of memory, register of
the device or other thread changes. A load split over two lines has read its lower half (R124). -/
def loadRule : Rule := fun i s =>
  match loadOf i with
  | none => none
  | some l => running s l.t l.q fun b =>
    match found s l.t b { op := l.op, va := l.va b.old } with
    | none => none
    | some (p :: _ :: []) => given (loadReady s l b [p]) (fun s' =>
        (match (s'.th l.t).mem with
          | .line r => r.op = l.op ∧ r.got = bytesAt s l.t [p]
          | _ => False) ∧ (s'.th l.t).ctx = (s.th l.t).ctx ∧
        (∀ u, u ≠ l.t.val → s'.th u = s.th u) ∧ { s' with thr := s.thr, tlbs := s.tlbs, coh := s.coh } = s)
    | some ps => given (loadReady s l b ps) (fun s' =>
        let x := s.th l.t
        let x' := s'.th l.t
        (∀ r : Reg, x'.ctx.rd r = regAfter b 2 x.ctx (l.regs (leNat (bytesAt s l.t ps))) r) ∧
        { x'.ctx with g := x.ctx.g } = x.ctx ∧
        x'.link = (if l.link then some { pa := firstPa ps, ext := l.op.size == 8, window := true } else x.link) ∧
        x'.bun = some { b with pos := b.pos + 1, ready := max b.ready (b.issued + hitInterval l b ps) } ∧ x'.mem = .idle ∧
        (∀ u, u ≠ l.t.val → s'.th u = s.th u) ∧
        { s' with thr := s.thr, tlbs := s.tlbs, coh := s.coh } = s)

/-! ## Stores (R117, R120, R121, R132, R196) -/

/-- A store: thread, predicate, address, bytes, whether it clamps (R120), whether it releases (R132). -/
structure Store where
  t : Gtn
  q : Pred
  va : Ctx → Word
  data : Ctx → List Byte
  sov : Ctx → Bool := fun _ => false
  release : Bool := false

/-- R80: an extended word's slot. -/
def slot (w : Word) : List Byte := leBytes 8 (w.signExtend 64).toNat

/-- R120: a saturating store of `n` bytes clamps to `lo` to `hi`. -/
def clamped (t : Gtn) (q : Pred) (n : Nat) (lo hi : Int) (rd ra rb : Reg) : Option Store :=
  some { t := t, q := q, va := (address · (.idx ra rb)),
         data := fun c => leBytes n (BitVec.ofInt 36 (max lo (min hi (c.rd rd).toInt))).toNat,
         sov := fun c => decide ((c.rd rd).toInt < lo ∨ hi < (c.rd rd).toInt) }

/-- R117, R120, R132: what each store stores. -/
def storeOf : Instr → Option Store
  | .stB t q rd a => some { t := t, q := q, va := (address · a), data := fun c => leBytes 1 (c.rd rd).toNat }
  | .stH t q rd a => some { t := t, q := q, va := (address · a), data := fun c => leBytes 2 (c.rd rd).toNat }
  | .stW t q rd a => some { t := t, q := q, va := (address · a), data := fun c => leBytes 4 (c.rd rd).toNat }
  | .stX t q rd a => some { t := t, q := q, va := (address · a), data := fun c => slot (c.rd rd) }
  | .stD t q rd a =>
    if rd.val % 2 = 0 ∧ rd ≠ 0 then
      some { t := t, q := q, va := (address · a), data := fun c => leBytes 4 (c.rd rd).toNat ++ leBytes 4 (c.rd (rd.val + 1)).toNat }
    else none
  | .ssB t q rd ra rb => clamped t q 1 (-128) 127 rd ra rb
  | .ssBu t q rd ra rb => clamped t q 1 0 255 rd ra rb
  | .ssH t q rd ra rb => clamped t q 2 (-32768) 32767 rd ra rb
  | .ssHu t q rd ra rb => clamped t q 2 0 65535 rd ra rb
  | .ssW t q rd ra rb => clamped t q 4 (-(2 ^ 31)) (2 ^ 31 - 1) rd ra rb
  | .ssWu t q rd ra rb => clamped t q 4 0 (2 ^ 32 - 1) rd ra rb
  | .stRlW t q rd ra rb =>
    some { t := t, q := q, va := (address · (.idx ra rb)), data := fun c => leBytes 4 (c.rd rd).toNat, release := true }
  | .stRlX t q rd ra rb => some { t := t, q := q, va := (address · (.idx ra rb)), data := fun c => slot (c.rd rd), release := true }
  | _ => none

/-- The store buffer entries of a store: one per piece, in order, each in the next free place (R196); the second is the upper half (R123). -/
def entriesOf (t : Gtn) : Nat → Bool → List Nat → List PPiece → List Byte → List SbEntry
  | _, _, _, [], _ => []
  | n, up, free, p :: r, bs =>
    { gtn := t, order := n, op := .store, pa := p.pa, data := bs.take p.len, via := p.via, upper := up, slot := free.headD 0 } ::
      entriesOf t (n + 1) true free.tail r (bs.drop p.len)

/-- A store that the store buffer takes at once. -/
def storeReady (s : State) (st : Store) (b : Bundle) (ps : List PPiece) : Bool :=
  inRam s ps && s.sbRoom st.t ps.length b.wake &&
  (!st.release || ((st.va b.old).toNat % (st.data b.old).length == 0 && (s.sbReal st.t).isEmpty))

/-- R117, R120, R127, R196: the bytes enter the store buffer, one entry for each piece at the physical address of that piece, in
order behind those there; ST.SOV is set where the value is clamped; the thread's own link to a line it stores to ends. No byte of
memory changes until an entry drains. -/
def storeRule : Rule := fun i s =>
  match storeOf i with
  | none => none
  | some st => running s st.t st.q fun b =>
    let op : MOp := if st.release then .storeRel (st.data b.old) else .store (st.data b.old)
    match found s st.t b { op := op, va := st.va b.old } with
    | none => none
    | some ps => given (storeReady s st b ps) (fun s' =>
        let x := s.th st.t
        let x' := s'.th st.t
        (s'.core (st.t / 32)).sb = (s.core (st.t / 32)).sb ++ entriesOf st.t x.sbOrder false (s.sbSlots st.t b.wake) ps (st.data b.old) ∧
        x'.ctx = { x.ctx with st := if st.sov b.old then putBit x.ctx.st 9 true else x.ctx.st } ∧
        x'.link = (match x.link with
          | some l => if ps.any (fun p => p.pa / 64 == l.pa / 64) then none else some l
          | none => none) ∧
        x'.mem = .idle ∧ x'.sbOrder = x.sbOrder + ps.length ∧
        (∀ u, u ≠ st.t.val → s'.th u = s.th u) ∧ (∀ c, c ≠ st.t.val / 32 → s'.core c = s.core c) ∧
        { s' with thr := s.thr, tlbs := s.tlbs, cores := s.cores } = s)

/-- R197, R231: an entry of a store drains into a line that the cluster holds in M or E: its bytes are in memory from its address
on, every other byte reads as before, the entry leaves, and links of other threads to the line end (R127). -/
def drainRule : Rule
  | .storeBufferDrain t order, s =>
    match (s.sbOf t).find? (fun e => e.order == order && e.op != .marker) with
    | some e =>
      given (s.domain (2 + t / 128) == .on && !s.frozen && !(s.th t).entryOpen order && !s.entryBehind e && e.op == .store &&
          s.writable (t / 128) (e.pa / 64) && !e.dbe && (s.th t).mem == .idle)
        (fun s' => s'.rdBytes e.pa e.data.length = e.data ∧ BytesKept e.pa e.data.length s s' ∧
          (s'.core (t / 32)).sb = sbTrim [] ((s.core (t / 32)).sb.erase e) ∧
          (∀ u, u ≠ t.val → ∀ l, (s'.th u).link = some l → l.pa / 64 ≠ e.pa / 64 ∨ u ∉ s.thr.map Prod.fst) ∧
          (∀ u, (s'.th u).ctx = (s.th u).ctx))
    | none => none
  | _, _ => none

/-! ## Linked stores and atomics (R125 to R131) -/

/-- An STC: thread, predicate, address register, data and result register. -/
structure Stc where
  t : Gtn
  q : Pred
  ra : Reg
  data : Ctx → List Byte
  rb : Reg

/-- R126. -/
def stcOf : Instr → Option Stc
  | .stcW t q rd ra rb => some ⟨t, q, ra, fun c => leBytes 4 (c.rd rd).toNat, rb⟩
  | .stcX t q rd ra rb => some ⟨t, q, ra, fun c => slot (c.rd rd), rb⟩
  | _ => none

/-- R126: with a link to the same address and width RB becomes 0 and the bytes enter the store buffer; without it RB becomes 1 and
nothing is stored. Either way the link ends. -/
def stcRule : Rule := fun i s =>
  match stcOf i with
  | none => none
  | some c => running s c.t c.q fun b =>
    let ext := (c.data b.old).length == 8
    let op : MOp := .stc ext (c.data b.old) c.rb
    match found s c.t b { op := op, va := b.old.rd c.ra } with
    | none => none
    | some ps =>
      let x := s.th c.t
      let linked := match x.link with
        | some l => l.pa == firstPa ps && l.ext == ext
        | none => false
      given ((b.old.rd c.ra).toNat % (c.data b.old).length == 0 && inRam s ps && (!linked || s.sbRoom c.t 1 b.wake)) (fun s' =>
        let x' := s'.th c.t
        x'.link = none ∧ s'.mem = s.mem ∧
        (∀ r : Reg, x'.ctx.rd r = regAfter b 2 x.ctx [(c.rb.val, if linked then 0 else 1)] r) ∧
        (s'.core (c.t / 32)).sb.map (fun e => (e.gtn, e.order, e.pa, e.data)) =
          (s.core (c.t / 32)).sb.map (fun e => (e.gtn, e.order, e.pa, e.data)) ++
            (if linked then [(c.t.val, x.sbOrder, firstPa ps, c.data b.old)] else []))

/-- An atomic: operation, width, registers. -/
def amoOf : Instr → Option (Gtn × Pred × AmoOp × Bool × Reg × Reg × Reg)
  | .amoSwapW t q rd ra rb => some (t, q, .swap, false, rd, ra, rb)
  | .amoAddW t q rd ra rb => some (t, q, .add, false, rd, ra, rb)
  | .amoAndW t q rd ra rb => some (t, q, .and, false, rd, ra, rb)
  | .amoOrW t q rd ra rb => some (t, q, .or, false, rd, ra, rb)
  | .amoXorW t q rd ra rb => some (t, q, .xor, false, rd, ra, rb)
  | .amoMinW t q rd ra rb => some (t, q, .min, false, rd, ra, rb)
  | .amoMaxW t q rd ra rb => some (t, q, .max, false, rd, ra, rb)
  | .amoMinuW t q rd ra rb => some (t, q, .minu, false, rd, ra, rb)
  | .amoMaxuW t q rd ra rb => some (t, q, .maxu, false, rd, ra, rb)
  | .amoCasW t q rd ra rb => some (t, q, .cas, false, rd, ra, rb)
  | .amoSwapX t q rd ra rb => some (t, q, .swap, true, rd, ra, rb)
  | .amoAddX t q rd ra rb => some (t, q, .add, true, rd, ra, rb)
  | .amoCasX t q rd ra rb => some (t, q, .cas, true, rd, ra, rb)
  | _ => none

/-- R130: the atomic goes to the line: the thread waits for it, with its operands as they stood before the bundle. -/
def amoRule : Rule := fun i s =>
  match amoOf i with
  | none => none
  | some (t, q, op, ext, rd, ra, rb) => running s t q fun b =>
    let r : MReq := { op := .amo op ext rd (b.old.rd rb) (b.old.rd rd), va := b.old.rd ra }
    match found s t b r with
    | none => none
    | some ps =>
      given (r.va.toNat % r.op.size == 0 && inRam s ps && b.xFault.isNone) (fun s' =>
        (s'.th t).mem = (if (s.sbReal t).any (fun e => e.pa / 64 == firstPa ps / 64) || s.marked t then .stores { r with found := ps }
          else .line { r with found := ps }) ∧
        (s'.th t).ctx = (s.th t).ctx ∧ s'.mem = s.mem)

/-- R130: the new value of an atomic, on 32 or 36 bits. -/
def atomic {w : Nat} (op : AmoOp) (old b d : BitVec w) : BitVec w :=
  match op with
  | .swap => b
  | .add => old + b
  | .and => old &&& b
  | .or => old ||| b
  | .xor => old ^^^ b
  | .min => if b.toInt < old.toInt then b else old
  | .max => if old.toInt < b.toInt then b else old
  | .minu => if b.toNat < old.toNat then b else old
  | .maxu => if old.toNat < b.toNat then b else old
  | .cas => if old = d then b else old

/-- R130: what an atomic stores and what it writes to RD, from the bytes it reads. -/
def atomicResult (op : AmoOp) (ext : Bool) (bs : List Byte) (b d : Word) : List Byte × Word :=
  if ext then
    let old : Word := BitVec.ofNat 36 (leNat bs)
    (slot (atomic op old b d), old)
  else
    let old : W32 := BitVec.ofNat 32 (leNat bs)
    (leBytes 4 (atomic op old (b.setWidth 32) (d.setWidth 32)).toNat, old.signExtend 36)

/-! ## What lets a request go on (R20 to R23, R57, R128, R139, R182) -/

/-- The responses. -/
def responseRule : Rule
  | .loadDataReturn t, s =>
    match (s.th t).mem, (s.th t).bun with
    | .line r, some b =>
      (match r.op with
       | .amo op ext rd y d =>
         (match r.found with
          | p :: [] =>
            given (s.alive t && (s.th t).stall == .none && r.va.toNat % r.op.size == 0 && (pieces r.va r.op.size).length == 1 &&
                inRam s [p] && b.xFault.isNone && (s.th t).launch.isNone && s.dram.flips.isEmpty && !s.marked t &&
                !(s.sbReal t).any (fun e => e.pa / 64 == p.pa / 64) && s.writable (t / 128) (p.pa / 64) && (s.firstPoison p.pa p.len).isNone)
              (fun s' =>
                let v := atomicResult op ext (s.rdBytes p.pa p.len) y d
                s'.rdBytes p.pa p.len = v.1 ∧ BytesKept p.pa p.len s s' ∧ (s'.th t).mem = .idle ∧
                (rd ≠ 0 → b.keeps 2 rd = false → (s'.th t).ctx.rd rd = v.2))
          | _ => none)
       | .load .w rd =>
         (match r.found with
          | p :: [] =>
            given (s.alive t && (s.th t).stall == .none && inNormal s [p] && (s.sbReal t).isEmpty && r.asked && r.got == [] &&
                (pieces r.va r.op.size).length == 1 && (s.th t).launch.isNone && s.dram.flips.isEmpty && s.coh.l1dBad.isEmpty && s.readable (t / 128) (p.pa / 64) &&
                !s.flashWaits p.pa && (s.firstPoison p.pa p.len).isNone)
              (fun s' => s'.mem = s.mem ∧ (s'.th t).mem = .idle ∧
                (s'.th t).bun.map Bundle.ready = some (max b.ready ((s.core (t / 32)).cycle + 2)) ∧
                (rd ≠ 0 → b.keeps 2 rd = false → (s'.th t).ctx.rd rd = (BitVec.ofNat 32 (leNat (bytesAt s t [p]))).signExtend 36))
          | _ => none)
       | _ => none)
    | _, _ => none
  | .deviceAccessResponse t data err, s =>
    match (s.th t).mem, (s.th t).bun with
    | .device r _ none true, some b =>
      (match r.op with
       | .load .w rd =>
         if err then given (s.alive t && b.xFault.isNone) (fun s' =>
             (s'.th t).pend = some { cls := 8, detail := 1, target := 1, level := some 12, xra := b.addr, xfa := r.va } ∧ (s'.th t).ctx = b.old)
         else given (s.alive t && rd != 0 && !b.keeps 2 rd && b.xFault.isNone) (fun s' =>
             (s'.th t).mem = .idle ∧ (s'.th t).ctx.rd rd = (data.setWidth 32).signExtend 36 ∧
             (s'.th t).bun.map Bundle.ready = some (max b.ready ((s.core (t / 32)).cycle + 2)) ∧ SameButThreads s s')
       | _ => none)
    | .device r pa none false, some b =>
      (match r.op with
       | .store d =>
         (match s.regAccess (s.threadReq t) pa (some (BitVec.ofNat 32 (leNat d))) with
          | (.done _, s1) => given (s.alive t && b.xFault.isNone) (fun s' =>
              OnlyThread t s1 s' ∧ (s'.th t).mem = .idle ∧ (s'.th t).bun.isSome = (s1.th t).bun.isSome)
          | (.error n, _) => given (s.alive t) (fun s' =>
              (s'.th t).pend.map Cause.cls = some 8 ∧ (s'.th t).pend.map Cause.detail = some (2 ^ 7 + n))
          | _ => none)
       | _ => none)
    | _, _ => none
  | .registerAccessTimeout .other, s =>
    match s.waits with
    | (d, .reg rq pa w) :: r => given (decide (d < 24) && !s.frozen) (fun s' =>
        s'.waits = r ∧ bit s'.fabTimeoutEvr 18 = true ∧ s'.thr = s.thr ∧ s'.mem = s.mem ∧
        (rq.cls = .harbour → s'.log.getLast?.map (fun e => (e.source, e.kind, e.addr)) = some (0x10, 0x01, pa)))
    | (d, .debug) :: r => given (decide (d < 24) && !s.frozen) (fun s' =>
        s'.waits = r ∧ bit s'.fabTimeoutEvr 18 = true ∧ s'.dbg.dae.busy = none ∧ s'.dbg.dae.err = true ∧ s'.mem = s.mem)
    | [] => some (fun s' => s' = s)
    | _ => none
  | .registerAccessTimeout (.thread t), s =>
    match (s.th t).mem, (s.th t).bun with
    | .device r _ _ _, some b =>
      given (s.alive t && !s.frozen) (fun s' =>
        (s'.th t).pend = some { cls := 8, detail := (if r.op.acc == .read then 0 else 2 ^ 7) + 2, target := 1, level := some 12, xra := b.addr, xfa := r.va } ∧
        (s'.th t).ctx = b.old ∧ bit s'.fabTimeoutEvr 18 = true ∧ s'.mem = s.mem)
    | _, _ => none
  | .linkDelayExpiry t, s =>
    match (s.th t).link with
    | some l => some (becomes t { s.th t with link := some { l with window := false } } s)
    | none => none
  | .tlbMaintenanceComplete, s =>
    match s.tlbis with
    | o :: r => given (!s.viaPending o) (fun s' =>
        s'.tlbis = r ∧ (∀ e, e ∈ s'.tlbs ↔ e ∈ s.tlbs ∧ o.covers e = false) ∧ s'.mem = s.mem ∧
        (∀ t : Gtn, o.gtn = some t.val → (s'.th t).tlbis = (s.th t).tlbis - 1))
    | [] => none
  | .iflushComplete t, s =>
    match (s.th t).mem with
    | .iflushAck line => given (s.alive t) (fun s' =>
        (s'.th t).mem = .idle ∧ (∀ e ∈ s'.coh.l1i, e.1 % 2 ^ 34 ≠ line) ∧
        (∀ u ∈ s.thr.map Prod.fst, ∀ l, (s'.th u).buf = some l → l.pa / 64 ≠ line) ∧ s'.mem = s.mem)
    | _ => none
  | _, _ => none

/-! ## Ordering and maintenance (R132, R139, R181, R182, R212 to R214) -/

/-- A cache operation: thread, predicate, address register, kind of entry. -/
def cacheOf : Instr → Option (Gtn × Pred × Reg × ClKind × SbOp)
  | .clClean t q ra => some (t, q, ra, .clean, .clean)
  | .clFlush t q ra => some (t, q, ra, .flush, .flush)
  | .clInv t q ra => some (t, q, ra, .inv, .inv)
  | .clZero t q ra => some (t, q, ra, .zero, .zero)
  | _ => none

/-- A TLB maintenance operation: thread, predicate, level it needs, what it names (R181). -/
def tlbiOf : Instr → Option (Gtn × Pred × Nat × (Thread → Ctx → Tlbi))
  | .tlbiVa t q ra => some (t, q, 1, fun x c =>
      ⟨some t, some x.berth, some x.asid.toNat, true, false, some (c.rd ra).toNat, none⟩)
  | .tlbiVaa t q ra => some (t, q, 1, fun x c => ⟨some t, some x.berth, none, true, false, some (c.rd ra).toNat, none⟩)
  | .tlbiAsid t q ra => some (t, q, 1, fun x c => ⟨some t, some x.berth, some ((c.rd ra).toNat % 2 ^ 12), false, true, none, none⟩)
  | .tlbiOwn t q => some (t, q, 1, fun x _ => ⟨some t, some x.berth, none, true, false, none, none⟩)
  | .tlbiIpa t q ra rb => some (t, q, 2, fun _ c =>
      ⟨some t, some ((c.rd rb).toNat % 64), none, true, false, none, some ((c.rd ra).toNat % 2 ^ 28 * 2 ^ 12)⟩)
  | .tlbiB t q rb => some (t, q, 2, fun _ c => ⟨some t, some ((c.rd rb).toNat % 64), none, true, false, none, none⟩)
  | .tlbiAll t q => some (t, q, 2, fun _ _ => ⟨some t, none, none, true, false, none, none⟩)
  | _ => none

/-- R212, R181, R182: an operation on a cache line takes a store buffer entry at its line; a TLB maintenance operation that no
older store holds back is broadcast. -/
def maintenanceRule : Rule := fun i s =>
  match cacheOf i, tlbiOf i with
  | some (t, q, ra, k, op), _ => running s t q fun b =>
    match found s t b { op := .cl k, va := b.old.rd ra } with
    | none => none
    | some ps => given (inRam s ps && s.sbRoom t 1 b.wake && ps.length == 1) (fun s' =>
        (s'.core (t / 32)).sb = (s.core (t / 32)).sb ++
          [{ gtn := t, order := (s.th t).sbOrder, op := op, pa := firstPa ps / 64 * 64, data := [], via := (ps.head?).bind PPiece.via,
             slot := (s.sbSlots t b.wake).headD 0 }] ∧
        (s'.th t).ctx = (s.th t).ctx ∧ s'.mem = s.mem ∧ s'.regs = s.regs)
  | none, some (t, q, pl, o) => running s t q fun b =>
    given (decide (pl ≤ level b) && (s.sbReal t).isEmpty && b.xFault.isNone) (fun s' =>
      s'.tlbis = s.tlbis ++ [o (s.th t) b.old] ∧ (s'.th t).tlbis = (s.th t).tlbis + 1 ∧ (s'.th t).ctx = (s.th t).ctx ∧
      { s' with thr := s.thr, tlbis := s.tlbis } = s)
  | none, none => none

/-- R132, R139, R197, R214: the other ordering operations. -/
def orderingRule : Rule
  | .fence t q, s => running s t q fun b =>
    given true (becomes t { afterSyl (s.th t) b 4 id with stall := if (s.sbReal t).isEmpty then (s.th t).stall else .fence } s)
  | .fenceSs t q, s => running s t q fun b =>
    if (s.sbReal t).isEmpty then some (becomes t (afterSyl (s.th t) b 4 id) s) else some (fun s' =>
      (s'.core (t / 32)).sb = (s.core (t / 32)).sb ++ [{ gtn := t, order := (s.th t).sbOrder, op := .marker, pa := 0, data := [] }] ∧
      (s'.th t).ctx = (s.th t).ctx ∧ s'.mem = s.mem)
  | .iflush t q ra, s => running s t q fun b =>
    match found s t b { op := .iflush, va := b.old.rd ra } with
    | some ps => given (inNormal s ps && (s.sbReal t).isEmpty && b.xFault.isNone)
        (fun s' => (s'.th t).mem = .iflushAck (firstPa ps / 64) ∧ (s'.th t).ctx = (s.th t).ctx ∧ s'.mem = s.mem)
    | none => none
  | .clPref t q ra, s => running s t q fun b =>
    match s.translate t (b.old.rd ra).toNat .read with
    | (.hit pa _, _) =>
      given ((s.region pa == .dram || s.region pa == .quay) && s.readable (t / 128) (pa / 64) && b.xFault.isNone)
        (fun s' => s'.inL1d (t / 32) (pa / 64) = true ∧ (s'.th t).ctx = (s.th t).ctx ∧ s'.mem = s.mem)
    | _ => none
  | .clPrefw t q ra, s => running s t q fun b =>
    match s.translate t (b.old.rd ra).toNat .write with
    | (.hit pa _, _) =>
      given ((s.region pa == .dram || s.region pa == .quay) && (s.aline (t / 128) (pa / 64)).st == .I && !s.agentOut (t / 128) &&
          roomFor s (t / 128) (pa / 64) &&
          decide (s.outstanding (t / 128) (sliceOf (pa / 64)) < 4) && b.xFault.isNone)
        (fun s' => (s'.aline (t / 128) (pa / 64)).st = .IMad ∧
          s'.coh.msgs = s.coh.msgs ++ [{ kind := .getM, agent := t / 128, line := pa / 64, req := t / 128 }] ∧
          (s'.th t).ctx = (s.th t).ctx ∧ s'.mem = s.mem)
    | _ => none
  | _, _ => none

end Sys2Proof.Rules
end

