-- ==== Sys2Proof/Rules/Coherence.lean ====
section
/-! DEFINITION. What chapter 09 gives the agents and the homes: a request, a forward, a response and their answers, as the tables
of R221 and R224 say. -/

namespace Sys2Proof.Rules

open Sys2Proof.Machine

/-- Memory, the threads' contexts and every register stay: a message moves states only. -/
def MovesStates (s s' : State) : Prop := s'.mem = s.mem ∧ (∀ u, (s'.th u).ctx = (s.th u).ctx) ∧ s'.tlbs = s.tlbs ∧ s'.hm = s.hm

/-- R221: the state from which an agent that has no copy, or a weaker one, asks. -/
def asks (k : MsgKind) (st : LSt) : Option LSt :=
  match k, st with
  | .getS, .I => some .ISd
  | .rdOnce, .I => some .ISd
  | .getM, .I => some .IMad
  | .getMZ, .I => some .IMad
  | .getM, .S => some .SMad
  | .getM, .O => some .OMa
  | _, _ => none

/-- R217, R221, R226: a request that is not on its way is sent where the agent's state asks for it; one that is on its way reaches
its home, and joins the busy queue of a line that is not idle. -/
def request (k : MsgKind) (a : Fin 13) (line : Nat) (s : State) : Option (State → Prop) :=
  match s.arrival k a line false with
  | some (_, s1) =>
    let h := s1.home line
    given (h.busy != .idle || h.queue != []) (fun s' =>
      s'.home line = { h with queue := h.queue ++ [{ kind := k, agent := a }] } ∧ s'.coh.msgs = s1.coh.msgs ∧ MovesStates s s')
  | none =>
    let m : Msg := { kind := k, agent := a, line := line, req := a }
    if k = .clean ∨ k = .flush then
      given (!s.agentOut a && decide (s.outstanding a (sliceOf line) < 4) && !(s.aline a line).st.leaving &&
          (k == .clean || (s.aline a line).st == .I)) (fun s' => s'.coh.msgs = s.coh.msgs ++ [m] ∧ s'.coh.agents = s.coh.agents ∧ MovesStates s s')
    else
      match asks k (s.aline a line).st with
      | some st => given (!s.agentOut a && agentAsks a k && decide (s.outstanding a (sliceOf line) < 4) && roomFor s a line)
          (fun s' => (s'.aline a line).st = st ∧ s'.coh.msgs = s.coh.msgs ++ [m] ∧ MovesStates s s')
      | none => none

/-- R224: what an idle home does with a request that it takes: the record and the messages it sends. `none` where a new entry
needs a recall (R216). -/
def homeTakes (k : MsgKind) (a : Nat) (line : Nat) (s : State) : Option (State → Prop) :=
  match s.arrival k a line false with
  | none => none
  | some (_, s1) =>
    let h := s1.home line
    let q : HReq := { kind := k, agent := a }
    let fwd (f : MsgKind) (n : Nat) : Msg := { kind := f, agent := h.owner, line := line, req := a, n := n }
    let leaves (st : HSt) (owner : Nat) (sh : BitVec 13) (busy : HBusy) (sent : List Msg) : Option (State → Prop) :=
      some (fun s' =>
        (s'.home line).st = st ∧ (s'.home line).owner = owner ∧ (s'.home line).sh = sh ∧ (s'.home line).busy = busy ∧
        s'.coh.msgs = s1.coh.msgs ++ sent ∧ MovesStates s s')
    if h.busy ≠ .idle ∨ h.queue ≠ [] then none
    else match k, h.st with
      | .getS, .X => leaves .O h.owner (shAdd 0 a) (.bw q) [fwd .fwdGetS 0]
      | .getS, .O => leaves .O h.owner (shAdd h.sh a) (.bw q) [fwd .fwdGetS 0]
      | .getS, .S => leaves .S h.owner h.sh (.bm q .S) []
      | .getS, .I => if s1.dirNeed line = .room then leaves .I h.owner h.sh (.bm q .I) [] else none
      | .getM, .I => if s1.dirNeed line = .room then leaves .I h.owner h.sh (.bm q .I) [] else none
      | .getMZ, .I =>
        if s1.dirNeed line = .room then leaves .X a 0 (.bw q) [{ kind := .grant, agent := a, line := line, req := a }] else none
      | .rdOnce, .X => leaves .X h.owner h.sh (.bw q) [fwd .fwdRdOnce 0]
      | .rdOnce, .O => leaves .O h.owner h.sh (.bw q) [fwd .fwdRdOnce 0]
      | .rdOnce, .S => leaves .S h.owner h.sh (.bm q .S) []
      | .rdOnce, .I => leaves .I h.owner h.sh (.bm q .I) []
      | .getM, .X => leaves .X a 0 (.bw q) [fwd .fwdGetM 0]
      | .getMZ, .X => leaves .X a 0 (.bw q) [fwd .fwdGetMZ 0]
      | .clean, .I => if s.agentDead a then none else leaves .I h.owner h.sh .idle [{ kind := .done, agent := a, line := line, req := a }]
      | .clean, .S => if s.agentDead a then none else leaves .S h.owner h.sh .idle [{ kind := .done, agent := a, line := line, req := a }]
      | .clean, .X => leaves .S h.owner (shAdd 0 h.owner) (.br (some q) 0) [{ kind := .downgrade, agent := h.owner, line := line }]
      | .flush, .X => leaves .I h.owner h.sh (.br (some q) 0) [{ kind := .recall, agent := h.owner, line := line }]
      | _, _ => none

/-- The requests of agents. -/
def requestRule : Rule
  | .gets a line, s => (request .getS a line s).or (homeTakes .getS a line s)
  | .getm a line, s => (request .getM a line s).or (homeTakes .getM a line s)
  | .getmz a line, s => (request .getMZ a line s).or (homeTakes .getMZ a line s)
  | .rdonce a line, s => (request .rdOnce a line s).or (homeTakes .rdOnce a line s)
  | .clean a line, s => (request .clean a line s).or (homeTakes .clean a line s)
  | .flush a line, s => (request .flush a line s).or (homeTakes .flush a line s)
  | _, _ => none

/-- R221: a line that an agent holds in `st` is put back: it waits for the answer and its L1s leave the line. -/
def put (k : MsgKind) (st wait : LSt) (a : Fin 13) (line : Nat) (s : State) : Option (State → Prop) :=
  match s.arrival k a line false with
  | none => given ((s.aline a line).st == st && !s.agentOut a) (fun s' =>
      (s'.aline a line).st = wait ∧ s'.coh.msgs = s.coh.msgs ++ [{ kind := k, agent := a, line := line, req := a }] ∧ MovesStates s s')
  | some (_, s1) =>
    let h := s1.home line
    let owner := (h.st == .X || h.st == .O) && h.owner == a
    if k = .putS then
      given (h.st == .S && h.sh.getLsbD a) (fun s' =>
        (s'.home line).sh = shDel h.sh a ∧ (s'.home line).st = (if shDel h.sh a = 0 then .I else .S) ∧
        s'.coh.msgs = s1.coh.msgs ++ [{ kind := .putAck, agent := a, line := line, req := a }])
    else
      given (owner && h.st == .X) (fun s' =>
        (s'.home line).st = .I ∧ s'.coh.msgs = s1.coh.msgs ++ [{ kind := .putAck, agent := a, line := line, req := a }] ∧
        (k ≠ .putE → s.quayLine line = false → flashLine line = false → s'.slcOf line = .dirty))

/-- R221: an owner's answers. -/
def readForward (share : Bool) (st : LSt) : Option LSt :=
  match st with
  | .E => some (if share then .O else .E)
  | .M => some (if share then .O else .M)
  | .O => some .O
  | .OMa => some .OMa
  | .MIa => some .MIa
  | .OIa => some .OIa
  | .EIa => some .EIa
  | _ => none
def writeForward (st : LSt) : Option LSt :=
  match st with
  | .E => some .I
  | .M => some .I
  | .O => some .I
  | .OMa => some .IMad
  | .MIa => some .IIa
  | .OIa => some .IIa
  | .EIa => some .IIa
  | _ => none
def recallTo (down : Bool) (st : LSt) : Option LSt :=
  match st with
  | .E => some (if down then .S else .I)
  | .M => some (if down then .S else .I)
  | .O => some (if down then .S else .I)
  | .OMa => some (if down then .SMad else .IMad)
  | .MIa => some .IIa
  | .OIa => some .IIa
  | .EIa => some .IIa
  | _ => none
def invalidate (st : LSt) : Option LSt :=
  match st with
  | .I => some .I
  | .S => some .I
  | .SMad => some .IMad
  | .SIa => some .IIa
  | .IIa => some .IIa
  | _ => none

/-- R221: a forward that has arrived: the agent's next state and the message it sends. -/
def forward (k : MsgKind) (next : LSt → Option LSt) (ans : State → Msg → Msg) (a : Fin 13) (line : Nat) (s : State) : Option (State → Prop) :=
  match s.arrival k a line false with
  | none => none
  | some (m, s1) =>
    match next (s1.aline a line).st with
    | none => none
    | some st => given ((k == .fwdRdOnce || !s.linkHolds a line) && !s.owesAccess a line) (fun s' =>
        (s'.aline a line).st = st ∧ s'.coh.msgs = s1.coh.msgs ++ [ans s m] ∧ MovesStates s s')

/-- An owner's Data for a reader (R218, R221), with the bytes of a flash line as the owner has them (R211). -/
def readData (s : State) (m : Msg) : Msg :=
  { kind := .data, agent := m.req, line := m.line, req := m.req, grant := .S, old := s.staleOf m.agent m.line }

/-- The forwards and the Puts. -/
def forwardRule : Rule
  | .fwdGets a line, s => forward .fwdGetS (readForward true) readData a line s
  | .fwdRdonce a line, s => forward .fwdRdOnce (readForward false) readData a line s
  | .fwdGetm a line, s => forward .fwdGetM writeForward
      (fun _ m => { kind := .data, agent := m.req, line := line, req := m.req, n := m.n, grant := .M }) a line s
  | .fwdGetmz a line, s => forward .fwdGetMZ writeForward
      (fun _ m => { kind := .grant, agent := m.req, line := line, req := m.req, n := m.n, grant := .M }) a line s
  | .inv a line, s => forward .inv invalidate
      (fun _ m => { kind := .invAck, agent := m.req, line := line, req := m.req, toHome := m.toHome }) a line s
  | .recall a line, s => forward .recall (recallTo false) (fun _ _ => { kind := .recallData, agent := a, line := line, req := a }) a line s
  | .downgrade a line, s => forward .downgrade (recallTo true) (fun _ _ => { kind := .recallData, agent := a, line := line, req := a }) a line s
  | .puts a line, s => put .putS .S .SIa a line s
  | .pute a line, s => put .putE .E .EIa a line s
  | .putm a line, s => put .putM .M .MIa a line s
  | .puto a line, s => put .putO .O .OIa a line s
  | _, _ => none

/-- R221: Data, Grant or an acknowledgement brings a requester to M once all its acknowledgements are counted; then it unblocks
its home. -/
def settles (a : Fin 13) (line : Nat) (s1 : State) (n acks : Nat) (wait : LSt) (s' : State) : Prop :=
  if n = acks then
    (s'.aline a line).st = .M ∧ s'.coh.msgs = s1.coh.msgs ++ [{ kind := .unblock, agent := a, line := line, req := a }]
  else s'.aline a line = { s1.aline a line with st := wait, n := some n, acks := acks } ∧ s'.coh.msgs = s1.coh.msgs

/-- R221, R224: the responses, and what ends a home's transaction. -/
def responsesRule : Rule
  | .data a line, s =>
    match s.arrival .data a line false with
    | none => none
    | some (m, s1) =>
      let x := s1.aline a line
      match x.st with
      | .ISd => some (fun s' =>
          (s'.aline a line).st = (if x.once then .I else if m.grant = .E then .E else .S) ∧
          s'.coh.msgs = s1.coh.msgs ++ [{ kind := .unblock, agent := a, line := line, req := a }] ∧ MovesStates s s')
      | .IMad => some (settles a line s1 m.n x.acks .IMa)
      | .SMad => some (settles a line s1 m.n x.acks .SMa)
      | _ => none
  | .grant a line, s =>
    match s.arrival .grant a line false with
    | none => none
    | some (m, s1) =>
      let x := s1.aline a line
      match x.st with
      | .IMad => some (settles a line s1 m.n x.acks .IMa)
      | .SMad => some (settles a line s1 m.n x.acks .SMa)
      | .OMa => some (settles a line s1 m.n x.acks .OMa)
      | _ => none
  | .invAck a line false, s =>
    match s.arrival .invAck a line false with
    | none => none
    | some (m, s1) =>
      let x := s1.aline a line
      match x.st, x.n with
      | .IMad, _ => given (!m.toHome) (fun s' => s'.aline a line = { x with acks := x.acks + 1 } ∧ s'.coh.msgs = s1.coh.msgs)
      | .SMad, _ => given (!m.toHome) (fun s' => s'.aline a line = { x with acks := x.acks + 1 } ∧ s'.coh.msgs = s1.coh.msgs)
      | .IMa, some n => given (!m.toHome) (settles a line s1 n (x.acks + 1) .IMa)
      | .SMa, some n => given (!m.toHome) (settles a line s1 n (x.acks + 1) .SMa)
      | .OMa, some n => given (!m.toHome) (settles a line s1 n (x.acks + 1) .OMa)
      | _, _ => none
  | .putAck a line, s =>
    match s.arrival .putAck a line false with
    | none => none
    | some (_, s1) =>
      let st := (s1.aline a line).st
      given (st == .MIa || st == .OIa || st == .EIa || st == .SIa || st == .IIa) (fun s' =>
        s'.aline a line = {} ∧ s'.coh.msgs = s1.coh.msgs ∧ MovesStates s s')
  | .putStale a line, s =>
    match s.arrival .putStale a line false with
    | none => none
    | some (_, s1) => given ((s1.aline a line).st == .IIa) (fun s' =>
        s'.aline a line = {} ∧ s'.coh.msgs = s1.coh.msgs ∧ MovesStates s s')
  | .unblock a line, s =>
    match s.arrival .unblock a line false with
    | none => none
    | some (_, s1) =>
      match (s1.home line).busy with
      | .bw q => given (q.agent == a) (fun s' => s'.home line = { s1.home line with busy := .idle } ∧ s'.coh.msgs = s1.coh.msgs ∧ MovesStates s s')
      | _ => none
  | .recallData a line, s =>
    match s.arrival .recallData a line false with
    | none => none
    | some (_, s1) =>
      match (s1.home line).busy with
      | .br q f =>
        given (decide (1 < (s1.home line).owed)) (fun s' =>
          (s'.home line).owed = (s1.home line).owed - 1 ∧ (s'.home line).busy = .br q f ∧
          (s.quayLine line = false → flashLine line = false → s'.slcOf line = .dirty) ∧ s'.coh.msgs = s1.coh.msgs)
      | _ => none
  | .done a line, s =>
    match s.arrival .done a line false with
    | none => none
    | some (_, s1) =>
      match (s1.core (4 * a.val)).sb.find? (fun e => e.sent && e.pa / 64 == line) with
      | some e => given (decide (a.val < 8)) (fun s' =>
          (s'.core (4 * a.val)).sb = sbTrim [] ((s.core (4 * a.val)).sb.erase e) ∧ s'.mem = s.mem)
      | none => none
  | .homeMemoryReadDone line, s =>
    match (s.home line).busy with
    | .bm q st =>
      let g : LSt := match q.kind with
        | .getS => if st = .I then .E else .S
        | .rdOnce => .S
        | _ => .M
      some (fun s' => (s'.home line).busy = .bw q ∧ (s.quayLine line = false → s'.slcOf line ≠ .absent) ∧
        s'.coh.msgs = s.coh.msgs ++ [{ kind := .data, agent := q.agent, line := line, req := q.agent, grant := g, old := s'.staleOf 15 line }])
    | _ => none
  | .busyQueueTake line, s =>
    match (s.home line).busy, (s.home line).queue with
    | .idle, q :: r =>
      given (q.kind == .getS && (s.home line).st == .S) (fun s' =>
        (s'.home line).queue = r ∧ (s'.home line).busy = .bm q .S ∧ s'.coh.msgs = s.coh.msgs ∧ MovesStates s s')
    | _, _ => none
  | _, _ => none

/-- R232: an agent that is declared dead holds no line. -/
def dies (a : Fin 13) (s' : State) : Prop := s'.agentDead a = true ∧ ∀ l, l < 2 ^ 34 → (s'.aline a l).st = .I

/-- R232, R335, R327, R338: failures of agents, and the upkeep of memory. -/
def upkeepRule : Rule
  | .coherenceTimeout a line, s =>
    given (!s.frozen && !s.agentDead a && s.coh.msgs.any (fun m => m.agent == a.val && m.line == line && m.kind.forward && m.kind != .putAck &&
      m.kind != .putStale && m.kind != .done)) (dies a)
  | .agentFatalError a, s => if s.frozen then some (fun s' => s' = s) else given (!s.agentDead a) (dies a)
  | .scrubRead kind unit, s =>
    let x := s.scrub kind unit
    given (kind != 2 && (kind == 1 || (decide (unit.val < 8) && s.domain (2 + unit.val) != .off)) && !s.frozen && s.pwr.sleep == .awake &&
        decide (x.pos + 1 < scrubLines kind) && s.lapLimit kind == 0 && !s.scrubFused kind unit && s.dram.flips.isEmpty)
      (fun s' => (s'.scrub kind unit).pos = x.pos + 1 ∧ (s'.scrub kind unit).start = some (x.start.getD s.time) ∧
        { s' with dram := s.dram } = s)
  | .dramTemperatureRead c rate _, s =>
    given (!s.channelFused c) (fun s' => Tbl.get (fun _ => (0 : Nat)) s'.dram.refresh c = rate ∧ s'.mem = s.mem ∧ s'.thr = s.thr ∧ s'.coh = s.coh)
  | .wckTracking _, s => some (fun s' => s' = s)
  | _, _ => none

end Sys2Proof.Rules
end

