-- ==== Sys2Proof/Rules/Exceptions.lean ====
section
/-! DEFINITION. What chapters 05 and 06 give the boundary of a bundle that raised a cause, called, or returned (R136, R137, R153,
R156). -/

namespace Sys2Proof.Rules

open Sys2Proof.Machine

/-- The boundary of bundle `b` of thread `t`, with nothing else asked of the thread than what the bundle asks. -/
def quietBoundary (s : State) (t : Gtn) (b : Bundle) : Bool :=
  let x := s.th t
  s.coreRuns (t / 32) && x.state == .run && !x.resetting && s.mayEnd t b && !x.resuming && !x.holdReq && !s.frzReq && !s.frozen &&
  s.cand.isEmpty && s.dbg.step.isNone && !b.sampled

/-- The cause that a boundary takes: the one that the bundle raised, or its call, with the context from which it is taken and ST as the
boundary sees it (R162). -/
def causeAt (x : Thread) (b : Bundle) : Option (Cause × Ctx × Word) :=
  match x.pend, b.call with
  | some c, _ => some (c, x.ctx, x.bndSt)
  | none, some c =>
    if bit b.old.st 6 = false ∧ b.rfx = false ∧ x.stall = .none then some (c, { x.ctx with pc := b.next }, putBit x.ctx.st 6 false) else none
  | none, none => none

/-- R153: the level that a cause enters and whether it escalates; `none` where the thread locks. -/
def entryLevel (st : Word) (c : Cause) : Option (Nat × Bool) :=
  let pl := bits st 1 0
  let gov := if pl = 2 then 2 else 1
  let e := if pl = 2 then 2 else c.target
  let masked := match c.level with
    | some l => e == gov && decide (l ≤ bits st 5 2)
    | none => false
  if bit st 6 then none
  else if masked then (if e = 2 then none else some (2, true))
  else some (e, false)

/-- R156: ST after a synchronous entry. -/
def entryStatus (st : Word) (level : Nat) (esc : Bool) : Word :=
  if esc then putBit (putBit (putBits (putBit (putBits st 0 2 2) 7 true) 2 4 15) 6 true) 11 false
  else putBit (putBit (putBits st 0 2 level) 6 true) 11 false

/-- R153, R156: the thread enters the level of the rule, or locks; memory, the other threads, and every system register but the four of
the level and the one of a stage-2 fault stay. -/
def entryRule : Rule
  | .bundleBoundary t, s =>
    let x := s.th t
    match x.bun with
    | none => none
    | some b =>
      match causeAt x b with
      | none => none
      | some (c, old, st) =>
        given (quietBoundary s t b && (c.target == 1 || c.target == 2)) (fun s' =>
          let x' := s'.th t
          s'.mem = s.mem ∧ OthersKept t s s' ∧ x'.link = none ∧ x'.bun = none ∧
          match entryLevel st c with
          | none => x'.state = .locked ∧ x'.ctx = old
          | some (l, esc) =>
            x'.state = .run ∧
            Entered l old x'.ctx c.xra (BitVec.ofNat 36 (c.cls + bits st 1 0 * 2 ^ 6 + b2n esc * 2 ^ 8 + c.detail * 2 ^ 24)) c.xfa
              (entryStatus st l esc) (x.now (if l = 2 then 0x24 else 0x14) + BitVec.ofNat 36 (c.cls * 64)) ∧
            x'.ctx.sysr 0x4C = c.tfi.getD (old.sysr 0x4C) ∧
            ∀ n, (n < (if l = 2 then 0x20 else 0x10) ∨ (if l = 2 then 0x23 else 0x13) < n) → n ≠ 0x4C → x'.ctx.sysr n = old.sysr n)
  | _, _ => none

/-- R137: the boundary of an RFX bundle, where the next bundle is fetched untranslated from DRAM: ST and the program counter come from
the registers of the level, in one step. -/
def returnRule : Rule
  | .bundleBoundary t, s =>
    let x := s.th t
    match x.bun with
    | none => none
    | some b =>
      let l := if bits b.old.st 1 0 = 2 then 0x20 else 0x10
      let pc := x.ctx.sysr l
      given (quietBoundary s t b && b.rfx && x.pend.isNone && b.call.isNone && b.waitMask.isNone && x.stall == .none &&
          !bit b.old.st 11 && !bit (x.now 0x41) 0 && !bit (x.ctx.sysr 0x49) 8 && s.region pc.toNat == .dram &&
          (s.coh.l1i.lookup (lineKey (t / 32) (pc.toNat / 64))).isNone) (fun s' =>
        (s'.th t).ctx = { x.ctx with st := putBit (x.ctx.sysr (l + 1)) 8 (s.strictOf t), pc := pc } ∧ (s'.th t).bun = none ∧ (s'.th t).link = none ∧
        (s'.th t).state = .run ∧ s'.mem = s.mem ∧ OthersKept t s s')
  | _, _ => none

end Sys2Proof.Rules
end

