-- ==== Sys2Proof/Rules/Router.lean ====
section
/-! DEFINITION. What chapters 01, 11 and 12 give an access to a register, the event router, and the pages of the mailboxes. -/

namespace Sys2Proof.Rules

open Sys2Proof.Machine

/-- A flag of a table of flags that are false unless set. -/
def flag (t : Tbl Bool) (k : Nat) : Bool := Tbl.get (fun _ => false) t k

/-- A count of a table of counts that are zero unless counted. -/
def num (t : Tbl Nat) (k : Nat) : Nat := Tbl.get (fun _ => (0 : Nat)) t k

/-- A count that stops at `top`. -/
def counted (top v : Nat) : Nat := if v < top then v + 1 else v

/-- Memory and the threads stay. -/
def NoThread (s s' : State) : Prop := s'.mem = s.mem ∧ s'.thr = s.thr

/-- R128: no link is in its window, and no STC's store waits. -/
def noHold (s : State) : Bool := s.thr.all (fun e => !e.2.link.any (·.window)) && s.cores.all (fun k => k.2.sb.all (fun x => !x.stc))

/-- R337: do the checkers that are tested before the island starts pass. -/
def earlyGood (s : State) : Bool := earlyCheckers.all (fun c => num s.checkers (c.1 * 256 + c.2) == 0)

/-! ## The event router (R253 to R273) -/

/-- R257: STAT after a signal: SEQ counts, MULT if PEND was set, PEND. -/
def pended (v : W32) : W32 :=
  let u := putBits v 20 12 (bits v 31 20 + 1)
  putBit (if bit u 18 then putBit u 19 true else u) 18 true

/-- R255, R257: a signal of event `n` reached entry `e`. -/
def Signalled (e n : Nat) (s s' : State) : Prop :=
  s'.rteCfg e = s.rteCfg e ∧ s'.rteStat e = (if s.routeOn e then pended (s.rteStat e) else s.rteStat e) ∧
  (bit (s.rteCfg e) 20 = true → flag s'.intake n = true)

/-- R259, R271: CFG as a write leaves it: bits [31:21] and [9:0]. -/
def cfgWritten (c w : W32) : W32 := putBits (putBits c 21 11 (bits w 31 21)) 0 10 (bits w 9 0)

/-- R256: is a CFG that of a route that is on. -/
def cfgOn (c : W32) : Bool := bit c 31 && !(bit c 29 && bits c 27 24 == 0)

/-- R260: a refused access to a route leaves its CFG and sets the flag of ERT_REF_EVR. -/
def RouteRefused (e k : Nat) (s s' : State) : Prop :=
  s'.rteCfg e = s.rteCfg e ∧ bit (s'.reg 0x104100100C) k = true ∧ NoThread s s'

/-- The event router's commands. -/
def routerRule : Rule
  | .eventSignal n b, s =>
    if 1221 ≤ n.val ∧ n.val < 1226 then
      some (fun s' => (∀ c, c < 64 → Signalled (1536 + 16 * c + (n.val - 1216)) n s s') ∧ NoThread s s')
    else if 1216 ≤ n.val ∧ n.val < 1221 then some (fun s' => Signalled (1536 + 16 * b.val + (n.val - 1216)) n s s' ∧ NoThread s s')
    else if s.srcOut n then some (fun s' => s' = s)
    else some (fun s' => Signalled n n s s' ∧ NoThread s s')
  | .routeDelivery e, s =>
    let c := s.rteCfg e
    let t := bits c 9 0
    given (s.routeOn e && !bit c 30 && bit (s.rteStat e) 18 && !s.frozen && !s.frzReq && s.pwr.sleep == .awake &&
        s.routeFlip e == 0)
      (if s.rteValid c = false then (fun s' =>
         bit (s'.rteCfg e) 31 = false ∧ bit (s'.reg 0x1041001004) 18 = true ∧ NoThread s s')
       else if s.domain (2 + t / 128) ≠ .on then (fun s' => flag s'.domReq (2 + t / 128) = true ∧ { s' with domReq := s.domReq } = s)
       else if bit c 29 then (fun s' =>
         flag s'.cand e = true ∧ s'.rteStat e = s.rteStat e ∧ (∀ u, (s'.th u).ctx = (s.th u).ctx) ∧ s'.mem = s.mem)
       else (fun s' =>
         bit (s'.rteStat e) 18 = false ∧ (s'.th t).ctx.wPend = putBit (s.th t).ctx.wPend (bits c 23 21) true ∧
         (∀ u, u ≠ t → s'.th u = s.th u) ∧ s'.mem = s.mem))
  | .ertRteCfgWrite rq n w, s =>
    let e := entryOf rq n
    let c := s.rteCfg e
    let c' := cfgWritten c w
    if srcNever (eventOf e) then some (fun s' => s' = s)
    else if bit c 19 then some (RouteRefused e 16 s)
    else if !s.rteMayCfg rq e then some (RouteRefused e 18 s)
    else if (bit c' 28 && !s.guardOk rq) || (cfgOn c' && !s.rteValid c') then some (RouteRefused e 17 s)
    else some (fun s' =>
      s'.rteCfg e = c' ∧ (cfgOn c' = false → bit (s'.rteStat e) 18 = false) ∧ flag s'.routeBad e = false ∧ s'.routeFlip e = 0 ∧
      (∀ k, k < 2560 → k ≠ e → s'.rteCfg k = s.rteCfg k) ∧ s'.mem = s.mem)
  | .ertRteStatWrite rq n w, s =>
    let e := entryOf rq n
    if srcNever (eventOf e) then some (fun s' => s' = s)
    else if bit (s.rteCfg e) 19 then some (RouteRefused e 16 s)
    else if !s.rteMayStat rq e then some (RouteRefused e 18 s)
    else if bits w 31 20 = bits (s.rteStat e) 31 20 then some (fun s' =>
      s'.rteStat e = putBits (s.rteStat e) 18 2 0 ∧ flag s'.cand e = false ∧ s'.rteCfg e = s.rteCfg e ∧ NoThread s s')
    else some (fun s' => s'.rteStat e = s.rteStat e ∧ s'.rteCfg e = s.rteCfg e ∧ NoThread s s')
  | .ertDbRing rq d w, s =>
    if rq.cls == .harbour || rq.priv.val == 2 || rq.berth.val == rteOwner (s.rteCfg (1280 + d)) || s.bellSecond rq d then
      some (fun s' => s'.reg (bellAddr d) = w ∧ Signalled (1280 + d) (1280 + d) s s' ∧ NoThread s s')
    else some (fun s' => s'.reg (bellAddr d) = s.reg (bellAddr d) ∧ RouteRefused (1280 + d) 18 s s')
  | _, _ => none

/-! ## Accesses to registers (R10, R15, R22, R29, R33, R34) -/

/-- The page and row of a register that a requester reaches at an address: its block's domain is on, it passes the guard, and the
register is in effect. -/
def reaches (s : State) (rq : Req) (pa : Nat) : Option (PageRef × RegRow × Nat) :=
  match pageAt pa with
  | none => none
  | some p =>
    let off := (pa - p.base) &&& p.mask
    match regRow p.kind off with
    | none => none
    | some r =>
      if pa % 4 = 0 && !s.pageFused p && s.domain (domainOf pa) == .on && s.pageServes rq p off r.guard && !s.regIdle p off &&
          p.kind != .mbx && p.kind != .ertRoute && p.kind != .ertCopy && p.kind != .ertBell then some (p, r, off)
      else none

/-- Has a register no write effect of its own. -/
def plain (s : State) (rq : Req) (p : PageRef) (off : Nat) (w : W32) : Bool :=
  (s.vbsWrite p.kind p.unit off w).isNone && (s.netWrite p.kind p.unit p.base off w).isNone && (s.sysWrite rq p.kind p.unit off w).isNone

/-- R15, R21, R22: a write that reaches no register: a misaligned one, or one to a reserved address or a fused unit's page, changes
nothing but the error records of its requester; one to a domain that is not on asks for it and waits. -/
def noRegister (s : State) (rq : Req) (pa : Nat) (w : W32) : Option (State → Prop) :=
  let fails (n : Nat) (s' : State) : Prop :=
    s'.reg pa = s.reg pa ∧ NoThread s s' ∧
    (rq.cls = .harbour → s'.log.getLast?.map (fun e => (e.source, e.kind, e.addr, bits e.w6 3 0)) = some (0x10, 0x01, pa, 8 + n)) ∧
    (rq.cls = .thread ∨ rq.cls = .security → s' = s)
  if pa % 4 ≠ 0 then some (fails 4)
  else match pageAt pa with
    | none => some (fails 0)
    | some p =>
      if s.pageFused p then some (fails 0) else given (s.domain (domainOf pa) != .on)
        (fun s' => flag s'.domReq (domainOf pa) = true ∧ s'.waits = s.waits ++ [(domainOf pa, .reg rq pa (some w))] ∧
          { s' with domReq := s.domReq, waits := s.waits } = s)

/-- A write to a register that is read and written, a write that the guard refuses, one to an event record, one to DMC_INJ, and
a read. -/
def accessRule : Rule
  | .registerWrite rq pa w, s =>
    (noRegister s rq pa w).or
      (match reaches s rq pa with
       | some (p, r, off) =>
         given (r.acc == .rw && plain s rq p off w) (fun s' => s' = s.setReg (p.base + off) (w &&& BitVec.ofNat 32 r.mask))
       | none =>
         match pageAt pa with
         | some p =>
           let off := (pa - p.base) &&& p.mask
           given (p.kind == .pcrLvl && s.domain (domainOf pa) == .on && !s.guardOk rq && off == 0x1C)
             (fun s' => bit (s'.reg (frameOf pa + 0xC)) 18 = true ∧
               s'.reg (p.base + off) = s.reg (p.base + off) ∧ NoThread s s')
         | none => none)
  | .eventRecordWrite rq pa w, s =>
    match reaches s rq pa with
    | some (p, r, off) =>
      let a := p.base + off
      given (r.acc == .wsq && plain s rq p off w) (fun s' => s' = s.setReg a
        (if bits w 31 20 = bits (s.reg a) 31 20 then putBits (s.reg a) 0 20 0 else s.reg a))
    | none => none
  | .rsqRead rq pa, s =>
    match reaches s rq pa with
    | some (p, r, off) =>
      given (p.kind != .bus && p.kind != .cnt && p.kind != .dbtCtx)
        (fun s' => s' = { s with rdata := if r.acc == .wo then 0 else s.regValue rq p off })
    | none => none
  | .dmcInjWrite rq c w, s =>
    let a := 0x1042002030 + c.val * 0x1000
    given (s.domain 11 == .on && s.guardOk rq && !s.channelFused c)
      (fun s' => s' = if 71 < bits w 6 0 ∨ 71 < bits w 13 7 then s else s.setReg a (w &&& 0xC0003FFF))
  | _, _ => none

/-! ## The pages of the mailboxes (R277 to R291) -/

/-- R290: a refused request buffer write or GO: REJ of MBX_EVR; the buffer and the state stay. -/
def Rejected (m : Nat) (s s' : State) : Prop :=
  bit (s'.reg (mbxBase m + 0x308)) 16 = true ∧ s'.hm.mbx = s.hm.mbx ∧ NoThread s s' ∧
  ∀ i, i < 64 → s'.reg (mbxBase m + 4 * i) = s.reg (mbxBase m + 4 * i)

/-- R17, R290: a page that does not serve the requester counts the refusal. -/
def PageRefused (s s' : State) : Prop :=
  s'.counter 0x40 7 = counted (2 ^ 32 - 1) (s.counter 0x40 7) ∧ s'.hm = s.hm ∧ s'.regs = s.regs ∧ NoThread s s'

/-- R284: a response of payload `ws` stands in a mailbox. -/
def Responded (m : Nat) (ws : List W32) (s s' : State) : Prop :=
  let q := s.request m
  (s'.mbx m).st = 3 ∧ ∀ i, i < 64 → s'.reg (mbxBase m + 0x100 + 4 * i) =
    (message (BitVec.ofNat 32 (ws.length * 2 ^ 24 + 2 ^ 16 + q.op)) q.tag (BitVec.ofNat 32 q.b) ws).getD i 0

/-- The mailbox commands: request buffer, GO, CACK, the taking of a request, and the posting of a completion. -/
def mailboxRule : Rule
  | .mbxReqWrite rq m i w, s =>
    if !s.mbxServes rq m then some (PageRefused s)
    else if (s.mbx m).st = 0 ∨ (s.mbx m).st = 3 then some (fun s' => s' = s.setReg (mbxBase m + 4 * i) w)
    else some (Rejected m s)
  | .go rq m, s =>
    if !s.mbxServes rq m then some (PageRefused s)
    else if (s.mbx m).st = 0 ∨ (s.mbx m).st = 3 then some (fun s' =>
      s'.mbx m = { s.mbx m with st := 1, go := some rq, goAt := s.time } ∧
      (∀ i, i < 64 → s'.reg (mbxBase m + 0x100 + 4 * i) = 0 ∧ s'.reg (mbxBase m + 4 * i) = s.reg (mbxBase m + 4 * i)) ∧
      NoThread s s')
    else some (Rejected m s)
  | .cack rq m, s =>
    if !s.mbxServes rq m then some (PageRefused s)
    else match (s.mbx m).cpl with
      | some _ => some (fun s' => s'.mbx m = { s.mbx m with cpl := none } ∧
          (∀ i, i < 64 → s'.reg (mbxBase m + 0x200 + 4 * i) = 0) ∧ NoThread s s')
      | none => some (fun s' => s' = s)
  | .requestTaken m, s =>
    let q := s.request m
    let x := s.mbx m
    if s.hm.ready && s.pwr.sleep == .awake && x.st == 1 && !(s.hm.mbx.any (fun e => e.2.st == 2)) then
      (if crc32c (wordsBytes [q.w0, q.tag, q.w2]) ≠ q.hcrc then some (Responded m [r0 0x12 0] s)
       else if bits q.w0 17 16 ≠ 0 ∨ bits q.w0 23 19 ≠ 0 then some (Responded m [r0 0x10 0] s)
       else if 59 < bits q.w0 31 24 then some (Responded m [r0 0x11 0] s)
       else if crcWords q.pay ≠ q.pcrc then some (Responded m [r0 0x12 0] s)
       else if q.tag = 0 then some (Responded m [r0 0x60 0] s)
       else if q.tag = x.lastTag ∧ q.hcrc = x.lastH ∧ q.pcrc = x.lastP ∧ q.pay = x.lastPay then some (Responded m x.lastRsp s)
       else if s.tagUsed m q.tag then some (Responded m [r0 0x60 0] s)
       else match opInfo q.op with
         | none => some (Responded m [r0 0x10 0] s)
         | some o =>
           if m.val = 68 ∧ q.op / 256 ≠ 8 then some (Responded m [r0 0x20 1] s)
           else if q.pay.length < o.lo ∨ o.hi < q.pay.length then some (Responded m [r0 0x11 0] s)
           else if bits q.w2 31 6 ≠ 0 then some (Responded m [r0 0x20 8] s)
           else if 0 < m.val ∧ m.val < 64 ∧ q.b ≠ m.val then some (Responded m [r0 0x20 2] s)
           else if !s.holdsAuth q o.auth then some (Responded m [r0 0x20 1] s)
           else if !o.held && (s.hm.held || !s.hm.committed) then some (Responded m [r0 0x40 1] s)
           else if !o.held && s.frozen && q.op / 256 != 8 then some (Responded m [r0 0x40 3] s)
           else if s.objHeld q o.b then some (Responded m [r0 0x30 1] s)
           else if q.async && decide (8 ≤ s.mbxPend m) then some (Responded m [r0 0x30 2] s)
           else some (fun s' => s'.mbx m = { x with st := 2 } ∧ NoThread s s'))
    else some (fun s' => s' = s)
  | .completionPost m, s =>
    match s.hm.acc.filter (fun a => a.mbx == m.val), s.hm.ended.find? (fun e => e.acc.mbx == m.val) with
    | [], some e =>
      given (!s.frozen && (s.mbx m).cpl.isNone)
        (fun s' => s'.hm.ended = s.hm.ended.erase e ∧ (s'.mbx m).cpl = some e.acc.tag ∧
          s'.reg (mbxBase m + 0x204) = e.acc.tag ∧ s'.reg (mbxBase m + 0x210) = e.status ∧
          bit (s'.reg (mbxBase m + 0x308)) 17 = true ∧ NoThread s s')
    | [a], none =>
      given (!s.frozen && (s.mbx m).cpl.isNone && (a.opcode == 0x0601 || a.opcode == 0x0602) && !a.quiet)
        (fun s' => s'.hm.acc = s.hm.acc.erase a ∧ (s'.mbx m).cpl = some a.tag ∧
          s'.reg (mbxBase m + 0x204) = a.tag ∧ s'.reg (mbxBase m + 0x210) = r0 0 0 ∧
          (a.opcode = 0x0602 → ∀ e ∈ s'.tlbs, e.berth = a.berth →
            (e.ipa + 1) * 2 ^ e.size ≤ bits (a.pay.getD 0 0) 27 0 * 4096 ∨
            (bits (a.pay.getD 0 0) 27 0 + (a.pay.getD 1 0).toNat) * 4096 ≤ e.ipa * 2 ^ e.size))
    | _, _ => none
  | _, _ => none

end Sys2Proof.Rules
end

