-- ==== Sys2Proof/Rules/Harbour.lean ====
section
/-! DEFINITION. What chapters 12 and 13 give the commands of the harbourmaster: for a request that it executes, the answer and the
effect (R297 to R309). -/

namespace Sys2Proof.Rules

open Sys2Proof.Machine

/-- R286, R294: the harbourmaster executes the request of mailbox `m`, of opcode `op`, and the berth that it names exists. -/
def inHand (s : State) (m op : Nat) : Bool :=
  s.hm.ready && (s.mbx m).st == 2 && (s.request m).op == op &&
  (match opInfo op with
   | some o => !o.b || op == 0x0301 || s.berthThere (s.request m).b
   | none => true)

/-- R283, R284: a request is answered, and is the mailbox's last valid one. -/
def Replied (m : Nat) (ws : List W32) (s s' : State) : Prop :=
  Responded m ws s s' ∧ (s'.mbx m).lastTag = (s.request m).tag ∧ (s'.mbx m).lastRsp = ws

/-- Nothing of `s` but the mailboxes, registers and what a signal and a notification reach has changed. -/
def SameBut (s s' : State) : Prop :=
  { s' with regs := s.regs, intake := s.intake, perf := s.perf, hm := s.hm, pcie := s.pcie } = s ∧
  { s'.hm with mbx := s.hm.mbx, mgmtOut := s.hm.mgmtOut } = s.hm ∧ (∀ e, e < 2560 → s'.rteCfg e = s.rteCfg e)

/-- The entry of a request that succeeds at once: its condition, its results, and the state as its effect leaves it. -/
def reply (s : State) (m op : Nat) (c : Sub → Bool) (ws : Sub → List W32) (eff : Sub → State) : Option (State → Prop) :=
  let q := s.request m
  given (inHand s m op && c q) (fun s' => Replied m (r0 0 0 :: ws q) s s' ∧ SameBut (eff q) s')

/-- As `reply`, where the effect is said by a property. -/
def replyP (s : State) (m op : Nat) (c : Sub → Bool) (ws : Sub → List W32) (eff : Sub → State → Prop) : Option (State → Prop) :=
  let q := s.request m
  given (inHand s m op && c q) (fun s' => Replied m (r0 0 0 :: ws q) s s' ∧ eff q s')

/-- R285: the record of an accepted request. -/
def acceptance (s : State) (m : Nat) (data : List Byte) : Accepted :=
  let q := s.request m
  { mbx := m, opcode := q.op, tag := q.tag, berth := q.b, pay := q.pay, objs := q.objs, data := data }

/-- The entry of a request that is answered ACCEPTED. -/
def accept (s : State) (m op : Nat) (c : Sub → Bool) (eff : Sub → State → Prop) (data : List Byte := []) : Option (State → Prop) :=
  let q := s.request m
  given (inHand s m op && c q) (fun s' =>
    Replied m [r0 1 0] s s' ∧ s'.hm.acc.getLast? = some (acceptance s m data) ∧ eff q s')

/-- The entry of a request that fails with a status and changes nothing. -/
def denied (s : State) (m op : Nat) (c : Sub → Bool) (status detail : Nat) : Option (State → Prop) :=
  given (inHand s m op && c (s.request m)) (fun s' => Replied m [r0 status detail] s s' ∧ SameBut s s')

/-- The contexts of the threads stay. -/
def Contexts (s s' : State) : Prop := ∀ u, (s'.th u).ctx = (s.th u).ctx

/-! ## System and power (R297, R298) -/

/-- R398: the ceiling that a platform ceiling and a dip reduction make. -/
def ceiling (c : Nat) (reduced : Bool) : Nat := min 7 (c + b2n reduced)

/-- The commands of the groups 0x01 and 0x02. -/
def systemRule : Rule
  | .sysInfo m, s => reply s m 0x0101 (fun _ => true) (fun _ =>
      [BitVec.ofNat 32 (s.order * 2 ^ 16 + 0x0100), BitVec.ofNat 32 (0x01000100 + s.hm.patch % 256),
       BitVec.ofNat 32 (b2n s.hm.held + b2n s.hm.committed * 2 + b2n s.hm.full * 4 + b2n s.hm.man.safety * 8 + b2n s.sec.cert * 16),
       BitVec.ofNat 32 (bits (s.reg 0x104A004000) 31 28)]) (fun _ => s)
  | .sysReset m, s =>
    (reply s m 0x0102 (fun q => (q.q 0 == 3 || q.q 0 == 4) && !s.hm.acc.any (fun a => a.opcode == 0x0902)) (fun _ => [])
      (fun q => { s with rstReq := some (q.q 0).toNat })).or
    (denied s m 0x0102 (fun q => q.q 0 != 3 && q.q 0 != 4) 0x20 8)
  | .sysEcho m, s => reply s m 0x0103 (fun _ => true) (fun q => q.pay) (fun _ => s)
  | .pwrLevel m, s =>
    (accept s m 0x0201 (fun q => (q.q 0 &&& 0xFFFFF8F8) == 0 && !s.clusterFused (bits (q.q 0) 2 0))
      (fun q s' => s'.pwr = { s.pwr with req := Tbl.set (fun _ => (6 : Nat)) s.pwr.req (bits (q.q 0) 2 0) (bits (q.q 0) 10 8) } ∧
        NoThread s s')).or
    (denied s m 0x0201 (fun q => (q.q 0 &&& 0xFFFFF8F8) == 0 && s.clusterFused (bits (q.q 0) 2 0)) 0x50 1)
  | .pwrCeil m, s =>
    (replyP s m 0x0202 (fun q => (q.q 0 &&& 0x7FFFFFF8) == 0)
      (fun q => [BitVec.ofNat 32 (ceiling (bits (q.q 0) 2 0) (s.pwr.reduced && !bit (q.q 0) 31) +
        b2n (s.pwr.reduced && !bit (q.q 0) 31) * 8)])
      (fun q s' => s'.pwr.ceil = bits (q.q 0) 2 0 ∧ s'.pwr.reduced = (s.pwr.reduced && !bit (q.q 0) 31) ∧
        s'.pwr.dips = (if bit (q.q 0) 31 then [] else s.pwr.dips) ∧ s'.pwr.req = s.pwr.req ∧ NoThread s s')).or
    (denied s m 0x0202 (fun q => (q.q 0 &&& 0x7FFFFFF8) != 0) 0x20 8)
  | .pwrBudget m, s =>
    let fits (b : Nat) : Bool := decide (100 ≤ b) && decide (b ≤ 950) && decide (b ≤ s.pwr.limit) &&
      decide (s.floorSum ≤ min ((b - s.pwr.allowance) * 400 / 850) (s.pwr.rating * 2 / 5))
    (reply s m 0x0203 (fun q => bits (q.q 0) 31 16 == 0 && fits (bits (q.q 0) 15 0)) (fun q => [BitVec.ofNat 32 (bits (q.q 0) 15 0)])
      (fun q => { s with pwr := { s.pwr with budget := bits (q.q 0) 15 0 } })).or
    (denied s m 0x0203 (fun q => !fits (bits (q.q 0) 15 0)) 0x20 8)
  | .pwrSleep m, s =>
    let mask (k : Nat) (w : W32) : W32 := w &&& (if k = 1 then 0x7FE else if k = 4 then 0x6BE else 0x6FE)
    let good (q : Sub) : Bool := decide (1 ≤ (q.q 0).toNat) && decide ((q.q 0).toNat ≤ 4) &&
      (q.q 0 == 1 || mask (q.q 0).toNat (q.q 1) != 0) && s.hm.acc.isEmpty && s.hm.ended.isEmpty
    let runs : Bool := s.threads.any (fun t => (s.th t).state == .run)
    let into (q : Sub) (s' : State) : Prop :=
      s'.pwr = { s.pwr with sleep := .entering (q.q 0).toNat, mask := mask (q.q 0).toNat (q.q 1), heldWake := none }
    (accept s m 0x0204 (fun q => good q && decide ((q.q 0).toNat ≤ 2) && !runs) (fun q s' => into q s' ∧ Contexts s s')).or
    ((replyP s m 0x0204 (fun q => good q && decide (3 ≤ (q.q 0).toNat)) (fun _ => []) (fun q s' => into q s' ∧ Contexts s s')).or
     (denied s m 0x0204 (fun q => good q && decide ((q.q 0).toNat ≤ 2) && runs) 0x20 9))
  | .pwrStatus m, s =>
    replyP s m 0x0205 (fun _ => true)
      (fun _ => [nibbles s.levelShown,
        BitVec.ofNat 32 (ceiling s.pwr.ceil s.pwr.reduced + b2n s.pwr.reduced * 8 +
          (s.pwr.dips.filter (fun t => decide (s.time < t + 1000000000))).length % 2 ^ 16 * 2 ^ 16),
        BitVec.ofNat 32 (s.pwr.budget + (Config.freeBits 16 s.free).toNat * 2 ^ 16)])
      (fun _ s' => s'.pwr = s.pwr ∧ NoThread s s')
  | _, _ => none

/-! ## Berths and threads (R299) -/

/-- The berth that BERTH_CREATE makes, its counters and its watchdog record cleared. -/
def newBerth (s : State) (q : Sub) : State :=
  let x : Berth := { st := .ready, strict := bit (q.q 0) 0, ceil := bits (q.q 0) 5 4,
                     xvbH := BitVec.ofNat 36 (bits (q.q 1) 23 0 * 0x1000),
                     xspH := BitVec.ofNat 36 (bits (q.q 3) 3 0 * 2 ^ 32 + (q.q 2).toNat) }
  { s.setBerth q.b x with errCnt := s.errCnt.filter (fun e => e.1 / 32 != 0x100 + q.b) }.setReg (wdPage q.b + 8) 0

/-- Does the table pool hold the tables of a new berth (R299, R303). -/
def poolServes (s : State) (q : Sub) : Bool :=
  (((newBerth s q).newTop q.b).bind (State.mapAll q.b (identityPages q.b))).isSome

/-- A thread command: payload bits outside `mask` are zero, the thread exists, and where `own` it belongs to the berth. -/
def threadNamed (s : State) (mask : W32) (own : Bool) (q : Sub) : Bool :=
  let t := bits (q.q 0) 9 0
  (q.q 0 &&& ~~~mask) == 0 && !s.gtnAbsent t && (!own || ((s.th t).state != .free && (s.th t).berth == q.b))

/-- A thread as assignment leaves it (R38, R149, R168). -/
def Assigned (s : State) (b : Nat) (x : Thread) : Prop :=
  let y := s.berth b
  x.state = .held ∧ x.berth = b ∧ x.ran = false ∧ x.bun = none ∧ x.link = none ∧ x.ctx.pc = 0 ∧
  x.ctx.st = putBit 0xBD 8 y.strict ∧ x.ctx.ceil = y.ceil ∧ x.ctx.cls = 0 ∧ (∀ r : Reg, x.ctx.rd r = 0) ∧
  x.ctx.sysr 0x24 = y.xvbH ∧ x.ctx.sysr 0x25 = y.xspH ∧ x.now 0x24 = y.xvbH

/-- The commands of the group 0x03. -/
def berthRule : Rule
  | .berthCreate m, s =>
    let words (q : Sub) : Bool := (q.q 0 &&& 0xFFFFFFCE) == 0 && bits (q.q 1) 31 24 == 0 && bits (q.q 3) 31 4 == 0
    let may (q : Sub) : Bool := words q && q.b != 0 && (s.berth q.b).st == .absent
    (replyP s m 0x0301 (fun q => may q && (bit (q.q 0) 0 || !s.strictOnly) && poolServes s q) (fun _ => []) (fun q s' =>
      let y := s'.berth q.b
      y.st = .ready ∧ y.strict = bit (q.q 0) 0 ∧ y.ceil = bits (q.q 0) 5 4 ∧
      y.xvbH = BitVec.ofNat 36 (bits (q.q 1) 23 0 * 0x1000) ∧
      y.xspH = BitVec.ofNat 36 (bits (q.q 3) 3 0 * 2 ^ 32 + (q.q 2).toNat) ∧ y.s2En = true ∧ y.wdEn = false ∧
      y.maps = identityPages q.b ∧ (∀ r, r < 32 → s'.counter (0x100 + q.b) r = 0) ∧ Contexts s s')).or
    ((denied s m 0x0301 (fun q => !words q) 0x20 8).or
    ((denied s m 0x0301 (fun q => words q && !may q) 0x20 9).or
     (denied s m 0x0301 (fun q => may q && !bit (q.q 0) 0 && s.strictOnly) 0x20 5)))
  | .berthDestroy m, s =>
    (accept s m 0x0302 (fun q => q.b != 0) (fun q s' =>
      (s'.berth q.b).st = .destroying ∧ (s'.berth q.b).wdEn = false ∧
      (∀ t ∈ s.berthThreads q.b, (s'.th t).holdSent = ((s.th t).state == .run || (s.th t).state == .wait)) ∧
      Contexts s s' ∧ s'.mem = s.mem)).or
    (denied s m 0x0302 (fun q => q.b == 0) 0x20 5)
  | .berthReset m, s =>
    (accept s m 0x0303 (fun q => bits (q.q 0) 31 1 == 0 && q.b != 0) (fun q s' =>
      (s'.berth q.b).st = .resetting ∧ (s'.berth q.b).auto = bit (q.q 0) 0 ∧
      (∀ t ∈ s.berthThreads q.b, (s'.th t).state = .held ∧ (s'.th t).resetting = true) ∧
      (∀ i ∈ s.berthInsts q.b, (s'.inst i).rst = true) ∧ s'.mem = s.mem)).or
    (denied s m 0x0303 (fun q => bits (q.q 0) 31 1 != 0) 0x20 8)
  | .berthStatus m, s =>
    reply s m 0x0304 (fun _ => true) (fun q =>
      let x := s.berth q.b
      let ts := s.berthThreads q.b
      [BitVec.ofNat 32 (b2n x.strict + x.ceil * 16),
       BitVec.ofNat 32 (ts.length + (ts.filter (fun t => (s.th t).state == .locked)).length * 2 ^ 16),
       BitVec.ofNat 32 (s.berthInsts q.b).length,
       BitVec.ofNat 32 ((x.maps.filter (fun o => !o.dev)).foldl (fun n o => n + o.n) 0)]) (fun _ => s)
  | .berthWdog m, s =>
    let good (q : Sub) : Bool := q.q 0 != 0 && decide ((q.q 0).toNat ≤ 10000000) && decide ((q.q 1).toNat < (q.q 0).toNat) &&
      bits (q.q 2) 31 2 == 0
    (replyP s m 0x0305 good (fun _ => []) (fun q s' =>
      let y := s'.berth q.b
      y.wdEn = bit (q.q 2) 0 ∧ y.wdAct = bit (q.q 2) 1 ∧ y.wdUb = (q.q 0).toNat ∧ y.wdLb = (q.q 1).toNat ∧ y.wdArmed = false ∧
      (bit (q.q 2) 0 = true → y.elapsed = 0 ∧ y.warned = false) ∧ NoThread s s')).or
    (denied s m 0x0305 (fun q => !good q) 0x20 8)
  | .clusterRestart m, s =>
    let n (q : Sub) : Nat := bits (q.q 0) 2 0
    (accept s m 0x0306 (fun q => bits (q.q 0) 31 3 == 0 && !s.clusterFused (n q) && s.agentDead (n q)) (fun _ s' => NoThread s s')).or
    ((denied s m 0x0306 (fun q => bits (q.q 0) 31 3 == 0 && s.clusterFused (n q)) 0x50 1).or
     (denied s m 0x0306 (fun q => bits (q.q 0) 31 3 == 0 && !s.clusterFused (n q) && !s.agentDead (n q)) 0x20 9))
  | .threadAssign m, s =>
    let t (q : Sub) : Nat := bits (q.q 0) 9 0
    (replyP s m 0x0310 (fun q => threadNamed s 0x3FF false q && (s.th (t q)).state == .free) (fun _ => []) (fun q s' =>
      Assigned s q.b (s'.th (t q)) ∧ (∀ u, u ≠ t q → s'.th u = s.th u) ∧ s'.mem = s.mem)).or
    (denied s m 0x0310 (fun q => threadNamed s 0x3FF false q && (s.th (t q)).state != .free) 0x20 9)
  | .threadStart m, s =>
    let t (q : Sub) : Nat := bits (q.q 0) 9 0
    let good (q : Sub) : Bool := threadNamed s 0x303FF true q && bits (q.q 0) 17 16 != 3 && bits (q.q 1) 1 0 == 0 &&
      bits (q.q 2) 31 4 == 0 && (s.th (t q)).state == .held && (bits (q.q 0) 17 16 != 2 || q.b == 0)
    (replyP s m 0x0311 (fun q => good q && s.patLoaded (coreOf (t q)) != 0) (fun _ => []) (fun q s' =>
      let x := s.th (t q)
      (if x.ran then s'.th (t q) = { x with state := x.memo }
       else (s'.th (t q)).state = .run ∧ (s'.th (t q)).ctx = { x.ctx with
         pc := BitVec.ofNat 36 (bits (q.q 2) 3 0 * 2 ^ 32 + (q.q 1).toNat), st := putBits x.ctx.st 0 2 (bits (q.q 0) 17 16) }) ∧
      (∀ u, u ≠ t q → s'.th u = s.th u) ∧ s'.mem = s.mem)).or
    (denied s m 0x0311 (fun q => good q && s.patLoaded (coreOf (t q)) == 0) 0x40 2)
  | .threadHold m, s =>
    let t (q : Sub) : Nat := bits (q.q 0) 9 0
    let st (q : Sub) : ThState := (s.th (t q)).state
    (reply s m 0x0312 (fun q => threadNamed s 0x3FF true q && st q != .locked) (fun _ => []) (fun q =>
      if st q = .held then s else s.modTh (t q) (fun x => { x with holdSent := true }))).or
    (denied s m 0x0312 (fun q => threadNamed s 0x3FF true q && st q == .locked) 0x20 9)
  | .threadReset m, s =>
    let t (q : Sub) : Nat := bits (q.q 0) 9 0
    let out (q : Sub) : Bool := flag s.hm.outPair (coreOf (t q) / 2 * 2)
    let q := s.request m
    (given (inHand s m 0x0313 && threadNamed s 0x3FF true q && !out q) (fun s' =>
      (s'.th (t q)).state = (if (s.th (t q)).resetting then (s.th (t q)).state else .held) ∧ (s'.th (t q)).resetting = true ∧
      (s'.mbx m).st = 2 ∧ s'.mem = s.mem)).or
    (denied s m 0x0313 (fun q => threadNamed s 0x3FF true q && out q) 0x20 6)
  | .threadRelease m, s =>
    let t (q : Sub) : Nat := bits (q.q 0) 9 0
    let still (q : Sub) : Bool := (s.th (t q)).state == .held || (s.th (t q)).state == .locked
    (replyP s m 0x0314 (fun q => threadNamed s 0x3FF true q && still q) (fun _ => []) (fun q s' =>
      (s'.th (t q)).state = .free ∧ s'.queued (t q) = false ∧ (∀ u, u ≠ t q → s'.th u = s.th u) ∧
      (∀ e, e < 2560 → bits (s.rteCfg e) 9 0 = t q → bit (s'.rteCfg e) 31 = false) ∧ s'.mem = s.mem)).or
    (denied s m 0x0314 (fun q => threadNamed s 0x3FF true q && !still q) 0x20 9)
  | _, _ => none

/-! ## Instances, routes and mappings (R300 to R303) -/

/-- The instance that a name means, where it exists and belongs to the berth. -/
def instNamed (s : State) (q : Sub) : Option Nat :=
  match instName (q.q 0).toNat with
  | some i => if (s.inst i).on && (s.inst i).berth == q.b then some i else none
  | none => none

/-- The entries that a range command names (R301). -/
def routeEntries (q : Sub) : List Nat :=
  ((List.range (bits (q.q 0) 26 16)).map (fun i => bits (q.q 0) 10 0 + i)).filter (fun e => !(srcNever e && !decide (1216 ≤ e ∧ e < 1232)))

/-- R301: may a range go from one owner to another. -/
def rangeMay (s : State) (q : Sub) (owner : Nat) : Bool :=
  (q.q 0 &&& 0xF800F800) == 0 && bits (q.q 0) 26 16 != 0 && decide (bits (q.q 0) 26 16 ≤ 256) &&
  decide (bits (q.q 0) 10 0 + bits (q.q 0) 26 16 ≤ 1536) &&
  (List.range (bits (q.q 0) 26 16)).all (fun i => !s.srcFused (bits (q.q 0) 10 0 + i)) &&
  (routeEntries q).all (fun e => !(decide (1216 ≤ e ∧ e < 1232) || bit (s.rteCfg e) 19 || s.instHolds e) && rteOwner (s.rteCfg e) == owner)

/-- R272: every entry of a range is cleared, keeping HM, FIX and SEQ, and belongs to `to`. -/
def Cleared (q : Sub) (dest : Nat) (s s' : State) : Prop :=
  ∀ e ∈ routeEntries q, s'.rteCfg e = BitVec.ofNat 32 (bits (s.rteCfg e) 20 19 * 2 ^ 19 + dest * 2 ^ 10) ∧
    bits (s'.rteStat e) 19 0 = 0 ∧ bits (s'.rteStat e) 31 20 = bits (s.rteStat e) 31 20

/-- The context and the block that INST_CREATE takes (R300, R375). -/
def instTakes (s : State) (i sub : Nat) : Option (Nat × Nat) :=
  if i / 256 = 4 then (s.freeBlock sub).map (fun b => (0xFF, b)) else s.freeCtx.map (fun c => (c, 0))

/-- May an instance be made (R300): payload, the berth's list, fused controllers, reserved instances, use, and the page. -/
def instMay (s : State) (q : Sub) (i : Nat) : Bool :=
  let sub := bits (q.q 0) 23 16
  bits (q.q 0) 31 25 == 0 && !bit (q.q 1) 31 && bits (q.q 2) 31 12 == 0 && bits (q.q 3) 31 28 == 0 &&
  (if i / 256 = 4 then decide (sub ≤ 23) && !s.canFused sub else sub == 0) &&
  (s.holdsP q || s.hm.man.lists.any (fun l => l.1 == q.b && l.2.contains (bits (q.q 0) 15 0))) &&
  !(i / 256 == 5 && s.pceRoot) && !(i / 256 == 3 && s.hm.man.gwSets.contains (i % 256)) && !(s.inst i).on &&
  !(s.berth q.b).maps.any (fun o => o.meets (bits (q.q 3) 27 0) 1)

/-- The commands of the groups 0x04 and 0x05, MEM_MAP and MEM_UNMAP. -/
def resourceRule : Rule
  | .instCreate m, s =>
    let q := s.request m
    let sub := bits (q.q 0) 23 16
    let ipa := bits (q.q 3) 27 0
    (match instName (bits (q.q 0) 15 0) with
     | some i =>
       match instTakes s i sub with
       | some (ctx, blk) =>
         replyP s m 0x0401 (fun q => instMay s q i &&
             (s.instMake i q.b sub ctx blk ipa (bit (q.q 0) 24) (bits (q.q 1) 30 0) (bits (q.q 2) 11 0)).isSome)
           (fun _ => [BitVec.ofNat 32 ctx, BitVec.ofNat 32 (instEvent i + 2 * 2 ^ 16)])
           (fun q s' => s'.inst i = { on := true, berth := q.b, sub := sub, ctx := ctx, ipa := ipa } ∧
             rteOwner (s'.rteCfg (instEvent i)) = q.b ∧ rteOwner (s'.rteCfg (instEvent i + 1)) = q.b ∧
             (s'.berth q.b).maps = (s.berth q.b).maps ++ [devMap ipa (instPage i / 4096) 1] ∧
             (i / 256 ≠ 4 → Tbl.get (fun _ => ({} : IoCtx)) s'.ioctx ctx =
               { berth := q.b, s1en := bit (q.q 0) 24, s1base := BitVec.ofNat 31 (bits (q.q 1) 30 0),
                 asid := BitVec.ofNat 12 (bits (q.q 2) 11 0) }) ∧ Contexts s s')
       | none => denied s m 0x0401 (fun q => instMay s q i) 0x50 2
     | none => denied s m 0x0401 (fun _ => true) 0x20 8)
  | .instDestroy m, s =>
    match instNamed s (s.request m) with
    | some i => accept s m 0x0402 (fun _ => true) (fun _ s' =>
        (s'.inst i).rst = true ∧ (s'.inst i).frog = true ∧ (s'.inst i).destroy = true ∧ NoThread s s')
    | none => none
  | .instReset m, s =>
    match instNamed s (s.request m) with
    | some i =>
      let ms (q : Sub) : Nat := bits (q.q 1) 31 16
      (accept s m 0x0403 (fun q => bits (q.q 1) 15 1 == 0) (fun q s' =>
        (s'.inst i).rst = true ∧ (s'.inst i).frog = (bit (q.q 1) 0 || ((s.inst i).rst && (s.inst i).frog)) ∧
        (s'.inst i).left = (if ms q = 0 then 1000000 else ms q * 10000) ∧ (s'.inst i).tout = false ∧ NoThread s s')).or
      (denied s m 0x0403 (fun q => bits (q.q 1) 15 1 != 0) 0x20 8)
    | none => none
  | .instQuery m, s =>
    match instName ((s.request m).q 0).toNat with
    | some i =>
      let x := s.inst i
      reply s m 0x0404 (fun _ => true)
        (fun _ => [if x.on then BitVec.ofNat 32 (x.berth + 2 ^ 8 + b2n x.rst * 2 ^ 9 + x.ctx * 2 ^ 16) else 0]) (fun _ => s)
    | none => denied s m 0x0404 (fun _ => true) 0x20 8
  | .routeGive m, s => replyP s m 0x0501 (fun q => rangeMay s q 0) (fun _ => []) (fun q s' => Cleared q q.b s s' ∧ NoThread s s')
  | .routeReturn m, s => replyP s m 0x0502 (fun q => rangeMay s q q.b) (fun _ => []) (fun q s' => Cleared q 0 s s' ∧ NoThread s s')
  | .dbShare m, s =>
    let d (q : Sub) : Nat := bits (q.q 0) 7 0
    (replyP s m 0x0503 (fun q => (q.q 0 &&& 0xFFFEC000) == 0 && rteOwner (s.rteCfg (1280 + d q)) == q.b) (fun _ => []) (fun q s' =>
      s'.reg (bellAddr (d q) + 0x40) = BitVec.ofNat 32 (b2n (bit (q.q 0) 16) * 2 ^ 31 + bits (q.q 0) 13 8 * 2 ^ 24) ∧ NoThread s s')).or
    (denied s m 0x0503 (fun q => (q.q 0 &&& 0xFFFEC000) == 0 && rteOwner (s.rteCfg (1280 + d q)) != q.b) 0x20 3)
  | .routeQuery m, s =>
    (reply s m 0x0504 (fun q => decide ((q.q 0).toNat < 1536) && !s.srcFused (q.q 0).toNat) (fun q =>
      let n := (q.q 0).toNat
      let c := s.rteCfg (if 1216 ≤ n ∧ n < 1232 then copyEntry q.b (n - 1216) else n)
      [BitVec.ofNat 32 (bits c 15 10 + b2n (bit c 19) * 2 ^ 8 + b2n (bit c 20) * 2 ^ 9 + b2n (s.instHolds n) * 2 ^ 10)]) (fun _ => s)).or
    ((denied s m 0x0504 (fun q => decide (1536 ≤ (q.q 0).toNat)) 0x20 8).or
     (denied s m 0x0504 (fun q => decide ((q.q 0).toNat < 1536) && s.srcFused (q.q 0).toNat) 0x50 1))
  | .memMap m, s =>
    let x (q : Sub) : Mapping := { ipa := bits (q.q 0) 27 0, pa := bits (q.q 1) 27 0, n := (q.q 2).toNat, flags := bits (q.q 3) 3 0 }
    let words (q : Sub) : Bool := bits (q.q 0) 31 28 == 0 && bits (q.q 1) 31 28 == 0 && bits (q.q 3) 31 4 == 0
    (accept s m 0x0601 (fun q => words q && (s.mapRule q.b (x q)).isNone && (s.mapIn q.b (x q)).isSome)
      (fun q s' => (s'.berth q.b).maps = (s.berth q.b).maps ++ [x q] ∧ Contexts s s')).or
    ((denied s m 0x0601 (fun q => !words q) 0x20 8).or
     (match s.mapRule (s.request m).b (x (s.request m)) with
      | some d => denied s m 0x0601 words 0x20 d
      | none => none))
  | .memUnmap m, s =>
    let ipa (q : Sub) : Nat := bits (q.q 0) 27 0
    let n (q : Sub) : Nat := (q.q 1).toNat
    let mem (q : Sub) : List Mapping := (s.berth q.b).maps.filter (fun o => !o.dev)
    let words (q : Sub) : Bool := bits (q.q 0) 31 28 == 0 && n q != 0 && decide (n q ≤ 2 ^ 24) && decide (ipa q + n q ≤ 2 ^ 28)
    let whole (q : Sub) : Bool := !(s.berth q.b).maps.any (fun o => o.dev && o.meets (ipa q) (n q)) &&
      covered ((mem q).map (fun o => (o.ipa, o.n))) (ipa q + n q) (mem q).length (ipa q)
    (accept s m 0x0602 (fun q => words q && whole q && (s.mapOut q.b (ipa q) (n q)).isSome) (fun q s' =>
      (s'.berth q.b).maps = (s.berth q.b).maps.flatMap (fun o => o.without (ipa q) (n q)) ∧ Contexts s s')).or
    ((denied s m 0x0602 (fun q => !words q) 0x20 8).or (denied s m 0x0602 (fun q => words q && !whole q) 0x20 9))
  | _, _ => none

/-! ## Errors, security, debug (R302, R304 to R306) -/

/-- R342: counter `r` of a group, as CNT_READ shows it. -/
def shownCounter (s : State) (g r : Nat) : W32 :=
  if isGuardCnt g r then s.reg (guardCnt g r) else BitVec.ofNat 32 (s.counter g r)

/-- The commands LOG_READ to SCRUB_STATUS of the group 0x06. -/
def errorRule : Rule
  | .logRead m, s =>
    let first (q : Sub) : BitVec 16 := BitVec.ofNat 16 (bits (q.q 0) 15 0)
    let oldest : BitVec 16 := s.logSeq - BitVec.ofNat 16 s.log.length
    let inside (q : Sub) : Bool := decide ((first q - oldest).toNat ≤ s.log.length)
    (reply s m 0x0603 (fun q => bits (q.q 0) 31 16 == 0)
      (fun q =>
        let x := logTake (fun e => s.holdsP q || e.berth == q.b) s.logSeq 7
          (if inside q then s.log.drop (first q - oldest).toNat else s.log)
        BitVec.ofNat 32 (x.2.toNat + x.1.length * 2 ^ 16 + (if inside q then 0 else min 0xFF (oldest - first q).toNat) * 2 ^ 24) ::
          x.1.flatMap LogEntry.words) (fun _ => s)).or
    (denied s m 0x0603 (fun q => bits (q.q 0) 31 16 != 0) 0x20 8)
  | .cntRead m, s =>
    let g (q : Sub) : Nat := (q.q 0).toNat
    let mine (q : Sub) : Bool := s.holdsP q || g q == 0x100 + q.b
    let there (q : Sub) : Bool := groupThere (g q) && !s.groupFused (g q)
    (reply s m 0x0604 (fun q => there q && mine q) (fun q => (List.range 16).map (fun i => shownCounter s (g q) (i + 1))) (fun _ => s)).or
    ((denied s m 0x0604 (fun q => there q && !mine q) 0x20 3).or
    ((denied s m 0x0604 (fun q => !groupThere (g q)) 0x20 8).or
     (denied s m 0x0604 (fun q => groupThere (g q) && s.groupFused (g q)) 0x50 1)))
  | .cntClear m, s =>
    let g (q : Sub) : Nat := (q.q 0).toNat
    (replyP s m 0x0605 (fun q => groupThere (g q) && !s.groupFused (g q)) (fun _ => []) (fun q s' =>
      (∀ r, 1 ≤ r → r ≤ 16 → shownCounter s' (g q) r = 0) ∧
      (∀ k r, k ≠ g q → r < 32 → s'.counter k r = s.counter k r) ∧ NoThread s s')).or
    ((denied s m 0x0605 (fun q => !groupThere (g q)) 0x20 8).or
     (denied s m 0x0605 (fun q => groupThere (g q) && s.groupFused (g q)) 0x50 1))
  | .agentReclaim m, s =>
    let a (q : Sub) : Nat := (q.q 0).toNat
    (accept s m 0x0606 (fun q => decide (a q ≤ 12) && a q != 8 && !s.agentDead (a q)) (fun q s' =>
      s'.agentDead (a q) = true ∧ (∀ l, l < 2 ^ 34 → (s'.aline (a q) l).st = .I) ∧ Contexts s s')).or
    ((denied s m 0x0606 (fun q => decide (12 < a q)) 0x20 8).or (denied s m 0x0606 (fun q => a q == 8) 0x20 5))
  | .scrubStatus m, s =>
    (reply s m 0x0607 (fun q => decide ((q.q 0).toNat ≤ 3)) (fun q =>
      (List.range (if (q.q 0).toNat = 1 then 16 else 8)).map (fun u => match (s.scrub (q.q 0).toNat u).lap with
        | some n => BitVec.ofNat 32 n
        | none => 0xFFFFFFFF)) (fun _ => s)).or
    (denied s m 0x0607 (fun q => decide (3 < (q.q 0).toNat)) 0x20 8)
  | _, _ => none

/-- A slot's key and owner go to a queue of a berth (R443). -/
def keyGiven (s : State) (q : Sub) : State :=
  let k := bits (q.q 0) 7 0
  s.setSlot k { s.slot k with berth := q.b, queue := some (bits (q.q 0) 11 8) }

/-- The commands of the groups 0x07 and 0x08. -/
def trustRule : Rule
  | .secStatus m, s => reply s m 0x0701 (fun _ => true) (fun _ => [BitVec.ofNat 32 (s.sec.lc + b2n s.sec.cert * 2 ^ 8), 0x0100]) (fun _ => s)
  | .keyGive m, s =>
    let k (q : Sub) : Nat := bits (q.q 0) 7 0
    let words (q : Sub) : Bool := bits (q.q 0) 31 12 == 0 && decide (k q ≤ 63)
    let free (q : Sub) : Bool := ((s.slot (k q)).berth == 0 || (s.slot (k q)).berth == q.b) &&
      (match s.queueTag (bits (q.q 0) 11 8) with
       | some b => b == q.b
       | none => true)
    (reply s m 0x0702 (fun q => words q && free q) (fun _ => []) (keyGiven s)).or
    ((denied s m 0x0702 (fun q => !words q) 0x20 8).or (denied s m 0x0702 (fun q => words q && !free q) 0x20 3))
  | .keyRevoke m, s =>
    let k (q : Sub) : Nat := bits (q.q 0) 7 0
    let words (q : Sub) : Bool := bits (q.q 0) 31 8 == 0 && decide (k q ≤ 63)
    (replyP s m 0x0703 (fun q => words q && (s.slot (k q)).berth == q.b) (fun _ => []) (fun q s' =>
      s'.slot (k q) = {} ∧ (∀ j, j ≠ k q → s'.slot j = s.slot j) ∧
      (∀ r, r < 16 → (s.svcQ r).chain = true → (s.svcQ r).slot = k q → s'.svcQ r = { st := 2 }) ∧ NoThread s s')).or
    (denied s m 0x0703 (fun q => words q && (s.slot (k q)).berth != q.b) 0x20 3)
  | .attest m, s => accept s m 0x0704 (fun _ => true) (fun _ s' => s'.sec = s.sec ∧ NoThread s s')
  | .dbgChallenge m, s =>
    reply s m 0x0801 (fun _ => true) (fun _ => bytesWords (s.freshBytes 32).1)
      (fun _ => { s with free := s.free + 1, dbg := { s.dbg with nonce := some (s.freshBytes 32).1 } })
  | .dbgOpen m, s =>
    let level (q : Sub) : Bool := q.q 0 == 1 || q.q 0 == 2
    let good (q : Sub) : Bool := match s.credential (q.q 0) with
      | some f => f (wordsBytes (q.pay.drop 1)) && !s.sec.alarm
      | none => false
    (replyP s m 0x0802 (fun q => level q && decide (s.dbg.fails < 4) && good q) (fun _ => []) (fun q s' =>
      s'.dbgLevel = (q.q 0).toNat ∧ s'.sec.dbgSeen = true ∧ s'.dbg.fails = 0 ∧ s'.sec.cert = false ∧ NoThread s s')).or
    ((denied s m 0x0802 (fun q => !level q) 0x20 8).or
    ((denied s m 0x0802 (fun q => level q && ((s.credential (q.q 0)).isNone || decide (4 ≤ s.dbg.fails))) 0x20 5).or
     (given (inHand s m 0x0802 && level (s.request m) && (s.credential ((s.request m).q 0)).isSome && decide (s.dbg.fails < 4) &&
        !good (s.request m)) (fun s' =>
       Replied m [r0 0x20 7] s s' ∧ s'.dbg.fails = s.dbg.fails + 1 ∧ s'.dbgLevel = s.dbgLevel ∧ NoThread s s'))))
  | .dbgClose m, s =>
    replyP s m 0x0803 (fun _ => true) (fun _ => []) (fun _ s' => s'.dbgLevel = 0 ∧ s'.frozen = false ∧ Contexts s s' ∧ s'.mem = s.mem)
  | .dbgStatus m, s =>
    reply s m 0x0804 (fun _ => true) (fun _ =>
      [BitVec.ofNat 32 (b2n (decide (1 ≤ s.dbgLevel)) + b2n (s.dbgLevel == 2) * 2 + b2n s.frozen * 4 + min 15 s.dbg.fails * 16)]) (fun _ => s)
  | _, _ => none

/-! ## Manifest, time, counters and trace (R307 to R309) -/

/-- R307: bytes put into the staging buffer. -/
def stagedBytes (t : Tbl Byte) (at_ : Nat) (bs : List Byte) : Tbl Byte :=
  (bs.zipIdx).foldl (fun t b => Tbl.set (fun _ => (0 : Byte)) t (at_ + b.2) b.1) t

/-- The commands of the groups 0x09, 0x0A and 0x0B. -/
def serviceRule : Rule
  | .manWrite m, s =>
    let off (q : Sub) : Nat := (q.q 0).toNat
    let bs (q : Sub) : List Byte := wordsBytes (q.pay.drop 1)
    (reply s m 0x0901 (fun q => decide (off q < 2 ^ 16) && decide (4 * off q + (bs q).length ≤ 196608)) (fun _ => []) (fun q =>
      { s with hm := { s.hm with stagedAny := true, staged := stagedBytes s.hm.staged (4 * off q) (bs q) } })).or
    ((denied s m 0x0901 (fun q => decide (2 ^ 16 ≤ off q)) 0x20 8).or
     (denied s m 0x0901 (fun q => decide (off q < 2 ^ 16) && decide (196608 < 4 * off q + (bs q).length)) 0x50 2))
  | .manCommit m, s =>
    let n (q : Sub) : Nat := (q.q 0).toNat
    let words (q : Sub) : Bool := n q != 0 && decide (n q ≤ 196608) && bits (q.q 1) 31 1 == 0
    (accept s m 0x0902 (fun q => words q && (s.hm.held || (s.hm.committed && bit (q.q 1) 0)))
      (fun _ s' => s'.hm.staged = [] ∧ s'.hm.stagedAny = false ∧ NoThread s s')
      ((List.range (n (s.request m))).map (fun i => Tbl.get (fun _ => (0 : Byte)) s.hm.staged i))).or
    ((denied s m 0x0902 (fun q => !words q) 0x20 8).or
    ((denied s m 0x0902 (fun q => words q && !s.hm.committed && !s.hm.held) 0x40 1).or
     (denied s m 0x0902 (fun q => words q && s.hm.committed && !s.hm.held && !bit (q.q 1) 0) 0x20 5)))
  | .manStatus m, s =>
    reply s m 0x0903 (fun _ => true) (fun _ =>
      [BitVec.ofNat 32 ((if s.hm.stagedAny then 1 else if s.hm.committed then 2 else 0) + b2n s.hm.held * 2 ^ 8),
       BitVec.ofNat 32 s.hm.lastFail] ++ s.manWords) (fun _ => s)
  | .timeGet m, s =>
    reply s m 0x0A01 (fun _ => true)
      (fun _ => [BitVec.ofNat 32 (s.gtbFrac / 2 ^ 16 % 2 ^ 16), BitVec.ofNat 32 s.gtb, BitVec.ofNat 32 (s.gtb / 2 ^ 32)]) (fun _ => s)
  | .timeStep m, s =>
    let v (q : Sub) : Nat := (q.q 1).toNat + (q.q 2).toNat * 2 ^ 32
    (replyP s m 0x0A02 (fun q => bits (q.q 0) 31 1 == 0 && s.eth.source == 0) (fun _ => [])
      (fun q s' => s'.gtb = (if bit (q.q 0) 0 then s.gtb + v q else v q) % 2 ^ 64 ∧ NoThread s s')).or
    (denied s m 0x0A02 (fun q => bits (q.q 0) 31 1 == 0 && s.eth.source != 0) 0x20 5)
  | .timeSource m, s =>
    (reply s m 0x0A03 (fun q => decide ((q.q 0).toNat ≤ 2)) (fun _ => [])
      (fun q => { s with eth := { s.eth with source := (q.q 0).toNat } })).or
    (denied s m 0x0A03 (fun q => decide (2 < (q.q 0).toNat)) 0x20 8)
  | .alarmGive m, s =>
    let a (q : Sub) : Nat := bits (q.q 0) 2 0
    let words (q : Sub) : Bool := (q.q 0 &&& 0xFFFFFEF8) == 0
    let may (q : Sub) : Bool := if bit (q.q 0) 8 then num s.alarms (a q) == q.b else num s.alarms (a q) == 0 || num s.alarms (a q) == q.b
    let dest (q : Sub) : Nat := if bit (q.q 0) 8 then 0 else q.b
    (replyP s m 0x0A04 (fun q => words q && may q) (fun _ => [])
      (fun q s' => num s'.alarms (a q) = dest q ∧ rteOwner (s'.rteCfg (1176 + a q)) = dest q ∧ bit (s'.rteCfg (1176 + a q)) 31 = false ∧
        NoThread s s')).or
    ((denied s m 0x0A04 (fun q => !words q) 0x20 8).or (denied s m 0x0A04 (fun q => words q && !may q) 0x20 3))
  | .snap m, s =>
    let busy : Bool := s.hm.acc.any (fun a => a.opcode == 0x0B01) || s.hm.ended.any (fun e => e.acc.opcode == 0x0B01)
    let want (q : Sub) : Nat := (q.q 0).toNat + (q.q 1).toNat * 2 ^ 32
    (accept s m 0x0B01 (fun _ => !busy && bit (s.reg 0x104B001004) 0 && s.agentMay s.rowTbl 8192 true && s.unmappedW s.rowTbl 2)
      (fun q s' => s'.perf.armed = true ∧ s'.perf.at_ = (if want q < s.gtb then s.gtb + 10000 else want q) ∧ NoThread s s')).or
    ((denied s m 0x0B01 (fun _ => busy) 0x30 1).or (denied s m 0x0B01 (fun _ => !busy && !bit (s.reg 0x104B001004) 0) 0x20 9))
  | .cntGive m, s =>
    let u (q : Sub) : Nat := bits (q.q 0) 6 0
    let words (q : Sub) : Bool := (q.q 0 &&& 0xFFFFFE80) == 0 && decide (u q ≤ 74)
    let may (q : Sub) : Bool := match s.cntOwner (u q) with
      | some o => o == q.b
      | none => !bit (q.q 0) 8
    let dest (q : Sub) : Option Nat := if bit (q.q 0) 8 then none else some q.b
    (replyP s m 0x0B02 (fun q => words q && decide (u q < 32) && !s.cntAbsent (u q) && may q && (s.cntGive (u q) (dest q)).isSome)
      (fun _ => []) (fun q s' =>
        s'.cntOwner (u q) = dest q ∧ (∀ i, i < 16 → s'.cntVal (u q) i = 0) ∧ s'.reg (cntPage (u q) + 4) = 0 ∧ Contexts s s')).or
    ((denied s m 0x0B02 (fun q => words q && decide (32 ≤ u q)) 0x20 5).or
    ((denied s m 0x0B02 (fun q => words q && decide (u q < 32) && s.cntAbsent (u q)) 0x50 1).or
     (denied s m 0x0B02 (fun q => words q && decide (u q < 32) && !s.cntAbsent (u q) && !may q) 0x20 3)))
  | .traceBuf m, s =>
    let pa (q : Sub) : Nat := bits (q.q 0) 27 0
    let n (q : Sub) : Nat := (q.q 1).toNat
    let words (q : Sub) : Bool := bits (q.q 0) 31 28 == 0 && n q != 0 && decide (n q ≤ 65536) && !s.touchesCheck (pa q) (n q)
    let free (q : Sub) : Bool := decide ((pa q + n q) * 4096 ≤ s.dramInstalled) && s.unmappedW (pa q * 4096) (n q)
    (replyP s m 0x0B03 (fun q => words q && free q) (fun _ => []) (fun q s' =>
      s'.reg 0x104C002004 = BitVec.ofNat 32 (pa q * 4096) ∧ s'.reg 0x104C002008 = BitVec.ofNat 32 (pa q / 0x100000) ∧
      s'.reg 0x104C00200C = BitVec.ofNat 32 (n q) ∧ s'.trc.full = false ∧ NoThread s s')).or
    ((denied s m 0x0B03 (fun q => !words q) 0x20 8).or (denied s m 0x0B03 (fun q => words q && !free q) 0x20 5))
  | .traceCtl m, s =>
    let cs (q : Sub) : List Nat := (List.range 32).filter (fun c => bit (q.q 0) c)
    let words (q : Sub) : Bool := bits (q.q 1) 31 1 == 0
    (replyP s m 0x0B04 (fun q => words q && !(cs q).any (fun c => s.clusterFused (c / 4))) (fun _ => []) (fun q s' =>
      (∀ c ∈ cs q, (s'.enc c).armed = bit (q.q 1) 0) ∧ (∀ c, c ∉ cs q → s'.enc c = s.enc c) ∧ NoThread s s')).or
    (denied s m 0x0B04 (fun q => words q && (cs q).any (fun c => s.clusterFused (c / 4))) 0x50 1)
  | _, _ => none

end Sys2Proof.Rules
end

