-- ==== Sys2Proof/Rules/Upkeep.lean ====
section
/-! DEFINITION. What chapters 12 to 14 give the resets of instances and berths, the watchdogs, the host's transports, and the time
base: the commands that no mailbox asks for. -/

namespace Sys2Proof.Rules

open Sys2Proof.Machine

/-! ## Instances and berths (R314, R315, R320 to R323) -/

/-- The resets of instances and berths, and the end of a reclaim. -/
def resetRule : Rule
  | .reclaimComplete, s =>
    match s.coh.reclaim with
    | [] => some (fun s' => s' = s)
    | (a, _, _) :: r => some (fun s' =>
        s'.coh.reclaim = r ∧ (bits (s.reg 0x104300200C) 31 28 = a → bit (s'.reg 0x104300200C) 23 = true) ∧
        s'.log.getLast?.map (fun e => (e.source, e.kind)) = some (4, 1) ∧ Contexts s s' ∧ s'.mem = s.mem)
  | .instanceResetComplete i, s =>
    let x := s.inst i
    given (x.rst && s.instIdle i) (fun s' =>
      (∀ off, 0x20 ≤ off → off < 0x1000 → s'.reg (instPage i + off) = regReset (instPage i + off)) ∧
      (if x.destroy then s'.inst i = {} ∧ rteOwner (s'.rteCfg (instEvent i)) = 0
       else s'.inst i = { x with rst := false, hush := false }) ∧
      (x.hush = false → bit (s.rteCfg (copyEntry x.berth 4)) 20 = true → flag s'.intake 1220 = true) ∧ Contexts s s')
  | .instResetTimeout i, s =>
    let x := s.inst i
    given (x.rst && !x.frog && x.left == 0 && !s.frozen) (fun s' => s'.inst i = { x with frog := true, tout := true } ∧ NoThread s s')
  | .functionLevelReset f, s =>
    some (fun s' =>
      s'.pcie.bme.getLsbD f = false ∧ s'.pcie.msix.getLsbD f = false ∧
      ((s.inst (1280 + f)).on = true →
        (s'.inst (1280 + f)).rst = true ∧ (s'.inst (1280 + f)).frog = true ∧ s'.pcie.flr.getLsbD f = true) ∧ NoThread s s')
  | .berthResetQuiesced b, s =>
    given ((s.berth b).st == .resetting && (s.berthInsts b).all (fun i => !(s.inst i).rst) &&
        (s.berthThreads b).all (fun t => !(s.th t).resetting && (s.sbOf t).isEmpty))
      (fun s' => s'.berth b = { s.berth b with quiesced := true } ∧ NoThread s s')
  | .berthResetComplete b, s =>
    given ((s.berth b).st == .resetting && (s.berth b).quiesced) (fun s' =>
      (s'.berth b).st = .ready ∧ (s'.berth b).elapsed = 0 ∧ s'.mbx b = {} ∧ (∀ e ∈ s'.tlbs, e.berth ≠ b) ∧
      (∀ t ∈ s.berthThreads b, (s.th t).state = .held →
        (s'.th t).state = (if (s.berth b).auto && (s.th t).auto then (if (s.th t).ran then (s.th t).memo else .run) else .held)) ∧
      s'.mem = s.mem)
  | _, _ => none

/-! ## Watchdogs (R313, R316, R317, R426) -/

/-- R317: a failure of a watchdog: its flag, a new window, and what ACTION and the berth's state give. -/
def WatchdogFailed (s : State) (b kind : Nat) (s' : State) : Prop :=
  let x := s.berth b
  if b = 0 ∧ s.hm.full = false then
    bits (s'.reg 0x104A004000) 31 28 = 3 ∧ bits (s'.reg 0x104A004000) 27 24 = 2 ∧
    bits (s'.reg 0x104A004000) 9 8 = counted 3 (bits (s.reg 0x104A004000) 9 8) ∧ (earlyGood s = true → s'.hm.ready = false)
  else if x.wdAct then
    bit (s'.reg (wdPage b + 8)) (17 - kind) = true ∧
    s'.berth b = { x with elapsed := 0, wdArmed := false, warned := false, wdWaive := false } ∧ NoThread s s'
  else if b = 0 then
    bits (s'.reg 0x104A004000) 31 28 = 4 ∧ bits (s'.reg 0x104A004000) 27 24 = 1 ∧ (earlyGood s = true → s'.hm.ready = false)
  else if x.st = .ready then
    (s'.berth b).st = .resetting ∧ (s'.berth b).auto = true ∧ bit (s'.reg (wdPage b + 8)) (17 - kind) = true ∧
    ∀ t ∈ s.berthThreads b, (s'.th t).state = .held
  else bit (s'.reg (wdPage b + 8)) (17 - kind) = true

/-- The watchdogs. -/
def watchdogRule : Rule
  | .watchdogServiceWrite rq b w, s =>
    let x := s.berth b
    if s.domain 22 = .on ∧ s.wdServes rq b = true then
      (if !x.wdEn then some (fun s' => s' = s)
       else if w = 0xA5 ∧ !x.wdArmed then some (fun s' => s'.berth b = { x with wdArmed := true } ∧ NoThread s s')
       else if w = 0x5A ∧ x.wdArmed then
         (if x.elapsed / 1000 < x.wdLb ∧ !x.wdWaive then some (WatchdogFailed s b 1)
          else some (fun s' => s'.berth b = { x with elapsed := 0, wdArmed := false, warned := false, wdWaive := false } ∧ NoThread s s'))
       else some (WatchdogFailed s b 2))
    else none
  | .watchdogWarning b, s =>
    let x := s.berth b
    given (x.wdEn && !x.warned && !s.frozen && decide (x.wdUb - x.wdUb / 8 ≤ x.elapsed / 1000)) (fun s' =>
      s'.berth b = { x with warned := true } ∧ bit (s'.reg (wdPage b + 8)) 18 = true ∧
      Signalled (copyEntry b 2) 1218 s s' ∧ NoThread s s')
  | .watchdogExpiry b, s =>
    given ((s.berth b).wdEn && !s.frozen && decide ((s.berth b).wdUb ≤ (s.berth b).elapsed / 1000)) (WatchdogFailed s b 0)
  | _, _ => none

/-! ## Transports (R278, R357) -/

/-- A mailbox page as the SPI service port writes it while the device is awake; before READY a GO is left QUEUED (R286). -/
def sspWrites (s : State) : Option Nat := if s.pwr.sleep == .awake then s.sspMbx else none

/-- A mailbox page as the port reads it: zeros until the harbourmaster is ready (R278). -/
def sspReaches (s : State) : Option Nat := if s.hm.ready then sspWrites s else none

/-- The SPI service port, and management frames. -/
def transportRule : Rule
  | .sspWriteWords off ws, s =>
    match sspWrites s, ws with
    | some m, [w] =>
      let o := off % 256
      if o < 64 ∧ ((s.mbx m).st = 0 ∨ (s.mbx m).st = 3) then some (fun s' => s' = s.setReg (mbxBase m + 4 * o) w)
      else if o = 0xC0 ∧ w = 1 ∧ ((s.mbx m).st = 0 ∨ (s.mbx m).st = 3) then
        some (fun s' => s'.mbx m = { s.mbx m with st := 1, go := none, goAt := s.time } ∧ NoThread s s')
      else none
    | _, _ => none
  | .sspReadWords off n, s =>
    match sspReaches s with
    | some m => some (fun s' => s' = { s with sspOut := (List.range n).map (fun i =>
        let o := 4 * ((off + i) % 256)
        if o = 0x304 then s.mbxStat m else if o = 0x30C then s.mbxVer
        else if o = 0x300 ∨ 0x30C < o then 0 else s.reg (mbxBase m + o)) })
    | none => none
  | .sspReadStat, s =>
    match s.sspMbx with
    | some m => given (s.pwr.sleep == .awake) (fun s' => s' = { s with sspOut := [s.mbxStat m] })
    | none => none
  | .managementFrameRx port vid src msg, s =>
    if Nat.testBit s.hm.man.mgmtPorts port.val && s.portUp port.val && s.hm.committed && !s.hm.held && !s.frozen &&
        vid.toNat == s.hm.man.mgmtVid && vid != 0 then
      (match (List.range 4).find? (fun h => (s.hostOf h).1 == 2) with
       | none => some (fun s' => bits (s'.reg 0x1044001038) 15 0 = counted 0xFFFF (bits (s.reg 0x1044001038) 15 0) ∧ NoThread s s')
       | some h =>
         let m := 64 + h
         let n := 5 + bits (msg.getD 0 0) 31 24
         if n ≤ msg.length ∧ n ≤ 64 ∧ ((s.mbx m).st = 0 ∨ (s.mbx m).st = 3) then some (fun s' =>
           (s'.mbx m).st = 1 ∧ (s'.mbx m).dst = src ∧ (s'.mbx m).port = port.val ∧ (∀ i, i < n → s'.reg (mbxBase m + 4 * i) = msg.getD i 0) ∧ NoThread s s')
         else none)
    else some (fun s' => s' = s)
  | _, _ => none

/-! ## Time and completions (R308, R356, R361) -/

/-- The time base and the timers of other blocks. -/
def timeRule : Rule
  | .nonceLapse, s => some (fun s' => s' = { s with dbg := { s.dbg with nonce := none } })
  | .gtbAlarmMatch a, s => some (fun s' => Signalled (1176 + a.val) (1176 + a.val) s s' ∧ NoThread s s')
  | .gtbPps, s => some (fun s' => Signalled 1185 1185 s s' ∧ NoThread s s')
  | .slewComplete, s =>
    given (s.eth.slewing && decide (s.eth.slew < 2 ^ 32) && decide (-(2 ^ 32) < s.eth.slew))
      (fun s' => s' = { s with eth := { s.eth with slew := 0, slewing := false } })
  | .eswTdOffsWrite rq w, s =>
    if s.domain 14 = .on ∧ s.guardOk rq = true then
      (if s.eth.source = 0 then some (fun s' => s' = s)
       else if w.toInt ≤ 1000000 ∧ -1000000 ≤ w.toInt then
         some (fun s' => s' = { s with eth := { s.eth with slew := -w.toInt * 2 ^ 32, slewing := w.toInt != 0 } })
       else some (fun s' => s'.gtb = ((s.gtb : Int) - w.toInt).toNat % 2 ^ 64 ∧ s'.eth.slewing = false ∧ NoThread s s'))
    else none
  | .coalesceTimerExpiry i, s =>
    let coal := if i.val / 256 = 1 then 0xA0 else 0x48
    given (decide (1 ≤ i.val / 256) && decide (i.val % 256 < instCount (i.val / 256)) && decide (0 < num s.eth.unsig i) &&
        decide (bits (s.reg (instPage i + coal)) 31 16 ≠ 0))
      (fun s' => num s'.eth.unsig i = 0 ∧ Signalled (instEvent i) (instEvent i) s s' ∧ NoThread s s')
  | _, _ => none

end Sys2Proof.Rules
end

