-- ==== Sys2Proof/Rules/Network.lean ====
section
/-! DEFINITION. What chapter 16 gives the switch, its host queue sets and PCI Express. -/

namespace Sys2Proof.Rules

open Sys2Proof.Machine

/-- Only registers, and what a signal reaches, change. -/
def OnlyNoted (s s' : State) : Prop := { s' with regs := s.regs, intake := s.intake, perf := s.perf } = s

/-- R29: an event record holds a flag. -/
def Noted (a k : Nat) (s s' : State) : Prop := bit (s'.reg a) k = true ∧ OnlyNoted s s'

/-- R22: an access to a block whose domain is not on asks for the domain and does nothing else. -/
def Woken (d : Nat) (s s' : State) : Prop := flag s'.domReq d = true ∧ { s' with domReq := s.domReq } = s

/-- R22: an access waits for a domain: it asks for it, stands behind those that wait, and does nothing else. -/
def Stalled (d : Nat) (x : Wait) (s s' : State) : Prop :=
  flag s'.domReq d = true ∧ s'.waits = s.waits ++ [(d, x)] ∧ { s' with domReq := s.domReq, waits := s.waits } = s

/-- R15, R21: a write gets an error response: no register of its page changes, and the harbourmaster's error log gets an entry when the
access is its own. -/
def Errored (rq : Req) (pa : Nat) (s s' : State) : Prop :=
  s'.reg pa = s.reg pa ∧ NoThread s s' ∧
  (rq.cls = .harbour → s'.log.getLast?.map (fun e => (e.source, e.kind, e.addr)) = some (0x10, 0x01, pa))

/-- R34: a write that the guard refuses is recorded in the block's frame. -/
def GuardRefused (pa : Nat) (s s' : State) : Prop := bit (s'.reg (frameOf pa + 0xC)) 18 = true ∧ NoThread s s'

/-- R22, R34: a write to a guarded register, where `P` is what it does. -/
def guarded (s : State) (rq : Req) (pa : Nat) (w : W32) (P : State → Prop) : Option (State → Prop) :=
  if s.addrFused pa then some (Errored rq pa s)
  else if s.domain (domainOf pa) ≠ .on then some (Stalled (domainOf pa) (.reg rq pa (some w)) s)
  else if s.guardOk rq then some P
  else some (GuardRefused pa s)

/-- R318, R321: a write to a register of instance `i`, where `P` is what it does. -/
def owned (s : State) (rq : Req) (pa i : Nat) (w : W32) (P : State → Prop) : Option (State → Prop) :=
  let x := s.inst i
  if s.addrFused pa then some (Errored rq pa s)
  else if s.domain (domainOf pa) ≠ .on then some (Stalled (domainOf pa) (.reg rq pa (some w)) s)
  else if s.guardOk rq || (x.on && rq.berth.val == x.berth) then (if x.on && !x.rst then some P else some (fun s' => s' = s))
  else some (GuardRefused pa s)

/-- A ring holds a descriptor that is to be worked on (R356). -/
def ringWorks (s : State) (g : Ring) : Bool := s.ringOn g && s.ringHead g != s.ringTail g

/-- R356: HEAD passes one descriptor. -/
def HeadMoved (g : Ring) (s s' : State) : Prop := (s'.reg (g.reg 4)).toNat = (s.ringHead g + 1) % s.ringSlots g

/-! ## Tables (R347, R352, R348) -/

/-- The frames that wait at a port in a traffic class, and those that wait for a host queue set. -/
def waiting (s : State) (p tc : Nat) : List EFrame := Tbl.get (fun _ => ([] : List EFrame)) s.eth.egress (8 * p + tc)
def arrived (s : State) (q : Nat) : List EFrame := Tbl.get (fun _ => ([] : List EFrame)) s.eth.hostRx q

/-- The commands of the tables of the switch and the gateway. -/
def tableRule : Rule
  | .tblRead rq gwy tbl idx, s =>
    let a := tblPage gwy + 4
    let w := BitVec.ofNat 32 (2 ^ 31 + tbl.val * 2 ^ 24 + idx.toNat)
    guarded s rq a w (fun s' => s' = if bit (s.reg a) 31 then s else s.setReg a (w &&& 0xCF00FFFF))
  | .tblWrite rq gwy tbl idx, s =>
    let a := tblPage gwy + 4
    let w := BitVec.ofNat 32 (2 ^ 31 + 2 ^ 30 + tbl.val * 2 ^ 24 + idx.toNat)
    guarded s rq a w (fun s' => s' = if bit (s.reg a) 31 then s else s.setReg a (w &&& 0xCF00FFFF))
  | .tableAccessDone gwy, s =>
    let c := s.reg (tblPage gwy + 4)
    let t := bits c 27 24
    let i := bits c 15 0
    if s.frozen || !bit c 31 then some (fun s' => s' = s)
    else if bit c 30 then
      given (decide (i < tblSize gwy t) && (gwy || (t != 5 || decide (256 ≤ i % 512))))
        (fun s' => bit (s'.reg (tblPage gwy + 4)) 31 = false ∧ NoThread s s' ∧
          (if gwy then s'.gwEntry t i = (if t = 0 then putBits (s.tblData gwy) 192 16 0 else s.tblData gwy)
           else s'.ethEntry t i = s.tblData gwy))
    else given (num (if gwy then s.gw.flips else s.eth.flips) (t * 2 ^ 16 + i) == 0) (fun s' =>
      bit (s'.reg (tblPage gwy + 4)) 31 = false ∧ NoThread s s' ∧ s'.eth = s.eth ∧ s'.gw = s.gw ∧
      ∀ k, k < 8 → s'.reg (tblPage gwy + 8 + 4 * k) =
        if tblSize gwy t ≤ i then 0 else entryWord (if gwy then s.gwEntry t i else s.ethTblRead t i) k)
  | .fdbAgeing, s =>
    some (fun s' => s' = if s.frozen then s else
      { s with eth := { s.eth with
          learned := s.eth.learned.filter (fun l => decide (s.time < l.seen + s.hm.man.ageing * 1000000000)) } })
  | .frerResetTimer f, s =>
    given (!s.frozen) (fun s' => Tbl.get (fun _ => (0, 0)) s'.eth.frer f = (0, 0) ∧ { s' with eth := s.eth } = s ∧
      ∀ k, k ≠ f.val → Tbl.get (fun _ => (0, 0)) s'.eth.frer k = Tbl.get (fun _ => (0, 0)) s.eth.frer k)
  | _, _ => none

/-! ## Ports (R344, R346, R348, R350, R351) -/

/-- R346, R348: the VLAN, the priority and the bytes without a tag of a received frame. -/
def tagOf (s : State) (p : Nat) (d : List Byte) : Nat × Nat × List Byte :=
  let tci := beNat ((d.drop 14).take 2)
  if frameType d = 0x8100 then
    (if tci % 4096 ≠ 0 then tci % 4096 else bits (s.portCfg p) 11 0, tci / 8192, d.take 12 ++ d.drop 16)
  else (bits (s.portCfg p) 11 0, 0, d)

/-- The commands of the ports: a frame that no MACsec protects arrives or leaves; gates; links. -/
def portRule : Rule
  | .ethernetFrameRx port frame good, s =>
    let p := port.val
    let d := frame.take (frame.length - 4)
    if s.frozen || !s.portUp p then some (fun s' => s' = s)
    else if !good then some (Noted (portPage p + 8) 18 s)
    else if bit (s.portCfg p) 24 then
      given (frameType d != 0x88E5 && bit (s.portCfg p) 23 && !s.bypassed d) (Noted (portPage p + 0x18) 16 s)
    else if d.length + 4 < 64 then some (Noted (portPage p + 8) 17 s)
    else if 9216 < d.length + 4 then some (Noted (portPage p + 8) 16 s)
    else if 4194304 < s.buffered + (d.length + 4) then some (Noted (portPage p + 8) 15 s)
    else
      let x := tagOf s p d
      if s.isMgmt p x.1 x.2.2 || !s.eth.flips.isEmpty then none
      else if !Nat.testBit (s.vlan x.1).1 p then some (fun s' => s' = s)
      else if (s.filterFor p x.2.1 x.1 x.2.2).isSome then none
      else
        let s1 := s.learn x.1 (frameSa x.2.2) p
        let f : EFrame := { port := p, vid := x.1, tc := x.2.1, data := x.2.2, time := s.gtb, sec := false }
        match s1.egressMask p x.1 x.2.2 with
        | [] => some (fun s' => s' = s1)
        | [o] =>
          given (decide (o < 20) && s.portUp o && (decide (12 ≤ o) || !s.neverFits o x.2.1 (x.2.2.length + 4))) (fun s' =>
            waiting s' o x.2.1 = waiting s o x.2.1 ++ [f] ∧ s'.eth.learned = s1.eth.learned ∧
            (∀ k, k ≠ 8 * o + x.2.1 → Tbl.get (fun _ => ([] : List EFrame)) s'.eth.egress k =
              Tbl.get (fun _ => ([] : List EFrame)) s.eth.egress k) ∧ { s' with eth := s.eth } = s)
        | _ => none
  | .ethernetFrameTxDone port, s =>
    let p := port.val
    if s.frozen || !s.portUp p then some (fun s' => s' = s)
    else match ((List.range 8).reverse).find? (fun tc => !(waiting s p tc).isEmpty && s.gateOpen p tc) with
      | none => some (fun s' => s' = s)
      | some tc =>
        match waiting s p tc with
        | [] => none
        | f :: r =>
          let d := if Nat.testBit (s.vlan f.vid).2.1 p || f.plain then f.data
            else f.data.take 12 ++ beBytes 2 0x8100 ++ beBytes 2 (f.tc * 8192 + f.vid) ++ f.data.drop 12
          given (!bit (s.portCfg p) 24 || s.bypassed d) (fun s' =>
            s'.eth.sent = s.eth.sent ++ [(p, d)] ∧ waiting s' p tc = r ∧
            (∀ k, k ≠ 8 * p + tc → Tbl.get (fun _ => ([] : List EFrame)) s'.eth.egress k =
              Tbl.get (fun _ => ([] : List EFrame)) s.eth.egress k) ∧ { s' with eth := s.eth } = s)
  | .gateControlAdvance port, s =>
    let p := port.val
    let a := s.adminSched p
    if s.frozen || s.portFused p then some (fun s' => s' = s)
    else if flag s.eth.change p && decide (a.base ≤ s.gtb) && (a.cycle == 0 || (s.gtb - a.base) % a.cycle == 0) then given s.eth.flips.isEmpty (fun s' =>
      s'.sched p = { a with len := min a.len 256, pos := 0 } ∧ flag s'.eth.change p = false ∧
      bit (s'.reg (portPage p + 0x1C)) 18 = true ∧
      (∀ i, i < 256 → s'.ethEntry 5 (p * 512 + i) = s.ethEntry 5 (p * 512 + 256 + i) ∧
        s'.ethEntry 5 (p * 512 + 256 + i) = s.ethEntry 5 (p * 512 + i)) ∧ NoThread s s')
    else if (s.sched p).len = 0 then some (fun s' => s' = s)
    else some (fun s' =>
      s'.sched p = { s.sched p with pos := ((s.sched p).pos + 1) % (s.sched p).len } ∧ s'.eth.tbl = s.eth.tbl ∧
      (∀ k, k ≠ p → s'.sched k = s.sched k) ∧ { s' with eth := s.eth } = s)
  | .linkChange port rate, s =>
    let p := port.val
    let n := match rate with
      | some r => r.val + 1
      | none => 0
    if s.portFused p then some (fun s' => s' = s)
    else some (fun s' =>
      num s'.eth.links p = n ∧ (∀ k, k ≠ p → num s'.eth.links k = num s.eth.links k) ∧
      (n = 0 → flag s'.eth.pver p = false) ∧
      ((num s.eth.links p = 0 ∧ n ≠ 0) → bit (s'.reg (portPage p + 0x10)) 18 = true) ∧
      ((num s.eth.links p ≠ 0 ∧ n = 0) → bit (s'.reg (portPage p + 0x10)) 17 = true) ∧ NoThread s s')
  | .preemptionVerifyDone port pass, s =>
    let p := port.val
    if !s.frozen && bit (s.portCfg p) 25 && s.portUp p then some (fun s' =>
      flag s'.eth.pver p = pass ∧ bit (s'.reg (portPage p + 0x10)) (if pass then 16 else 15) = true ∧ NoThread s s')
    else some (fun s' => s' = s)
  | _, _ => none

/-! ## Host queue sets (R353 to R356) -/

/-- The doorbells and the descriptors of the host queue sets. -/
def queueRule : Rule
  | .hqTxTailWrite rq q w, s =>
    let g := txRing (768 + q)
    owned s rq (g.reg 3) (768 + q) w (fun s' => s' = s.setReg (g.reg 3) (w &&& 0xFFF))
  | .hqRxTailWrite rq q w, s =>
    let g := rxRing (768 + q)
    owned s rq (g.reg 3) (768 + q) w (fun s' => s' = s.setReg (g.reg 3) (w &&& 0xFFF))
  | .txDescriptorDone q, s =>
    let g := txRing (768 + q)
    if s.frozen || !ringWorks s g || s.domain 14 != .on then some (fun s' => s' = s)
    else if s.domain 19 ≠ .on then some (Woken 19 s)
    else given (noHold s) (fun s' => HeadMoved g s s' ∧ Contexts s s')
  | .rxDescriptorDone q, s =>
    let g := rxRing (768 + q)
    if s.frozen then some (fun s' => s' = s)
    else match arrived s q with
      | [] => some (fun s' => s' = s)
      | f :: r =>
        if !s.ringOn g then some (fun s' => s' = s)
        else if bits (s.reg (g.reg 2)) 23 16 * 64 < f.data.length then some (fun s' =>
          arrived s' q = r ∧ bits (s'.reg (instPage (768 + q) + 0x4C)) 31 16 =
            counted 0xFFFF (bits (s.reg (instPage (768 + q) + 0x4C)) 31 16) ∧ NoThread s s')
        else if !ringWorks s g then some (fun s' => s' = s)
        else if s.domain 19 ≠ .on then some (Woken 19 s)
        else given (noHold s) (fun s' => HeadMoved g s s' ∧ arrived s' q = r ∧ Contexts s s')
  | _, _ => none

/-! ## PCI Express (R363 to R367) -/

/-- The link of a controller. -/
def linkOf (s : State) (c : Nat) : Nat × Nat := Tbl.get (fun _ => (0, 0)) s.pcie.link c

/-- The peer of a function or root port gets a completion. -/
def Completed (st : Nat) (b : List Byte) (s s' : State) : Prop := s' = { s with pcie := { s.pcie with cpl := some (st, false, b) } }

/-- R367: a request that the device does not serve: Unsupported Request for a read, a log entry for a write. -/
def Unsupported (wr : Bool) (s s' : State) : Prop := if wr then Noted 0x104800100C 17 s s' else Completed 1 [] s s'

/-- R21: a request that ends in an error response: Completer Abort for a read, a log entry for a write. -/
def Aborted (wr : Bool) (s s' : State) : Prop := if wr then Noted 0x104800100C 17 s s' else Completed 4 [] s s'

/-- R367: a request with EP set or a bad ECRC. -/
def Discarded (wr : Bool) (s s' : State) : Prop :=
  Noted 0x104800100C 17 s s' ∧ bit (s'.reg 0x104800100C) (if wr then 14 else 15) = true

/-- R363: a vector of a function goes out now: its table entry is sent and its pending bit falls. -/
def vectorGoes (s : State) (f v : Nat) : Bool :=
  !s.pcie.fmask.getLsbD f && !(s.pceMasks f).getLsbD v && s.pcie.bme.getLsbD f && s.pcie.msix.getLsbD f

/-- The pending bits of a function. -/
def vectors (s : State) (f : Nat) : BitVec 16 := Tbl.get (fun _ => (0 : BitVec 16)) s.pcie.pba f

/-- A vector is sent. -/
def Sent (f v : Nat) (s s' : State) : Prop :=
  s'.pcie.sent = s.pcie.sent ++ [Tbl.get (fun _ => (0, 0)) s.pcie.vec (16 * f + v)] ∧ (vectors s' f).getLsbD v = false ∧
  { s' with pcie := s.pcie } = s

/-- What a peer asks. -/
def peerRule (r : PcieReq) (s : State) : Option (State → Prop) :=
  match r with
  | .bar0 f off n wr bad =>
    if !s.pceUp 2 then some (fun s' => s' = s)
    else if bad then some (Discarded wr.isSome s)
    else if n = 0 ∨ 2 ^ s.hm.man.pcieBar0 < off + n ∨ 4096 < n then some (Unsupported wr.isSome s)
    else if !(s.inst (1280 + f)).on || (s.inst (1280 + f)).rst then some (Unsupported wr.isSome s)
    else given (s.domain 19 != .on) (Stalled 19 (.pcie (.bar0 f off n wr bad)) s)
  | .bar2 off n wr =>
    if !s.pceUp 2 then some (fun s' => s' = s)
    else match s.pceHost with
      | none => some (Unsupported wr.isSome s)
      | some h =>
        let m := 64 + h
        if n ≠ 4 ∨ off % 4 ≠ 0 then some (Aborted wr.isSome s)
        else match wr with
          | some b =>
            given (decide (off % 0x400 < 0x100) && ((s.mbx m).st == 0 || (s.mbx m).st == 3) && b.length == 4)
              (fun s' => s' = s.setReg (mbxBase m + off % 0x400) (BitVec.ofNat 32 (leNat b)))
          | none => given (decide (off % 0x400 < 0x300)) (Completed 0 (leBytes 4 (s.reg (mbxBase m + off % 0x400)).toNat) s)
  | .bar4 f off wr =>
    if !s.pceUp 2 then some (fun s' => s' = s)
    else
      let v := off / 16
      let e := Tbl.get (fun _ => (0, 0)) s.pcie.vec (16 * f + v)
      let dest (e' : Nat × Nat) (s' : State) : Prop :=
        Tbl.get (fun _ => (0, 0)) s'.pcie.vec (16 * f + v) = e' ∧ { s' with pcie := s.pcie } = s
      match wr with
      | none => given (decide (off < 0x100) && off % 16 / 4 == 2) (Completed 0 (leBytes 4 e.2) s)
      | some w =>
        if 0x100 ≤ off then some (fun s' => s' = s)
        else if off % 16 / 4 = 0 then some (dest (e.1 / 2 ^ 32 * 2 ^ 32 + w.toNat, e.2))
        else if off % 16 / 4 = 1 then some (dest (w.toNat * 2 ^ 32 + e.1 % 2 ^ 32, e.2))
        else if off % 16 / 4 = 2 then some (dest (e.1, w.toNat))
        else some (fun s' => (s'.pceMasks f).getLsbD v = bit w 0 ∧ { s' with pcie := s.pcie } = s)
  | .root addr n wr bad =>
    if !s.pceUp 1 then some (fun s' => s' = s)
    else if bad then some (Discarded wr.isSome s)
    else if n = 0 ∨ 4096 < n then some (Unsupported wr.isSome s)
    else match wr with
      | some b =>
        let e := 784 + 2 * (leNat b % 16)
        given (s.pceMsiAddr == some addr && n == 4 && decide (addr % 4 = 0)) (fun s' => Signalled e e s s' ∧ NoThread s s')
      | none => given (s.domain 19 != .on) (Stalled 19 (.pcie r) s)
  | .config f bme msix mask flr =>
    if !s.pceUp 2 then some (fun s' => s' = s)
    else given (!flr) (fun s' =>
      s'.pcie.bme.getLsbD f = bme ∧ s'.pcie.msix.getLsbD f = msix ∧ s'.pcie.fmask.getLsbD f = mask ∧
      (∀ k, k ≠ f.val → s'.pcie.bme.getLsbD k = s.pcie.bme.getLsbD k ∧ s'.pcie.msix.getLsbD k = s.pcie.msix.getLsbD k ∧
        s'.pcie.fmask.getLsbD k = s.pcie.fmask.getLsbD k) ∧ { s' with pcie := s.pcie } = s)

/-- The commands of PCI Express. -/
def pcieRule : Rule
  | .pcieInboundRequest r, s => peerRule r s
  | .pcieCompletionTimeout t, s =>
    some (fun s' => OnlyThread t s s' ∧
      s'.th t = match (s.th t).mem with
        | .device r pa none true => { s.th t with mem := .device r pa (some 1) true }
        | _ => s.th t)
  | .pcieLinkDown c, s =>
    if (linkOf s c).1 = 0 then some (fun s' => s' = s)
    else some (fun s' => linkOf s' c = (0, 0) ∧ bit (s'.reg 0x1048001008) 17 = true ∧ Contexts s s')
  | .pcieLinkUp c rate width, s =>
    if s.pceRole c = 0 ∨ s.domain 18 ≠ .on ∨ rate.val = 0 ∨ s.pceFits width.val = false then some (fun s' => s' = s)
    else some (fun s' =>
      linkOf s' c = (rate.val, width.val) ∧ bit (s'.reg 0x1048001008) (if (linkOf s c).1 = 0 then 18 else 16) = true ∧
      (∀ k, k ≠ c.val → linkOf s' k = linkOf s k) ∧ NoThread s s')
  | .pceFnMsiWrite rq f w, s =>
    let v := bits w 3 0
    let pa := instPage (1280 + f) + 0x28
    owned s rq pa (1280 + f) w (fun s' =>
      if f.val = 0 ∧ v = 0 ∧ s.pceHost.isSome = true then s' = s
      else if vectorGoes s f v then Sent f v s s'
      else (vectors s' f).getLsbD v = true ∧ s'.pcie.sent = s.pcie.sent ∧ { s' with pcie := s.pcie } = s)
  | .msiPendingSend f v, s =>
    if !s.frozen && (vectors s f).getLsbD v && vectorGoes s f v then some (Sent f v s)
    else some (fun s' => s' = s)
  | _, _ => none

end Sys2Proof.Rules
end

