-- ==== Sys2Proof/Rules/Power.lean ====
section
/-! DEFINITION. What chapters 18 and 19 give power domains, levels, the arbiter, dips, thermal limits, sleep, resets and start-up. -/

namespace Sys2Proof.Rules

open Sys2Proof.Machine

/-! ## Domains and levels (R395 to R402) -/

/-- The domains' own events. -/
def domainRule : Rule
  | .clusterGate n, s =>
    given (s.domain (2 + n) == .on && decide (1 ≤ s.idleOf (2 + n)) && s.clusterQuiet n) (fun s' =>
      s'.domain (2 + n) = .gated ∧ { s' with dom := s.dom } = s ∧ ∀ d, d ≠ 2 + n.val → s'.domain d = s.domain d)
  | .domainReady d, s =>
    let was := s.domain d
    given (flag s.domReq d && !(decide (2 ≤ d.val) && decide (d.val ≤ 9) && s.clusterFused (d - 2)) && (was == .gated || was == .off) &&
        s.waits.all (fun x => x.1 != d.val && x.1 != 24 && s.domain x.1 != .on))
      (fun s' => s'.domain d = .on ∧ flag s'.domReq d = false ∧ (was = .off → bit (s'.reg 0x104A001008) 18 = true) ∧
        (∀ k, k ≠ d.val → s'.domain k = s.domain k) ∧ NoThread s s')
  | .domainIdleGate d, s =>
    given (s.domain d == .on && decide (1 ≤ s.idleOf d) && s.domIdle d)
      (fun s' => s'.domain d = .gated ∧ { s' with dom := s.dom } = s ∧ ∀ k, k ≠ d.val → s'.domain k = s.domain k)
  | .domainIdleOff d, s =>
    given ((s.domain d == .on || s.domain d == .gated) && s.domMayOff d) (fun s' =>
      s'.domain d = .off ∧ bit (s'.reg 0x104A001008) 17 = true ∧ (∀ k, k ≠ d.val → s'.domain k = s.domain k) ∧
      (∀ a l, domAgent d = some a → l < 2 ^ 34 → (s'.aline a l).st = .I) ∧ NoThread s s')
  | .domainPowerLoss d, s =>
    match domAgent d with
    | some a => given (s.domain d != .off) (fun s' =>
        s'.domain d = .off ∧ bit (s'.reg 0x104A001008) 16 = true ∧ s'.agentDead a = true ∧ Contexts s s')
    | none => some (fun s' => s' = s)
  | .pllLock p, s =>
    some (fun s' => flag s'.pwr.plls p = true ∧ (∀ x ∈ s'.pwr.trans, x.cluster = p.val → x.pll = true) ∧ { s' with pwr := s.pwr } = s)
  | .pmicVgoodRise, s =>
    match s.pwr.frame with
    | none => some (fun s' => s' = s)
    | some _ =>
      let mv := match s.pwr.trans.find? (fun x => x.volt == 2) with
        | some x => s.railFor x.cluster (if x.raise then x.dest else s.levelNow x.cluster)
        | none => s.pwr.rail
      given (!s.pwr.trans.any (fun x => x.volt == 1)) (fun s' => s' = { s with pwr := { s.pwr with
        frame := none, rail := mv, trans := s.pwr.trans.map (fun x => if x.volt = 2 then { x with volt := 3 } else x) } })
  | .voltageStepTimeout, s =>
    match s.pwr.frame with
    | none => some (fun s' => s' = s)
    | some (f, false) => some (fun s' => s' = { s with pwr := { s.pwr with frame := some (f, true) } })
    | some (_, true) =>
      given (!s.pwr.trans.any (fun x => x.volt == 1)) (fun s' =>
        s'.pwr = { s.pwr with
          frame := none, trans := s.pwr.trans.map (fun x => if x.volt = 2 then { x with volt := 4 } else x) } ∧
        s'.log.getLast?.map (fun e => (e.source, e.kind)) = some (0xB, 2) ∧ NoThread s s')
  | _, _ => none

/-- R411, R412: the grants of an epoch in which no level changes: each requester has its floor, floors alone while a dip lasts, and
their sum stays within the pool, or the floors where they exceed it. -/
def Granted (s s' : State) : Prop :=
  let f (r : Nat) : Nat := (s.requester r).f
  let sum (g : Nat → Nat) : Nat := ((List.range 12).map g).foldl (· + ·) 0
  (∀ r, r < 12 → f r ≤ num s'.pwr.grants r) ∧
  (s.pwr.dip ≠ 0 → (∀ r, r < 12 → num s'.pwr.grants r = f r) ∧ s'.pwr.p0 = 0) ∧
  sum (num s'.pwr.grants) ≤ max s.pool (sum f)

/-- The arbiter, dips and thermal limits (R401, R411 to R416). -/
def supplyRule : Rule
  | .arbiterEpoch, s =>
    match s.pwr.trans with
    | [] =>
      given ((List.range 8).all (fun n => !s.clusterUp n || s.levelTarget n == s.levelNow n)) (fun s' =>
        Granted s s' ∧ s'.pwr.now = s.pwr.now ∧ NoThread s s')
    | [x] =>
      given (x.raise && x.pll && (x.volt == 0 || x.volt == 3)) (fun s' => s'.levelNow x.cluster = x.dest ∧ NoThread s s')
    | _ => none
  | .supplyDip soc, s =>
    let recent := s.pwr.dips.filter (fun t => decide (s.time < t + 1000000000))
    let reduce := decide (8 ≤ recent.length) && !s.pwr.reduced
    if s.pwr.dip ≠ 0 then some (fun s' => s' = { s with pwr := { s.pwr with dip := 1 } })
    else some (fun s' =>
      s'.pwr = { s.pwr with
        dip := 1, dipSoc := soc, dipStart := s.time, dips := recent ++ [s.time], p0 := 0, grants := s'.pwr.grants,
        reduced := s.pwr.reduced || reduce } ∧
      (∀ r, r < 12 → num s'.pwr.grants r = (s.requester r).f) ∧
      bit (s'.reg 0x104A00201C) (if soc then 17 else 18) = true ∧ (reduce = true → bit (s'.reg 0x104A00201C) 16 = true) ∧ NoThread s s')
  | .dipRecovery, s =>
    given (s.pwr.dip == 1) (fun s' =>
      s'.pwr = { s.pwr with dip := 2, dipNs := s.time - s.pwr.dipStart } ∧
      s'.reg 0x104A002020 = BitVec.ofNat 32 (min (s.time - s.pwr.dipStart) 0xFFFFFFFF) ∧ NoThread s s')
  | .dipEnd, s =>
    given (s.pwr.dip == 2) (fun s' =>
      s'.pwr = { s.pwr with dip := 0 } ∧ s'.counter 0x40 8 = counted (2 ^ 32 - 1) (s.counter 0x40 8) ∧
      s'.log.getLast?.map (fun e => (e.source, e.kind)) = some (0xB, 1) ∧ NoThread s s')
  | .thermalSample tj, s =>
    let h := hottest (tj.take 12)
    let t := h.1.toInt
    let p := { s.pwr with tj := h.1, sensor := h.2 }
    let limited (l k : Nat) (s' : State) : Prop :=
      s'.pwr = { p with thermal := l, cool := 0, checked := false, p0 := 0 } ∧ bit (s'.reg 0x104A002024) k = true ∧ NoThread s s'
    if s.pwr.shut then some (fun s' => s' = { s with pwr := p })
    else if 135 ≤ t then some (fun s' => s'.pwr = { p with shut := true } ∧ bit (s'.reg 0x104A004000) 23 = true ∧
      ∀ d, d ≠ 0 → s'.domain d = .off)
    else if s.pwr.thermal = 0 then
      (if 115 ≤ t then some (limited 3 18) else some (fun s' => s' = { s with pwr := p }))
    else if 110 ≤ t then some (fun s' => s' = { s with pwr := { p with cool := 0 } })
    else if 999 ≤ s.pwr.cool then some (limited 0 16)
    else some (fun s' => s' = { s with pwr := { p with cool := s.pwr.cool + 1 } })
  | .thermalStage2Check, s =>
    if s.pwr.thermal = 3 ∧ s.pwr.checked = false then
      (if 120 ≤ s.pwr.tj.toInt then some (fun s' =>
         s'.pwr = { s.pwr with checked := true, thermal := 5 } ∧ bit (s'.reg 0x104A002024) 17 = true ∧ NoThread s s')
       else some (fun s' => s' = { s with pwr := { s.pwr with checked := true } }))
    else some (fun s' => s' = s)
  | _, _ => none

/-! ## Sleep (R403 to R410) -/

/-- R405, R407, R408: the device leaves sleep state `k`, woken by a code with its argument. -/
def Leaves (k code arg : Nat) (s' : State) : Prop :=
  s'.pwr.sleep = .leaving k ∧ s'.reg 0x104A003000 = BitVec.ofNat 32 (code + k * 2 ^ 5 + arg % 2 ^ 11 * 2 ^ 16) ∧
  bit (s'.reg 0x104A003004) 18 = true

/-- R405, R407: a wake source asserts: asleep, the device leaves; during entry the lowest code is held; else nothing happens. -/
def wakes (s : State) (code arg : Nat) : State → Prop :=
  match s.pwr.sleep with
  | .asleep k => if s.wakeOn k code then Leaves k code arg else (fun s' => s' = s)
  | .entering k =>
    if s.wakeOn k code then (fun s' => s' = { s with pwr := { s.pwr with heldWake :=
      match s.pwr.heldWake with
      | some w => if code < w.1 then some (code, arg) else some w
      | none => some (code, arg) } })
    else (fun s' => s' = s)
  | _ => (fun s' => s' = s)

/-- Sleep entry and exit, wake sources and the wake port, and LOCKUP_N. -/
def sleepRule : Rule
  | .sleepEntryDone, s =>
    match s.pwr.sleep, s.pwr.heldWake with
    | .entering k, none =>
      if k ≤ 2 then some (fun s' =>
        s'.pwr.sleep = .asleep k ∧ s'.pwr.saved = s.dom ∧ (∀ d, d < 24 → s'.domain d = sleepDom k d (s.domain d)) ∧ NoThread s s')
      else some (fun s' =>
        s'.pwr.sleep = .asleep k ∧ s'.pwr.mask = s.pwr.mask ∧ (∀ d, d ≠ 0 → s'.domain d = .off) ∧ s'.thr = [] ∧
        s'.hm.ready = false ∧ (k = 3 → s'.log = s.log) ∧
        (k = 3 → s.cores.all (fun c => c.2.sb.isEmpty) = true → ∀ a, a < 0x1000000000 → s'.rdByte a = s.rdByte a))
    | .entering k, some w => some (Leaves k w.1 w.2)
    | _, _ => some (fun s' => s' = s)
  | .wakeSourceAssert code arg, s =>
    if 1 ≤ code.val ∧ code.val ≤ 10 then some (wakes s code arg.toNat) else some (fun s' => s' = s)
  | .wakeTimerExpiry, s => if s.reg 0x104A003010 ≠ 0 then some (wakes s 1 0) else some (fun s' => s' = s)
  | .wakePortMatch addr rd byte, s =>
    let c := s.reg 0x104A003008
    if !(bit c 7 && bits c 6 0 == addr.toNat) then some (fun s' => s' = { s with pwr := { s.pwr with wkpBusy := true } })
    else match s.pwr.sleep with
      | .awake =>
        if rd then some (fun s' => s' = { s with pwr := { s.pwr with wkpBusy := true } })
        else some (fun s' => s'.reg 0x104A00300C = BitVec.ofNat 32 byte.toNat ∧ bit (s'.reg 0x104A003004) 17 = true ∧
          s'.pwr = { s.pwr with wkpBusy := true } ∧ NoThread s s')
      | .asleep k => given (s.wakeOn k 2) (fun s' =>
          Leaves k 2 (if rd then 0xFF else byte.toNat) s' ∧ (rd = false → s'.reg 0x104A00300C = BitVec.ofNat 32 byte.toNat))
      | _ => none
  | .wakePortStop, s =>
    some (fun s' =>
      s'.pwr = { s.pwr with wkpBusy := false, wkpNew := none } ∧
      s'.reg 0x104A003008 = s.pwr.wkpNew.getD (s.reg 0x104A003008) ∧ NoThread s s')
  | .pcrWkpCfgWrite rq w, s =>
    given (s.domain 0 == .on && s.guardOk rq) (fun s' =>
      s' = if s.pwr.wkpBusy then { s with pwr := { s.pwr with wkpNew := some (w &&& 0xFF) } } else s.setReg 0x104A003008 (w &&& 0xFF))
  | .sleepExitComplete, s =>
    match s.pwr.sleep with
    | .leaving k =>
      if k ≤ 2 then some (fun s' => s'.pwr.sleep = .awake ∧ s'.dom = s.pwr.saved ∧ s'.dram.sr = false ∧ NoThread s s')
      else given s.hm.ready (fun s' => s'.pwr = { s.pwr with sleep := .awake } ∧ Signalled 1122 1122 s s' ∧ NoThread s s')
    | _ => some (fun s' => s' = s)
  | .t1sWakeSleepRx port wake, s =>
    given (s.pwr.sleep == .awake) (fun s' =>
      if s.portUp (12 + port) then
        bit (s'.reg (portPage (12 + port) + 8 + 4 * 5)) (if wake then 17 else 16) = true ∧ NoThread s s'
      else s' = s)
  | .lockupNMinLowExpiry, s =>
    some (fun s' => s' = { s with
      lockMin := false, lockLow := s.lockLow && s.threads.any (fun t => (s.th t).state == .locked) })
  | _, _ => none

/-! ## Resets (R417 to R420, R437) -/

/-- R420, R437: what every device-wide reset but WARM leaves: the record, no thread, nothing of the harbourmaster, no debug session,
the error log empty, quay SRAM zeroed, flash as it was. -/
def ResetBy (kind cause rail : Nat) (s s' : State) : Prop :=
  let v := s'.reg 0x104A004000
  bits v 31 28 = kind ∧ bits v 27 24 = cause ∧ bits v 13 10 = rail ∧ s'.thr = [] ∧ s'.hm.ready = false ∧ s'.hm.committed = false ∧
  s'.dbgLevel = 0 ∧ s'.log = [] ∧ s'.pending = s.pending ∧
  (∀ a, 0x1000000000 ≤ a → a < 0x1001000000 → s'.rdByte a = 0) ∧ (∀ a, 0x1001000000 ≤ a → s'.rdByte a = s.rdByte a)

/-- R422: start-up has begun: the domains that it powers. -/
def Starts (s' : State) : Prop := s'.hm.boot = 1 ∧ ∀ d ∈ startDomains, s'.domain d = .on

/-- The causes of resets, and where start-up begins. -/
def deviceResetRule : Rule
  | .harbourmasterMismatch, s => given (earlyGood s) (fun s' => ResetBy 3 1 0 s s' ∧ Starts s')
  | .por cause rail, s => some (fun s' =>
      ResetBy 0 cause (if cause.val = 2 then rail.val else 0) s s' ∧ s'.hm.boot = 0 ∧
      s'.gtb = (if cause.val = 1 then 0 else s.gtb) ∧ (cause.val = 1 → bit (s'.reg 0x104A004000) 22 = true))
  | .bor soc, s => some (fun s' => ResetBy 1 (b2n soc) 0 s s' ∧ s'.hm.boot = 0 ∧ s'.gtb = s.gtb)
  | .railMonitorTrip rail, s => some (fun s' => ResetBy 0 2 rail s s' ∧ s'.hm.boot = 0)
  | .pinReset, s => some (fun s' => ResetBy 2 0 0 s s' ∧ s'.hm.boot = 0 ∧ s'.gtb = s.gtb)
  | .pwrGoodRise, s =>
    given (s.hm.boot == 0) (fun s' =>
      Starts s' ∧ s'.hm.warm = false ∧ s'.hm.bootAt = s.time ∧ (earlyGood s = true → NoThread s s') ∧
      (earlyGood s = false → s'.hm.held = true ∧ s'.hm.heldCode = 0x0182 ∧ s'.mem = s.mem))
  | .resetRelease, s =>
    let k := bits (s.reg 0x104A004000) 31 28
    given (s.hm.boot == 0 && (k == 1 || k == 2) && earlyGood s) (fun s' => Starts s' ∧ s'.hm.warm = false ∧ s'.regs = s.regs ∧ NoThread s s')
  | _, _ => none

/-! ## Start-up (R421 to R426, R431, R432, R434) -/

/-- R434: the device is Held with a code: every thread is HELD, the mailboxes are served, the watchdog of berth 0 rests. -/
def HeldWith (code : Nat) (s s' : State) : Prop :=
  s'.hm.held = true ∧ s'.hm.heldCode = code ∧ s'.hm.ready = true ∧ s'.hm.island = false ∧
  (∀ t ∈ s.threads, (s'.th t).state = .held) ∧ (s'.berth 0).wdEn = false ∧
  s'.log.getLast?.map (fun e => (e.source, e.kind)) = some (0x10, 3) ∧ s'.mem = s.mem

/-- R422, R425: the island runs: the watchdog of berth 0 with the manifest's bounds, and the island's threads. -/
def IslandRuns (s s' : State) : Prop :=
  let m := s.hm.man
  s'.hm.island = true ∧ (s'.berth 0).wdEn = true ∧ (s'.berth 0).wdUb = m.ewUb ∧ (s'.berth 0).wdLb = m.ewLb ∧
  (s'.berth 0).elapsed = 0 ∧ s'.patLoaded 0 = 1 ∧ ∀ t ∈ m.ithreads, (s'.th t.gtn).state = .run ∧ (s'.th t.gtn).berth = 0

/-- R432: what takes effect at commit. -/
def Committed (m : Manifest) (s' : State) : Prop :=
  s'.hm.committed = true ∧ s'.hm.man = m ∧ (s'.berth 0).st = .ready ∧ (s'.berth 0).strict = m.b0Strict ∧
  s'.pwr.limit = m.budgetLimit ∧ s'.pwr.allowance = m.allowance ∧ s'.pwr.budget = m.budgetStart ∧
  s'.paired = BitVec.ofNat 8 m.paired ∧ s'.prot = BitVec.ofNat 64 m.prot ∧ s'.dram.gib = m.dramGib ∧ s'.dram.rate = m.dramRate ∧
  s'.reg 0x104A003008 = BitVec.ofNat 32 (m.wakeAddr + b2n m.wakeEn * 128)

/-- Start-up. -/
def startupRule : Rule
  | .earlySegmentAccept, s =>
    let s0 := if s.hm.image.isNone then s.probeFlash else s
    if s.hm.boot == 1 && !s.hm.early && !s.hm.held then
      (if !earlyGood s then some (HeldWith 0x0182 s)
       else if s.hm.image.isNone && s0.flashSize 0 == 0 then some (HeldWith 0x0180 s)
       else match s0.earlyChecks s0.manBytes with
         | .error c => some (HeldWith c s)
         | .ok m =>
           match m.pmicWrites, s0.patchOf m with
           | [], none => some (HeldWith 0x0109 s)
           | [], some _ => some (fun s' =>
               if s.hm.image.isNone ∧ bits (s.reg 0x104A004000) 9 8 = 3 then HeldWith 0x0184 s s'
               else s'.hm.early = true ∧ s'.hm.ready = true ∧ s'.hm.man = m ∧ s'.pwr.rating = m.pmicRating ∧ NoThread s s')
           | _, _ => none)
    else some (fun s' => s' = s)
  | .islandStart, s =>
    if s.hm.early && !s.hm.island && !s.hm.held then
      (match s.vendorImage s.hm.man with
       | none => some (HeldWith 0x010A s)
       | some _ =>
         if s.hm.man.icode.any (fun c => fit 48 (Config.hash 0x11 (s.flashBytes c.1)) != c.2.2) then some (HeldWith 0x010B s)
         else some (IslandRuns s))
    else some (fun s' => s' = s)
  | .manifestCommit, s =>
    if s.hm.island && !s.hm.committed && !s.hm.held then
      (match s.fullChecks s.manBytes s.hm.man with
       | .error c => some (HeldWith c s)
       | .ok m => some (Committed m))
    else some (fun s' => s' = s)
  | .dramTrainingDone good, s =>
    if s.hm.committed && !s.hm.held && !s.hm.trained then
      (if good && (List.range s.channels).any (fun c => num s.checkers (768 + c) != 0) then some (HeldWith 0x0182 s)
       else if good then some (fun s' => s'.hm.trained = true ∧ s'.dram.trained = BitVec.ofNat 8 (2 ^ s.channels - 1) ∧
         s'.dram.sr = false ∧ NoThread s s')
       else some (HeldWith 0x0181 s))
    else some (fun s' => s' = s)
  | .clusterBringUpDone n, s =>
    given (s.hm.committed && !s.hm.held && !s.clusterFused n && !s.clusterLoaded n && (!s.hm.full || s.domain (2 + n) == .on) &&
        (s.clusterCheckers n).all (fun c => num s.checkers (c.1 * 256 + c.2) == 0)) (fun s' =>
      (∀ k, k < 4 → s'.patLoaded (4 * n + k) = 2) ∧ s'.domain (2 + n) = .on ∧
      (∀ c, c / 4 ≠ n.val → s'.patLoaded c = s.patLoaded c) ∧ NoThread s s')
  | .dramZeroingDone c, s =>
    given (s.hm.trained && !s.hm.held && decide (c.val < s.channels) && !s.dram.zeroed.getLsbD c) (fun s' =>
      s'.dram.zeroed.getLsbD c = true ∧ s'.thr = s.thr ∧
      (s.hm.warm = false → ∀ a, a < 0x1000000000 → s.prot.getLsbD (a / 0x40000000) = true → channelOf (a / 64) = c.val →
        s'.rdByte a = 0 ∧ s'.poisoned a = false) ∧
      (∀ a, (0x1000000000 ≤ a ∨ s.hm.warm = true) → s'.rdByte a = s.rdByte a))
  | .fullServiceDeclare, s =>
    given s.mayServe (fun s' =>
      s'.hm.full = true ∧ s'.hm.boot = 2 ∧ s'.dramCap = s.dramInstalled ∧ s'.gw.handover = some s.time ∧
      (∀ n, n < 8 → s'.levelReq n = 1) ∧ bits (s'.reg 0x104A004000) 9 8 = 0 ∧ bit (s'.reg 0x104A004000) 23 = false ∧
      (s'.berth 0).elapsed = 0 ∧ ∀ t ∈ s.hm.man.b0Threads, (s'.th t.gtn).state = .run ∧ (s'.th t.gtn).berth = 0)
  | _, _ => none

end Sys2Proof.Rules
end

