-- ==== Sys2Proof/Rules/Rounding.lean ====
section
/-! DEFINITION. Rounding to nearest, ties to even (R110, R112), said of exact values: how many times the smallest subnormal a finite
encoding stands for. -/

namespace Sys2Proof.Rules

open Sys2Proof.Machine

/-- R109: is an encoding that of a finite number. -/
def isFinite (f : FFmt) (x : Nat) : Prop := x < 2 ^ f.width ∧ x / 2 ^ f.frac % 2 ^ f.expo ≠ 2 ^ f.expo - 1

/-- R109: the value of a finite encoding, in smallest subnormals. -/
def unitsOf (f : FFmt) (x : Nat) : Int :=
  let m := x % 2 ^ f.frac
  let e := x / 2 ^ f.frac % 2 ^ f.expo
  let n : Int := if e = 0 then m else (m + 2 ^ f.frac) * 2 ^ (e - 1)
  if x / 2 ^ (f.frac + f.expo) % 2 = 1 then -n else n

/-- How many smallest subnormals make 1. -/
def unitsOfOne (f : FFmt) : Nat := 2 ^ (2 ^ (f.expo - 1) - 2 + f.frac)

/-- Twice the units of the first magnitude that rounds to infinity. -/
def twiceTop (f : FFmt) : Nat := (2 ^ (f.frac + 2) - 1) * 2 ^ (2 ^ f.expo - 3)

/-- R110, R111: `r` with the overflow flag `over` is the rounding of `v / d` units: infinity where the magnitude is too large, else a
finite encoding that no other is nearer than, and an even one where another is as near. -/
def Nearest (f : FFmt) (v : Int) (d : Nat) (r : Nat × Bool) : Prop :=
  r.2 = decide (d * twiceTop f ≤ 2 * v.natAbs) ∧
  if r.2 then r.1 = (if v < 0 then 2 ^ (f.frac + f.expo) else 0) + (2 ^ f.expo - 1) * 2 ^ f.frac
  else isFinite f r.1 ∧ ∀ z, isFinite f z →
    unitsOf f z = unitsOf f r.1 ∨ (v - d * unitsOf f r.1).natAbs < (v - d * unitsOf f z).natAbs ∨
    ((v - d * unitsOf f r.1).natAbs = (v - d * unitsOf f z).natAbs ∧ r.1 % 2 = 0)

end Sys2Proof.Rules
end

