-- ==== Sys2Proof/Rules/Service.lean ====
section
/-! DEFINITION. What chapters 20 to 22 give the security subsystem, debug, trace and the counters. -/

namespace Sys2Proof.Rules

open Sys2Proof.Machine

/-! ## Security (R438 to R445) -/

/-- R441: the code of each service. -/
def serviceOf : Instr → Option (Req × Fin 16 × Nat)
  | .aesGcmEncrypt rq r => some (rq, r, 0x01)
  | .aesGcmDecrypt rq r => some (rq, r, 0x02)
  | .aesCtr rq r => some (rq, r, 0x03)
  | .aesCmac rq r => some (rq, r, 0x04)
  | .sha256 rq r => some (rq, r, 0x10)
  | .sha384 rq r => some (rq, r, 0x11)
  | .sha512 rq r => some (rq, r, 0x12)
  | .sha3256 rq r => some (rq, r, 0x18)
  | .sha3384 rq r => some (rq, r, 0x19)
  | .sha3512 rq r => some (rq, r, 0x1A)
  | .hmacSha256 rq r => some (rq, r, 0x20)
  | .ecdsaP256Sign rq r => some (rq, r, 0x30)
  | .ecdsaP256Verify rq r => some (rq, r, 0x31)
  | .ecdsaP384Sign rq r => some (rq, r, 0x32)
  | .ecdsaP384Verify rq r => some (rq, r, 0x33)
  | .mlDsa65Verify rq r => some (rq, r, 0x38)
  | .randomBytes rq r => some (rq, r, 0x40)
  | .derive rq r => some (rq, r, 0x48)
  | .unwrap rq r => some (rq, r, 0x49)
  | _ => none

/-- R442: GO takes SHI_Q_OP, the parameters and the input bytes of the segment; a queue in progress ignores it. -/
def goRule : Rule := fun i s =>
  match serviceOf i with
  | none => none
  | some (rq, r, code) =>
    let pg := svcPage r
    let op := s.reg pg
    let n := min (bits op 28 18) 1024
    if s.domain 13 = .on ∧ s.guardOk rq = true ∧ bits op 7 0 = code then
      (if (s.svcQ r).st = 1 then some (fun s' => s' = s)
       else some (fun s' => s' = s.setSvcQ r { s.svcQ r with
         st := 1, op := op, segPar := (List.range 11).map (fun i => s.reg (pg + 0x14 + 4 * i)),
         seg := (wordsBytes ((List.range ((n + 3) / 4)).map (fun i => s.reg (pg + 0x400 + 4 * i)))).take n }))
    else none

/-- R442: the status of a segment that does not run, in the order of the checks. -/
def segmentError (s : State) (r : Nat) : Option Nat :=
  let q := s.svcQ r
  let first := bit q.op 16
  let svc := if first then bits q.op 7 0 else q.svc
  let slot := if first then bits q.op 13 8 else q.slot
  if s.sec.alarm then some 7
  else if !svcKnown (bits q.op 7 0) then some 5
  else if first == q.chain ∨ (!first && bits q.op 7 0 != q.svc) then some 6
  else if 1024 < bits q.op 28 18 ∨ (!bit q.op 17 && svcBlocks svc && decide (q.seg.length % 16 ≠ 0)) then some 4
  else match svcKind svc with
    | some k => if (s.slot slot).kind ≠ k ∨ s.slotUsable slot r = false then some 2 else none
    | none => none

/-- R442: a segment ends with an error status: output zero, the chain closed, DONE and ERR. -/
def SegmentFails (r status : Nat) (s s' : State) : Prop :=
  s'.svcQ r = { st := 2 } ∧ s'.reg (svcPage r + 0x10) = BitVec.ofNat 32 status ∧
  (∀ i, i < 256 → s'.reg (svcPage r + 0x800 + 4 * i) = 0) ∧
  bit (s'.reg (svcPage r + 0xC)) 17 = true ∧ bit (s'.reg (svcPage r + 0xC)) 18 = true ∧ s'.sec.slots = s.sec.slots ∧ NoThread s s'

/-- The security subsystem. -/
def securityRule : Rule
  | .serviceSegmentDone r, s =>
    let q := s.svcQ r
    if q.st ≠ 1 then some (fun s' => s' = s)
    else match segmentError s r with
      | some e => some (SegmentFails r e s)
      | none =>
        let first := bit q.op 16
        let svc := if first then bits q.op 7 0 else q.svc
        let slot := if first then bits q.op 13 8 else q.slot
        let par := if first then q.segPar else q.par
        let input := (if first then [] else q.input) ++ q.seg
        let o := s.svcRun { q with out := r } svc slot par q.segPar input (if first then 0 else q.out) (bit q.op 17)
        if o.status ≠ 0 then some (SegmentFails r o.status s)
        else some (fun s' =>
          (s'.svcQ r).st = 2 ∧ (s'.svcQ r).chain = !bit q.op 17 ∧
          (bit q.op 17 = false → (s'.svcQ r).svc = svc ∧ (s'.svcQ r).slot = slot ∧ (s'.svcQ r).par = par ∧ (s'.svcQ r).input = input) ∧
          s'.reg (svcPage r + 0x10) = BitVec.ofNat 32 (o.out.length * 2 ^ 16) ∧
          (∀ i, i < (bytesWords o.out).length → i < 256 → s'.reg (svcPage r + 0x800 + 4 * i) = (bytesWords o.out).getD i 0) ∧
          bit (s'.reg (svcPage r + 0xC)) 18 = true ∧
          (∀ k key, o.write = some (k, key) → (s'.slot slot).kind = k ∧ (s'.slot slot).key = key) ∧ NoThread s s')
  | .shiQCancel rq r, s =>
    given (s.domain 13 == .on && s.guardOk rq) (fun s' =>
      if (s.svcQ r).chain = true ∨ (s.svcQ r).st = 1 then
        s'.svcQ r = { st := 2 } ∧ s'.reg (svcPage r + 0x10) = 3 ∧ bit (s'.reg (svcPage r + 0xC)) 16 = true ∧ NoThread s s'
      else s' = s)
  | .securityAlarm kind, s =>
    if s.sec.alarm then some (fun s' => s' = s)
    else some (fun s' =>
      s'.sec.alarm = true ∧ (∀ k, s'.slot k = {}) ∧ s'.sec.cert = false ∧
      s'.sec.trngOk = (s.sec.trngOk && kind.val != 2) ∧ bit (s'.reg 0x104D001004) (if kind.val = 2 then 17 else 18) = true ∧
      (∀ r, r < 16 → ((s.svcQ r).st = 1 ∨ (s.svcQ r).chain = true) → s'.svcQ r = { st := 2 } ∧ s'.reg (svcPage r + 0x10) = 7) ∧ NoThread s s')
  | .shiLcReqWrite rq w, s =>
    let dest := bits w 2 0
    given (s.domain 13 == .on) (fun s' =>
      if rq.cls = .debug ∧ 2 ≤ s.dbgLevel ∧ s.lcAllows dest = true then s' = { s with sec := { s.sec with lcNext := dest } }
      else s'.sec = s.sec ∧ bit (s'.reg 0x104D001004) 15 = true ∧ NoThread s s')
  | .shiOtpCmdWrite rq w, s =>
    let a := bits (s.reg 0x104D001014) 9 0
    let v := s.reg 0x104D001018
    given (s.domain 13 == .on) (fun s' =>
      if bit w 0 = false then s' = s
      else if rq.cls = .debug ∧ 2 ≤ s.dbgLevel ∧ otpWritable a s.sec.lc = true ∧ s.otpBurnt a = false ∧ s.otpBelow a v = false then
        s'.otp a = v ∧ s'.otpBurnt a = true ∧ (∀ k, k ≠ a → s'.otp k = s.otp k) ∧ s'.regs = s.regs ∧ NoThread s s'
      else s'.sec = s.sec ∧ bit (s'.reg 0x104D001004) 15 = true ∧ NoThread s s')
  | _, _ => none

/-! ## Debug (R451 to R468) -/

/-- The engine as it becomes `d`. -/
def daeBecomes (s : State) (d : Dae) (s' : State) : Prop := s' = { s with dbg := { s.dbg with dae := d } }

/-- R453: what a read of a register of the engine gives, but for DAE_DATA. -/
def daeRegister (s : State) (reg : Nat) : W32 :=
  let d := s.dbg.dae
  match reg with
  | 0 => 0x0D000100
  | 1 => BitVec.ofNat 32 (b2n d.inc + b2n d.act * 2)
  | 2 => BitVec.ofNat 32 d.addr
  | 3 => BitVec.ofNat 32 (d.addr / 2 ^ 32)
  | 5 => s.daeStat
  | _ => 0

/-- R455: a request to DAE_DATA that starts no access. -/
def dataAnswer (s : State) (w : Option W32) : Option Dae :=
  let d := s.dbg.dae
  if d.busy.isSome then some { d with ack := 6, data := 0 }
  else if d.wrFail then some { d with wrFail := false, ack := 9, data := 0 }
  else match d.result, w with
    | some (some v), none => some { d with result := none, ack := 5, data := v }
    | some none, none => some { d with result := none, ack := 9, data := 0 }
    | _, _ => none

/-- R453, R455, R458: a request to DAE_DATA. -/
def dataRequest (s : State) (w : Option W32) : State → Prop :=
  let d := s.dbg.dae
  match dataAnswer s w with
  | some d => daeBecomes s d
  | none =>
    if s.daeRefused d.addr then daeBecomes s { d with result := none, deny := true, ack := 9, data := 0 }
    else daeBecomes s { d with result := none, busy := some w, ack := if w.isSome then 5 else 6, data := 0 }

/-- R460: a freeze is requested. -/
def Asked (s' : State) : Prop := s'.frzReq = true ∨ s'.frozen = true

/-- R453, R417, R437: the DBG reset that a session asks for; the session and the engine outlive it. -/
def DebugReset (island : Bool) (s s' : State) : Prop :=
  let v := s'.reg 0x104A004000
  bits v 31 28 = 5 ∧ bits v 27 24 = 0 ∧ s'.thr = [] ∧ s'.hm.boot = 1 ∧ (earlyGood s = true → s'.hm.ready = false) ∧ s'.dbgLevel = s.dbgLevel ∧
  s'.dbg.dae.ack = 5 ∧ (island = true → s'.dbg.frzIsland = true) ∧ s'.frozen = false

/-- The engine's requests, while the device is awake. -/
def engineRequestRule : Rule
  | .debugRequest sdp seq reg rd w crcOk, s =>
    let d := s.dbg.dae
    if s.pwr.sleep ≠ .awake then none
    else if sdp then
      (if !crcOk then some (daeBecomes s { d with ack := 0xC, data := 0 })
       else if rd then
         (if reg.val = 4 then some (dataRequest s none) else some (daeBecomes s { d with ack := 5, data := daeRegister s reg }))
       else if d.seq = some seq.val then some (daeBecomes s { d with ack := 5, data := 0 })
       else if reg.val = 2 then some (daeBecomes s { d with addr := d.addr / 2 ^ 32 * 2 ^ 32 + w.toNat / 4 * 4, ack := 5, data := 0, seq := some seq })
       else if reg.val = 3 then some (daeBecomes s { d with addr := bits w 7 0 * 2 ^ 32 + d.addr % 2 ^ 32, ack := 5, data := 0, seq := some seq })
       else none)
    else if s.dbg.ir ≠ 0x10 then some (fun s' => s' = s)
    else if rd && reg.val != 4 then some (fun s' => s' = { s with dbg := { s.dbg with
      dae := { d with ack := 5, data := daeRegister s reg }, dr := BitVec.ofNat 36 ((daeRegister s reg).toNat * 16 + 5) } })
    else none
  | .sdpLineReset, s => some (daeBecomes s { s.dbg.dae with seq := none })
  | .daeDataRead, s => given (s.pwr.sleep == .awake) (dataRequest s none)
  | .daeDataWrite w, s => given (s.pwr.sleep == .awake) (dataRequest s (some w))
  | .daeAccessDone, s =>
    let d := s.dbg.dae
    let pa := d.addr
    let next := if d.inc then (pa + 4) % 2 ^ 40 else pa
    match d.busy with
    | none => some (fun s' => s' = s)
    | some none =>
      (match s.daeTarget pa with
       | .mem => given (s.dram.flips.isEmpty && s.coh.flashOld.isEmpty && noHold s) (fun s' =>
           s'.dbg.dae = { d with
             busy := none, addr := next, result := some (some (BitVec.ofNat 32 (leNat (s.rdBytes pa 4)))),
             psn := d.psn || (s.firstPoison pa 4).isSome } ∧ NoThread s s')
       | .reserved => some (daeBecomes s { d with busy := none, addr := next, result := some none, err := true })
       | .page => none)
    | some (some w) =>
      match s.daeTarget pa with
      | .mem =>
        if s.agentMay pa 4 true then given (noHold s) (fun s' =>
          s'.dbg.dae = { d with busy := none, addr := next, wrFail := false } ∧ s'.rdBytes pa 4 = leBytes 4 w.toNat ∧ BytesKept pa 4 s s')
        else some (daeBecomes s { d with busy := none, addr := next, wrFail := true, err := true })
      | .reserved => some (daeBecomes s { d with busy := none, addr := next, wrFail := true, err := true })
      | .page => none
  | .clrerr, s =>
    given (s.pwr.sleep == .awake)
      (daeBecomes s { s.dbg.dae with deny := false, err := false, off := false, psn := false, ack := 5, data := 0 })
  | .freeze, s =>
    given (s.pwr.sleep == .awake) (fun s' =>
      if s.dbgLevel = 0 then daeBecomes s { s.dbg.dae with deny := true, ack := 9, data := 0 } s'
      else Asked s' ∧ s'.dbg.stepTo = false ∧ s'.dbg.dae.ack = 5 ∧ NoThread s s')
  | .release, s =>
    given (s.pwr.sleep == .awake) (fun s' =>
      if s.dbgLevel = 0 then daeBecomes s { s.dbg.dae with deny := true, ack := 9, data := 0 } s'
      else s'.frozen = false ∧ s'.dbg.dae.ack = 5 ∧ (s.frozen = true → s'.frzReq = false) ∧ Contexts s s' ∧ s'.mem = s.mem)
  | .step g, s =>
    given (s.pwr.sleep == .awake && decide (1 ≤ s.dbgLevel)) (fun s' =>
      s'.dbg.dae.ack = 5 ∧ s'.frozen = false ∧
      (s.frozen = true → s'.dbg.step = some g.val ∧ s'.dbg.stepped = false ∧ s'.dbg.stepTo = false) ∧ Contexts s s' ∧ s'.mem = s.mem)
  | .dbgResetRequest, s => given (s.pwr.sleep == .awake && decide (1 ≤ s.dbgLevel)) (DebugReset false s)
  | .dbgResetFreezeRequest, s => given (s.pwr.sleep == .awake && decide (1 ≤ s.dbgLevel)) (DebugReset true s)
  | _, _ => none

/-- R451, R452: an instruction of the TAP whose data register Capture-DR loads with `dr`. -/
def tapBecomes (s : State) (ir : Nat) (dr : BitVec 36) (s' : State) : Prop :=
  let scanned := decide (3 ≤ s.dbg.ir ∧ s.dbg.ir ≤ 5)
  s' = { s with dbg := { s.dbg with ir := ir, dr := dr, scan := false, scanExit := s.dbg.scanExit || scanned } }

/-- R451, R494: the boundary scan register holds the balls' levels, cell by cell: a fused unit's ball reads low, a GPIO ball its level. -/
def Captured (s s' : State) : Prop :=
  s'.dbg.cells.length = scanBalls.length ∧
  ∀ i b, scanBalls[i]? = some b →
    (s.ballFused b = true → s'.dbg.cells.getD i false = false) ∧
    (s.ballFused b = false → ∀ g, b = .gpio g → s'.dbg.cells.getD i false = flag s.tgp.inp g)

/-- R452: an instruction that hands the balls to scan asks for a freeze first; without a session at level 2 it is BYPASS. -/
def scans (ir : Nat) (s s' : State) : Prop :=
  if s.dbgLevel = 2 then s'.dbg.ir = ir ∧ Asked s' ∧ (s'.dbg.scan = true → s.dbg.scan = true ∨ s.frozen = true) ∧ NoThread s s'
  else tapBecomes s 0x1F 0 s'

/-- Freezes, steps, the context page and the TAP. -/
def debugRule : Rule
  | .stepTimeout, s =>
    given (s.dbg.step.isSome && !s.dbg.stepped) (fun s' =>
      s'.dbg.step = none ∧ s'.dbg.stepTo = true ∧ Asked s' ∧ NoThread s s')
  | .freezeAck, s =>
    given (s.frzReq && !s.frozen && s.pwr.sleep == .awake && s.threadsStopped) (fun s' =>
      s'.frozen = true ∧ s'.dbg.frzAt = s.time ∧ s'.dbg.step = none ∧ (∀ t, (s'.th t).link = none) ∧
      (∀ k, k < 24 → (s'.canOf k).sof = none) ∧ Contexts s s' ∧ s'.mem = s.mem)
  | .dbtCtxHiWrite rq w, s =>
    let t := bits (s.reg 0x104C003000) 9 0
    let item := bits (s.reg 0x104C003000) 25 16
    let v : Word := BitVec.ofNat 36 (bits w 3 0 * 2 ^ 32 + (s.reg 0x104C003004).toNat)
    given (s.domain 21 == .on && rq.cls == .debug) (fun s' =>
      if s.frozen = true ∧ (s.th t).state ≠ .free ∧ 2 ≤ s.dbgLevel then
        s'.dbg.ctxDeny = false ∧ (∀ u, u ≠ t → s'.th u = s.th u) ∧
        (item < 32 → ∀ r : Reg, (s'.th t).ctx.rd r = if r.val = item ∧ item ≠ 0 then v else (s.th t).ctx.rd r) ∧
        (item = 0x20 → ∀ p : PReg, p ≠ 0 → (s'.th t).ctx.rdP p = bit v p) ∧
        (item = 0x21 → (s'.th t).ctx.pc = v &&& 0xF_FFFF_FFFC#36) ∧
        (item = 0x110 → (s'.th t).ctx.sysr 0x10 = v &&& BitVec.ofNat 36 (srnMask 0x10)) ∧ s'.mem = s.mem
      else s' = { s with dbg := { s.dbg with ctxDeny := true } })
  | .idcode, s => some (tapBecomes s 1 0x1094005F)
  | .samplePreload, s =>
    some (fun s' => Captured s s' ∧ tapBecomes s 2 0 { s' with free := s.free, dbg := { s'.dbg with cells := s.dbg.cells } })
  | .extest, s => some (fun s' => (s.dbgLevel = 2 → Captured s s') ∧ scans 3 s s')
  | .clamp, s => some (scans 4 s)
  | .highz, s => some (scans 5 s)
  | .dbgacc, s => some (tapBecomes s 0x10 (BitVec.ofNat 36 (s.dbg.dae.data.toNat * 16 + s.dbg.dae.ack)))
  | .bypass, s => some (tapBecomes s 0x1F 0)
  | .tapReset, s => some (tapBecomes s 1 0x1094005F)
  | .scanExitReset, s =>
    if s.dbg.scanExit then some (fun s' =>
      bits (s'.reg 0x104A004000) 31 28 = 5 ∧ s'.thr = [] ∧ s'.hm.boot = 1 ∧ s'.dbgLevel = s.dbgLevel ∧ s'.dbg.scanExit = false)
    else some (fun s' => s' = s)
  | _, _ => none

/-! ## Trace (R469 to R477) -/

/-- The bytes that a trace unit carries (R475). -/
def unitBytes (u : List Byte) : List Byte := (u.drop 2).take (u.getD 1 0).toNat

/-- The bytes of encoder `c` on their way to the trace port, oldest first: its units, then what no unit holds yet. -/
def traceStream (s : State) (c : Nat) : List Byte :=
  (s.trc.port.filter (fun u => u.getD 0 0 == BitVec.ofNat 8 c)).flatMap unitBytes ++ (s.enc c).buf

/-- Encoder `c` puts out `p` for the port. -/
def PutsOut (c : Nat) (p : List Byte) (s s' : State) : Prop :=
  traceStream s' c = traceStream s c ++ p ∧ (s'.enc c).lost = 0 ∧ (∀ k, k < 32 → k ≠ c → s'.enc k = s.enc k) ∧ NoThread s s'

/-- Has encoder `c` room for `n` bytes towards the port (R473). -/
def traceRoom (s : State) (c n : Nat) : Bool :=
  decide (2 ≤ s.sinks) && !bit (s.reg sinkPage) 0 && s.trc.units.isEmpty && (s.enc c).lost == 0 && decide (s.encHeld c + n ≤ 512)

/-- R471: a TS packet. -/
def tsPacket (s : State) : List Byte := [(0x02 : Byte)] ++ vlq 10 s.gtb ++ vlq 3 (s.gtbFrac / 65536)

/-- Trace. -/
def traceRule : Rule
  | .flowAtomTimeout t, s =>
    let c := t.val / 32
    let l := Tbl.get (fun _ => ([] : List Bool)) (s.enc c).atoms t
    let cyc := (s.core c).cycle - (s.enc c).last
    if l = [] then some (fun s' => s' = s)
    else
      let p := [BitVec.ofNat 8 (4 + (l.length - 1) * 16), BitVec.ofNat 8 (t % 32)] ++ vlq 5 cyc ++ atomBytes l
      given (traceRoom s c p.length && !(s.enc c).tsNext && decide (cyc ≤ 2 ^ 21 - 1)) (fun s' =>
        PutsOut c p s s' ∧ Tbl.get (fun _ => ([] : List Bool)) (s'.enc c).atoms t = [])
  | .tsInterval core, s =>
    if (s.enc core).armed then given (traceRoom s core (tsPacket s).length) (PutsOut core (tsPacket s) s)
    else some (fun s' => s' = s)
  | .traceOverflowRecover core, s =>
    let e := s.enc core
    given (decide (e.lost ≠ 0) && decide (2 ≤ s.sinks) && !bit (s.reg sinkPage) 0 && s.trc.units.isEmpty && decide (s.encHeld core ≤ 384))
      (PutsOut core ([(8 : Byte)] ++ vlq 5 e.lost ++ tsPacket s) s)
  | .traceUnitTimeout core, s =>
    given (decide (2 ≤ s.sinks) && !bit (s.reg sinkPage) 0 && decide ((s.enc core).buf.length ≤ 512)) (fun s' =>
      (s'.enc core).buf = [] ∧ traceStream s' core = traceStream s core ∧ NoThread s s')
  | .traceSinkLineWrite, s =>
    let size := bits (s.reg (sinkPage + 0xC)) 16 0 * 0x1000
    let base := (s.reg (sinkPage + 4)).toNat + (s.reg (sinkPage + 8)).toNat * 2 ^ 32
    let w := (s.reg (sinkPage + 0x10)).toNat
    let r := takeUnits 4 s.trc.rr s.trc.units
    let line := r.1.flatten ++ (List.replicate (4 - r.1.length) ([(0x3F : Byte)] ++ List.replicate 15 0)).flatten
    if bit (s.reg sinkPage) 0 && !s.trc.full && s.trc.units != [] && size != 0 && s.agentMay (base + w) 64 true then
      given (s.trc.units.all (fun u => u.length == 16) && noHold s) (fun s' =>
        s'.rdBytes (base + w) 64 = line ∧ BytesKept (base + w) 64 s s' ∧ s'.trc.units = r.2.2 ∧ Contexts s s' ∧
        (if w + 64 < size then s'.reg (sinkPage + 0x10) = BitVec.ofNat 32 (w + 64) ∧ s'.trc.full = false
         else if bit (s.reg sinkPage) 2 then s'.reg (sinkPage + 0x10) = 0 ∧ bit (s'.reg (sinkPage + 0x18)) 16 = true ∧ s'.trc.full = false
         else s'.trc.full = true ∧ bit (s'.reg (sinkPage + 0x18)) 17 = true))
    else some (fun s' => s' = s)
  | .align, s =>
    let cfg := s.reg (sinkPage + 0x20)
    let n := s.trc.rounds + 1024
    if bit cfg 31 then some (fun s' => s' = { s with trc := { s.trc with
      rounds := n, port := [],
      lanes := (List.range (2 ^ bits cfg 1 0)).map (fun l => [(0x78 : Byte), BitVec.ofNat 8 l] ++ leBytes 3 n ++ [0, 0, 0]) } })
    else some (fun s' => s' = s)
  | _, _ => none

/-! ## Counters (R479 to R491) -/

/-- Counters, snapshots, samples and histograms. -/
def counterRule : Rule
  | .cntClr rq u, s =>
    given (s.domain 10 == .on) (fun s' =>
      if s.cntAbsent u then s' = s
      else if s.cntServes rq u = true then (∀ i, i < 16 → s'.cntVal u i = 0) ∧
        (∀ k, k / 16 ≠ u.val → num s'.perf.val k = num s.perf.val k) ∧ { s' with perf := s.perf } = s
      else bit (s'.reg (frameOf (cntPage u) + 0xC)) 18 = true ∧ (∀ i, i < 16 → u.val < 65 → s'.cntVal u i = s.cntVal u i) ∧ NoThread s s')
  | .cntLoRead rq u i, s =>
    given (s.domain 10 == .on && !s.cntAbsent u && s.cntServes rq u && decide (i.val < cntCount u)) (fun s' =>
      s'.rdata = BitVec.ofNat 32 (s.cntVal u i) ∧ s'.perf = s.perf ∧ NoThread s s' ∧
      s'.reg (cntPage u + 0x84 + 8 * i) =
        (if rq.peek then s.reg (cntPage u + 0x84 + 8 * i) else BitVec.ofNat 32 (s.cntVal u i / 2 ^ 32)))
  | .counterWrap u i, s =>
    given (decide (i.val < cntCount u) && s.cntVal u i == 2 ^ 48 - 1 && !s.cntAbsent u) (fun s' =>
      s'.cntVal u i = 0 ∧ flag s'.perf.w (16 * u + i) = true ∧ bit (s'.reg (cntPage u + 8)) 18 = true ∧
      (∀ k, k ≠ 16 * u.val + i.val → num s'.perf.val k = num s.perf.val k) ∧ NoThread s s')
  | .snapshotCapture, s =>
    given (s.perf.armed && decide (s.perf.at_ ≤ s.gtb)) (fun s' =>
      s'.perf.armed = false ∧ s'.perf.gather = true ∧ s'.perf.shadow = s.perf.val ∧ s'.perf.wShadow = s.perf.w ∧ s'.perf.w = [] ∧
      s'.perf.val = s.perf.val ∧ (∀ u, u < 75 → (s'.capStatus u).1 = s.cntStatus u) ∧
      (∀ h i, h < 8 → i < 32 → num s'.perf.hist (32 * h + i) = (s.reg (0x104B002080 + h * 0x1000 + 4 * i)).toNat) ∧ NoThread s s')
  | .snapshotTableDone, s =>
    if s.perf.gather then given (noHold s) (fun s' =>
      s'.perf.gather = false ∧ s'.perf.seq = (s.perf.seq + 1) % 4096 ∧ bit (s'.reg 0x104B001018) 18 = true ∧ Contexts s s' ∧
      (s.agentDead 10 = false → (∀ i, i < (s.rowTable.length + 63) / 64 → s.agentMay (s.rowTbl + 64 * i) 64 true = true) →
        s'.rdBytes s.rowTbl s.rowTable.length = s.rowTable ∧ BytesKept s.rowTbl s.rowTable.length s s'))
    else some (fun s' => s' = s)
  | .smpAck rq u w, s =>
    let x := s.smp u
    let n := (bits w 5 0 + 64 - x.get) % 64
    given (s.domain 10 == .on && !s.cntAbsent u && s.cntServes rq u)
      (fun s' => s' = if n ≤ x.held then s.setSmp u { x with get := bits w 5 0, held := x.held - n } else s)
  | .smpCfgWrite rq u w, s =>
    given (s.domain 10 == .on && !s.cntAbsent u && s.cntServes rq u) (fun s' =>
      s'.reg (smpPage u) = w &&& 0xBF01FFFF ∧
      (bit w 31 = true → s'.reg (smpPage u + 0xC) = 0 ∧ max 1 (bits w 15 0) ≤ (s'.smp u).down ∧
        (bit w 16 = false → (s'.smp u).down = max 1 (bits w 15 0))) ∧
      (bit w 31 = false → s'.perf = s.perf) ∧ NoThread s s')
  | .histClr rq h, s =>
    given (s.domain 10 == .on && s.guardOk rq) (fun s' =>
      (∀ i, i < 32 → s'.reg (histPage h + 0x80 + 4 * i) = 0) ∧ s'.reg (histPage h + 0x10) = 0 ∧ { s' with regs := s.regs } = s)
  | _, _ => none

end Sys2Proof.Rules
end

