-- ==== Sys2Proof/Rules/Arithmetic.lean ====
section
/-! DEFINITION. What chapter 04 gives each command of the A and B units: the register, predicate and flag it writes, by the
context as it stood before the bundle. -/

namespace Sys2Proof.Rules

open Sys2Proof.Machine

/-! ## Integer operations (R94 to R108) -/

/-- A register result of a two-source syllable. -/
def two (t : Gtn) (q : Pred) (iv : Nat) (rd ra rb : Reg) (f : Word → Word → Word) : Option Effect :=
  some { t := t, q := q, iv := iv, regs := fun c => [(rd.val, f (c.rd ra) (c.rd rb))] }

/-- A register result of a syllable with an immediate. -/
def withImm (t : Gtn) (q : Pred) (iv : Nat) (rd ra : Reg) (i : Word) (f : Word → Word → Word) : Option Effect :=
  some { t := t, q := q, iv := iv, regs := fun c => [(rd.val, f (c.rd ra) i)] }

/-- A register result of a one-source syllable. -/
def one (t : Gtn) (q : Pred) (rd ra : Reg) (f : Word → Word) : Option Effect :=
  some { t := t, q := q, iv := 4, regs := fun c => [(rd.val, f (c.rd ra))] }

/-- R95: the shifts by bits [5:0] of the second operand. -/
def shlBy (x y : Word) : Word := BitVec.ofNat 36 (x.toNat * 2 ^ (y.toNat % 64))
def shrBy (x y : Word) : Word := BitVec.ofNat 36 (x.toNat / 2 ^ (y.toNat % 64))
def sraBy (x y : Word) : Word := BitVec.ofInt 36 (x.toInt / 2 ^ (y.toNat % 64))

/-- R95: what the operations that wrap write. -/
def wrapRow : Instr → Option Effect
  | .add t q rd ra rb => two t q 4 rd ra rb (fun x y => x + y)
  | .sub t q rd ra rb => two t q 4 rd ra rb (fun x y => x - y)
  | .and t q rd ra rb => two t q 4 rd ra rb (fun x y => x &&& y)
  | .or t q rd ra rb => two t q 4 rd ra rb (fun x y => x ||| y)
  | .xor t q rd ra rb => two t q 4 rd ra rb (fun x y => x ^^^ y)
  | .andn t q rd ra rb => two t q 4 rd ra rb (fun x y => x &&& ~~~y)
  | .shl t q rd ra rb => two t q 4 rd ra rb shlBy
  | .shr t q rd ra rb => two t q 4 rd ra rb shrBy
  | .sra t q rd ra rb => two t q 4 rd ra rb sraBy
  | .min t q rd ra rb => two t q 4 rd ra rb (fun x y => if x.toInt < y.toInt then x else y)
  | .max t q rd ra rb => two t q 4 rd ra rb (fun x y => if x.toInt < y.toInt then y else x)
  | .minu t q rd ra rb => two t q 4 rd ra rb (fun x y => if x.toNat < y.toNat then x else y)
  | .maxu t q rd ra rb => two t q 4 rd ra rb (fun x y => if x.toNat < y.toNat then y else x)
  | _ => none

/-- R94: what the operations of a register and an immediate write; R105: the bit fields. -/
def immediateRow : Instr → Option Effect
  | .addi t q rd ra i => withImm t q 4 rd ra i (fun x y => x + y)
  | .andi t q rd ra i => withImm t q 4 rd ra i (fun x y => x &&& y)
  | .ori t q rd ra i => withImm t q 4 rd ra i (fun x y => x ||| y)
  | .xori t q rd ra i => withImm t q 4 rd ra i (fun x y => x ^^^ y)
  | .shli t q rd ra i => withImm t q 4 rd ra i shlBy
  | .shri t q rd ra i => withImm t q 4 rd ra i shrBy
  | .srai t q rd ra i => withImm t q 4 rd ra i sraBy
  | .rsubi t q rd ra i => withImm t q 4 rd ra i (fun x y => y - x)
  | .mini t q rd ra i => withImm t q 4 rd ra i (fun x y => if x.toInt < y.toInt then x else y)
  | .maxi t q rd ra i => withImm t q 4 rd ra i (fun x y => if x.toInt < y.toInt then y else x)
  | .minui t q rd ra i => withImm t q 4 rd ra i (fun x y => if x.toNat < y.toNat then x else y)
  | .maxui t q rd ra i => withImm t q 4 rd ra i (fun x y => if x.toNat < y.toNat then y else x)
  | .bfx t q rd ra pos wm1 =>
    if pos < 36 then one t q rd ra (fun x => BitVec.ofNat 36 (x.toNat / 2 ^ pos % 2 ^ (wm1.val + 1))) else none
  | .bfi t q rd ra pos wm1 =>
    let w := min (wm1.val + 1) (36 - pos)
    if pos < 36 then
      some { t := t, q := q, iv := 4, regs := fun c =>
        [(rd.val, BitVec.ofNat 36 ((c.rd rd).toNat - (c.rd rd).toNat / 2 ^ pos % 2 ^ w * 2 ^ pos + (c.rd ra).toNat % 2 ^ w * 2 ^ pos))] }
    else none
  | _ => none

/-- R96, R106: what the extensions and the counts of leading bits write. -/
def oneSourceRow : Instr → Option Effect
  | .sxB t q rd ra => one t q rd ra (fun x => (x.setWidth 8).signExtend 36)
  | .sxH t q rd ra => one t q rd ra (fun x => (x.setWidth 16).signExtend 36)
  | .sxW t q rd ra => one t q rd ra (fun x => (x.setWidth 32).signExtend 36)
  | .zxB t q rd ra => one t q rd ra (fun x => (x.setWidth 8).setWidth 36)
  | .zxH t q rd ra => one t q rd ra (fun x => (x.setWidth 16).setWidth 36)
  | .zxW t q rd ra => one t q rd ra (fun x => (x.setWidth 32).setWidth 36)
  | .clz t q rd ra => one t q rd ra (fun x => if x = 0 then 36 else BitVec.ofNat 36 (35 - x.toNat.log2))
  | .clzW t q rd ra => one t q rd ra (fun x =>
      if x.toNat % 2 ^ 32 = 0 then 32 else BitVec.ofNat 36 (31 - (x.toNat % 2 ^ 32).log2))
  | .cls t q rd ra => one t q rd ra (fun x =>
      let y := if x.toInt < 0 then ~~~x else x
      if y = 0 then 35 else BitVec.ofNat 36 (34 - y.toNat.log2))
  | _ => none

/-- R97: a saturation to `lo` to `hi`. -/
def satRow1 (t : Gtn) (q : Pred) (rd ra : Reg) (lo hi : Int) : Option Effect :=
  some { t := t, q := q, iv := 4, regs := fun c => [(rd.val, BitVec.ofInt 36 (max lo (min hi (c.rd ra).toInt)))],
         sov := fun c => decide ((c.rd ra).toInt < lo ∨ hi < (c.rd ra).toInt) }

/-- R97. -/
def saturationRow : Instr → Option Effect
  | .satB t q rd ra => satRow1 t q rd ra (-128) 127
  | .satBu t q rd ra => satRow1 t q rd ra 0 255
  | .satH t q rd ra => satRow1 t q rd ra (-32768) 32767
  | .satHu t q rd ra => satRow1 t q rd ra 0 65535
  | .satW t q rd ra => satRow1 t q rd ra (-(2 ^ 31)) (2 ^ 31 - 1)
  | .satWu t q rd ra => satRow1 t q rd ra 0 (2 ^ 32 - 1)
  | _ => none

/-- R99: the pair result form of an exact result with the carry of its low-half addition. -/
def pairOf (rd : Reg) (e : Int) (carry : Bool) : List (Nat × Word) :=
  [(rd.val, BitVec.ofNat 36 ((e % 2 ^ 32).toNat + (if carry then 2 ^ 32 else 0))), (rd.val + 1, BitVec.ofInt 36 (e / 2 ^ 32))]

/-- R99: the halves of a source pair, and the 64-bit value they hold. -/
def lowHalf (c : Ctx) (r : Reg) : Nat := (c.rd r).toNat % 2 ^ 32
def unsignedPair (c : Ctx) (r : Reg) : Int := ((lowHalf c r + (c.rd (r.val + 1)).toNat % 2 ^ 32 * 2 ^ 32 : Nat) : Int)
def signedPair (c : Ctx) (r : Reg) : Int :=
  if 2 ^ 63 ≤ unsignedPair c r then unsignedPair c r - 2 ^ 64 else unsignedPair c r

/-- R100, R102: a pair as a 68-bit accumulator. -/
def widePair (c : Ctx) (r : Reg) : Int := (c.rd (r.val + 1)).toInt * 2 ^ 32 + lowHalf c r

/-- R78: does a register name a pair. -/
def namesPair (r : Reg) : Bool := r.val % 2 == 0 && r.val != 0

/-- R99, R100: the pair operations, where every pair field names a pair. -/
def pairRow : Instr → Option Effect
  | .addP t q rd ra rb => if namesPair rd && namesPair ra && namesPair rb then
      some { t := t, q := q, iv := 4, regs := fun c => pairOf rd (signedPair c ra + signedPair c rb) (decide (2 ^ 32 ≤ lowHalf c ra + lowHalf c rb)) } else none
  | .subP t q rd ra rb => if namesPair rd && namesPair ra && namesPair rb then
      some { t := t, q := q, iv := 4, regs := fun c => pairOf rd (signedPair c ra - signedPair c rb) (decide (lowHalf c rb ≤ lowHalf c ra)) } else none
  | .addPu t q rd ra rb => if namesPair rd && namesPair ra && namesPair rb then
      some { t := t, q := q, iv := 4, regs := fun c => pairOf rd (unsignedPair c ra + unsignedPair c rb) (decide (2 ^ 32 ≤ lowHalf c ra + lowHalf c rb)) } else none
  | .subPu t q rd ra rb => if namesPair rd && namesPair ra && namesPair rb then
      some { t := t, q := q, iv := 4, regs := fun c => pairOf rd (unsignedPair c ra - unsignedPair c rb) (decide (lowHalf c rb ≤ lowHalf c ra)) } else none
  | .satP t q rd ra => if namesPair rd && namesPair ra then
      some { t := t, q := q, iv := 4, regs := fun c => pairOf rd (max (-(2 ^ 63)) (min (2 ^ 63 - 1) (widePair c ra))) false,
             sov := fun c => decide (widePair c ra < -(2 ^ 63) ∨ 2 ^ 63 ≤ widePair c ra) } else none
  | _ => none

/-- R101: the products. -/
def productRow : Instr → Option Effect
  | .mul t q rd ra rb => two t q 6 rd ra rb (fun x y => BitVec.ofNat 36 (x.toNat * y.toNat))
  | .muli t q rd ra i => withImm t q 6 rd ra i (fun x y => BitVec.ofNat 36 (x.toNat * y.toNat))
  | .mulWp t q rd ra rb => if namesPair rd then
      some { t := t, q := q, iv := 6, regs := fun c => pairOf rd (((c.rd ra).setWidth 32).toInt * ((c.rd rb).setWidth 32).toInt) false } else none
  | .mulWpu t q rd ra rb => if namesPair rd then
      some { t := t, q := q, iv := 6, regs := fun c => pairOf rd ((lowHalf c ra : Int) * lowHalf c rb) false } else none
  | _ => none

/-- R102: the products that are added to an accumulator. -/
def accumulateRow : Instr → Option Effect
  | .macH t q rd ra rb => some { t := t, q := q, iv := 6, regs := fun c =>
      [(rd.val, c.rd rd + BitVec.ofInt 36 (((c.rd ra).setWidth 16).toInt * ((c.rd rb).setWidth 16).toInt))] }
  | .macHu t q rd ra rb => some { t := t, q := q, iv := 6, regs := fun c =>
      [(rd.val, c.rd rd + BitVec.ofNat 36 ((c.rd ra).toNat % 2 ^ 16 * ((c.rd rb).toNat % 2 ^ 16)))] }
  | .macP t q rd ra rb => if namesPair rd then
      some { t := t, q := q, iv := 6, regs := fun c =>
        let p := ((c.rd ra).setWidth 32).toInt * ((c.rd rb).setWidth 32).toInt
        pairOf rd (widePair c rd + p) (decide (2 ^ 32 ≤ (lowHalf c rd : Int) + p % 2 ^ 32)) } else none
  | _ => none

/-- R107: byte `i` of what BPERM builds from the data, the old destination and the selector. -/
def permutedByte (a d b : Word) (i : Nat) : Nat :=
  let byte (x : Word) (k : Nat) : Nat := x.toNat / 2 ^ (8 * k) % 256
  let k := b.toNat / 2 ^ (4 * i) % 16
  if k < 4 then byte a k
  else if k < 8 then byte d (k - 4)
  else if k = 9 then 0xFF
  else if 0xA ≤ k ∧ k ≤ 0xD then (if 128 ≤ byte a (k - 0xA) then 0xFF else 0)
  else 0

/-- R107. -/
def permuted (a d b : Word) : Word :=
  let v : W32 := BitVec.ofNat 32 (permutedByte a d b 0 + permutedByte a d b 1 * 2 ^ 8 + permutedByte a d b 2 * 2 ^ 16 +
    permutedByte a d b 3 * 2 ^ 24)
  if b.getLsbD 16 then v.signExtend 36 else v.setWidth 36

/-- R107. -/
def permuteRow : Instr → Option Effect
  | .bperm t q rd ra rb => some { t := t, q := q, iv := 4, regs := fun c => [(rd.val, permuted (c.rd ra) (c.rd rd) (c.rd rb))] }
  | _ => none

/-- R108: a compare writes PD, and with C the inverse to PD XOR 1. -/
def compareTo (t : Gtn) (q : Pred) (c : Bool) (pd : PReg) (ra : Reg) (b : Opnd) (f : Word → Word → Bool) : Option Effect :=
  some { t := t, q := q, iv := 4, preds := fun k =>
    let y := match b with
      | .reg rb => k.rd rb
      | .imm i => i
    let v := f (k.rd ra) y
    (pd.val, v) :: (if c then [(if pd.val % 2 = 0 then pd.val + 1 else pd.val - 1, !v)] else []) }

/-- R108. -/
def compareRow : Instr → Option Effect
  | .eq t q c pd ra b => compareTo t q c pd ra b (fun x y => x == y)
  | .ne t q c pd ra b => compareTo t q c pd ra b (fun x y => x != y)
  | .lt t q c pd ra b => compareTo t q c pd ra b (fun x y => decide (x.toInt < y.toInt))
  | .ge t q c pd ra b => compareTo t q c pd ra b (fun x y => decide (x.toInt ≥ y.toInt))
  | .le t q c pd ra b => compareTo t q c pd ra b (fun x y => decide (x.toInt ≤ y.toInt))
  | .gt t q c pd ra b => compareTo t q c pd ra b (fun x y => decide (x.toInt > y.toInt))
  | .ltu t q c pd ra b => compareTo t q c pd ra b (fun x y => decide (x.toNat < y.toNat))
  | .geu t q c pd ra b => compareTo t q c pd ra b (fun x y => decide (x.toNat ≥ y.toNat))
  | .leu t q c pd ra b => compareTo t q c pd ra b (fun x y => decide (x.toNat ≤ y.toNat))
  | .gtu t q c pd ra b => compareTo t q c pd ra b (fun x y => decide (x.toNat > y.toNat))
  | .tst t q c pd ra b => compareTo t q c pd ra b (fun x y => x &&& y != 0)
  | .ntst t q c pd ra b => compareTo t q c pd ra b (fun x y => x &&& y == 0)
  | _ => none

/-! ## Floating point (R109 to R115) -/

/-- R109: a source in its format. -/
def operand (f : FFmt) (c : Ctx) (r : Reg) : Nat := (c.rd r).toNat % 2 ^ f.width

/-- An operation of format `f` on RA and RB (R112), its result with zeros above, and ST.SOV when it signals (R111). -/
def floatTwo (t : Gtn) (q : Pred) (rd ra rb : Reg) (f : FFmt) (op : Nat → Nat → Nat × Bool) : Option Effect :=
  some { t := t, q := q, iv := 8, regs := fun c => [(rd.val, BitVec.ofNat 36 (op (operand f c ra) (operand f c rb)).1)],
         sov := fun c => (op (operand f c ra) (operand f c rb)).2 }

/-- FMA of format `f` (R112). -/
def floatFma (t : Gtn) (q : Pred) (rd ra rb : Reg) (f : FFmt) : Option Effect :=
  some { t := t, q := q, iv := 8,
         regs := fun c => [(rd.val, BitVec.ofNat 36 (fFma f (operand f c ra) (operand f c rb) (operand f c rd)).1)],
         sov := fun c => (fFma f (operand f c ra) (operand f c rb) (operand f c rd)).2 }

/-- An operation on RA alone that writes bits and never sets ST.SOV (R110, R114). -/
def floatBits (t : Gtn) (q : Pred) (rd ra : Reg) (f : FFmt) (op : Nat → Nat) : Option Effect :=
  some { t := t, q := q, iv := 8, regs := fun c => [(rd.val, BitVec.ofNat 36 (op (operand f c ra)))] }

/-- A conversion from format `f` (R113). -/
def floatFrom (t : Gtn) (q : Pred) (rd ra : Reg) (f : FFmt) (op : Nat → Nat × Bool) : Option Effect :=
  some { t := t, q := q, iv := 8, regs := fun c => [(rd.val, BitVec.ofNat 36 (op (operand f c ra)).1)],
         sov := fun c => (op (operand f c ra)).2 }

/-- A conversion to an integer of range `lo` to `hi` (R113). -/
def floatToInt (t : Gtn) (q : Pred) (rd ra : Reg) (nearest : Bool) (lo hi : Int) : Option Effect :=
  some { t := t, q := q, iv := 8,
         regs := fun c => [(rd.val, BitVec.ofInt 36 (fConvInt fmtS nearest lo hi (operand fmtS c ra)).1)],
         sov := fun c => (fConvInt fmtS nearest lo hi (operand fmtS c ra)).2 }

/-- R110, R112 to R114. -/
def floatRow : Instr → Option Effect
  | .faddS t q rd ra rb => floatTwo t q rd ra rb fmtS (fAdd fmtS)
  | .fsubS t q rd ra rb => floatTwo t q rd ra rb fmtS (fSub fmtS)
  | .fmulS t q rd ra rb => floatTwo t q rd ra rb fmtS (fMul fmtS)
  | .fminS t q rd ra rb => floatTwo t q rd ra rb fmtS (fMinMax fmtS false)
  | .fmaxS t q rd ra rb => floatTwo t q rd ra rb fmtS (fMinMax fmtS true)
  | .fmaS t q rd ra rb => floatFma t q rd ra rb fmtS
  | .faddH t q rd ra rb => floatTwo t q rd ra rb fmtH (fAdd fmtH)
  | .fsubH t q rd ra rb => floatTwo t q rd ra rb fmtH (fSub fmtH)
  | .fmulH t q rd ra rb => floatTwo t q rd ra rb fmtH (fMul fmtH)
  | .fminH t q rd ra rb => floatTwo t q rd ra rb fmtH (fMinMax fmtH false)
  | .fmaxH t q rd ra rb => floatTwo t q rd ra rb fmtH (fMinMax fmtH true)
  | .fmaH t q rd ra rb => floatFma t q rd ra rb fmtH
  | .fabsS t q rd ra => floatBits t q rd ra fmtS (fun x => x % 2 ^ 31)
  | .fnegS t q rd ra => floatBits t q rd ra fmtS (fun x => if x < 2 ^ 31 then x + 2 ^ 31 else x - 2 ^ 31)
  | .fabsH t q rd ra => floatBits t q rd ra fmtH (fun x => x % 2 ^ 15)
  | .fnegH t q rd ra => floatBits t q rd ra fmtH (fun x => if x < 2 ^ 15 then x + 2 ^ 15 else x - 2 ^ 15)
  | .fcvtSH t q rd ra => floatFrom t q rd ra fmtH (fConvert fmtH fmtS)
  | .fcvtHS t q rd ra => floatFrom t q rd ra fmtS (fConvert fmtS fmtH)
  | .fcvtSW t q rd ra => some { t := t, q := q, iv := 8, regs := fun c => [(rd.val, BitVec.ofNat 36 (fFromInt fmtS (c.rd ra).toInt))] }
  | .fcvtSWu t q rd ra => some { t := t, q := q, iv := 8, regs := fun c => [(rd.val, BitVec.ofNat 36 (fFromInt fmtS (c.rd ra).toNat))] }
  | .fcvtWS t q rd ra => floatToInt t q rd ra false (-(2 ^ 31)) (2 ^ 31 - 1)
  | .fcvtWSN t q rd ra => floatToInt t q rd ra true (-(2 ^ 31)) (2 ^ 31 - 1)
  | .fcvtWuS t q rd ra => floatToInt t q rd ra false 0 (2 ^ 32 - 1)
  | .fclassS t q rd ra => floatBits t q rd ra fmtS (fClass fmtS)
  | .fclassH t q rd ra => floatBits t q rd ra fmtH (fClass fmtH)
  | _ => none

/-- R115: a floating-point compare. -/
def floatCompare (t : Gtn) (q : Pred) (c : Bool) (pd : PReg) (ra : Reg) (b : Opnd) (f : FFmt) (k : FCond) : Option Effect :=
  let r (o : Ctx) : Bool × Bool := fCond f k (operand f o ra) (match b with
    | .reg rb => operand f o rb
    | .imm i => i.toNat % 2 ^ f.width)
  some { t := t, q := q, iv := 8,
         preds := fun o => (pd.val, (r o).1) :: (if c then [(if pd.val % 2 = 0 then pd.val + 1 else pd.val - 1, !(r o).1)] else []),
         sov := fun o => (r o).2 }

/-- R115. -/
def floatCompareRow : Instr → Option Effect
  | .feqS t q c pd ra b => floatCompare t q c pd ra b fmtS .eq
  | .fltS t q c pd ra b => floatCompare t q c pd ra b fmtS .lt
  | .fleS t q c pd ra b => floatCompare t q c pd ra b fmtS .le
  | .funS t q c pd ra b => floatCompare t q c pd ra b fmtS .un
  | .feqH t q c pd ra b => floatCompare t q c pd ra b fmtH .eq
  | .fltH t q c pd ra b => floatCompare t q c pd ra b fmtH .lt
  | .fleH t q c pd ra b => floatCompare t q c pd ra b fmtH .le
  | .funH t q c pd ra b => floatCompare t q c pd ra b fmtH .un
  | _ => none

/-! ## All of them -/

/-- Every command of a table completes with its effect where its syllable runs. -/
def Effects (row : Instr → Option Effect) : Prop :=
  ∀ (i : Instr) (s : State) (e : Effect) (b : Bundle), row i = some e → Runs s e.t e.q b → s.spells i = true → Gives i s (e.Done b s)

/-- R78, R88, R105: reserved encodings with the rank of their unit (R73) and their bits [24:0]: register fields that must name a pair and do not, bit fields from 36
on, system registers that are not assigned, and the encodings that name no syllable. -/
def reservedForm : Instr → Option (Gtn × Pred × Nat × Nat)
  | .addP t q rd ra rb => if namesPair rd && namesPair ra && namesPair rb then none else some (t, q, 0, triBits 0x13 rd ra rb)
  | .subP t q rd ra rb => if namesPair rd && namesPair ra && namesPair rb then none else some (t, q, 0, triBits 0x14 rd ra rb)
  | .addPu t q rd ra rb => if namesPair rd && namesPair ra && namesPair rb then none else some (t, q, 0, triBits 0x15 rd ra rb)
  | .subPu t q rd ra rb => if namesPair rd && namesPair ra && namesPair rb then none else some (t, q, 0, triBits 0x16 rd ra rb)
  | .satP t q rd ra => if namesPair rd && namesPair ra then none else some (t, q, 0, triBits 0x26 rd ra 0)
  | .mulWp t q rd ra rb => if namesPair rd then none else some (t, q, 0, triBits 0x41 rd ra rb)
  | .mulWpu t q rd ra rb => if namesPair rd then none else some (t, q, 0, triBits 0x42 rd ra rb)
  | .macP t q rd ra rb => if namesPair rd then none else some (t, q, 0, triBits 0x46 rd ra rb)
  | .bfx t q rd ra pos wm1 => if 36 ≤ pos then some (t, q, 0, bfdBits 0 rd ra (pos % 64) wm1) else none
  | .bfi t q rd ra pos wm1 => if 36 ≤ pos then some (t, q, 0, bfdBits 1 rd ra (pos % 64) wm1) else none
  | .ldD t q rd a => if namesPair rd then none else some (t, q, 2, memBits 7 rd a)
  | .stD t q rd a => if namesPair rd then none else some (t, q, 2, memBits 0xC rd a)
  | .mfsr t q rd srn => if srnAssigned srn.toNat then none else some (t, q, 3, rd.val * 2 ^ 10 + srn.toNat)
  | .mtsr t q srn rd => if srnAssigned srn.toNat then none else some (t, q, 3, 2 ^ 15 + rd.val * 2 ^ 10 + srn.toNat)
  | .reservedEncoding t q body => some (t, q, body.unit.val, body.bits.toNat)
  | _ => none
where
  /-- R68: TRI and BFD syllables without their header. -/
  triBits (opc : Nat) (rd ra rb : Reg) : Nat := opc * 2 ^ 15 + rd.val * 2 ^ 10 + ra.val * 2 ^ 5 + rb.val
  bfdBits (op : Nat) (rd ra : Reg) (pos : Nat) (wm1 : Fin 32) : Nat :=
    0b011 * 2 ^ 22 + op * 2 ^ 21 + rd.val * 2 ^ 16 + ra.val * 2 ^ 11 + pos * 2 ^ 5 + wm1.val
  /-- R69: the M unit's addresses, with the low byte of an immediate. -/
  memBits (opc : Nat) (rd : Reg) (a : Addr) : Nat :=
    match a with
    | .imm ra i => 2 ^ 22 + opc * 2 ^ 18 + rd.val * 2 ^ 13 + ra.val * 2 ^ 8 + i.toNat % 2 ^ 8
    | .idx ra rb => triBits opc rd ra rb

/-- R89, R90: a reserved syllable with bits [24:0] `body`. Under ST.STRICT = 1 the bundle is undone and the Illegal cause waits
for the boundary; otherwise, when it executes, the registers of bits [14:10] and [17:13] become zero and the predicate of bits
[15:13] is cleared. -/
def reservedDone (t : Gtn) (q : Pred) (unit body : Nat) (b : Bundle) (s s' : State) : Prop :=
  if bit b.old.st 8 then
    (s'.th t).pend = some { cls := 1, detail := 8 * 16 + b.pos, target := 1, level := some 15, xra := b.addr, xfa := b.addr } ∧
    (s'.th t).ctx = b.old ∧ s'.mem = s.mem ∧ s'.regs = s.regs
  else if b.holds q then
    (Effect.mk t q 4 unit (fun _ => [(body / 2 ^ 10 % 32, 0), (body / 2 ^ 13 % 32, 0)]) (fun _ => [(body / 2 ^ 13 % 8, false)])
      (fun _ => false)).Done b s s'
  else SkipDone t b s s'

end Sys2Proof.Rules
end

