-- ==== Sys2Proof/Rules/Syllables.lean ====
section
/-! DEFINITION. The commands that are syllables of a thread's bundle, and those that wait for a whole bundle's first place. -/

namespace Sys2Proof.Rules

open Sys2Proof.Machine

/-- R66, R67, R104: the thread and the predicate of a syllable, and whether it is a pattern instruction, which comes first in its
bundle. BRA, whose predictor learns from a branch that is not taken (R54), JMP and JMPL, whose interval is the same either way (R55), and the encodings that name no syllable are not here. -/
def syllableOf : Instr → Option (Gtn × Pred × Bool)
  | .add t q _ _ _ => some (t, q, false)
  | .sub t q _ _ _ => some (t, q, false)
  | .and t q _ _ _ => some (t, q, false)
  | .or t q _ _ _ => some (t, q, false)
  | .xor t q _ _ _ => some (t, q, false)
  | .andn t q _ _ _ => some (t, q, false)
  | .shl t q _ _ _ => some (t, q, false)
  | .shr t q _ _ _ => some (t, q, false)
  | .sra t q _ _ _ => some (t, q, false)
  | .min t q _ _ _ => some (t, q, false)
  | .max t q _ _ _ => some (t, q, false)
  | .minu t q _ _ _ => some (t, q, false)
  | .maxu t q _ _ _ => some (t, q, false)
  | .sxB t q _ _ => some (t, q, false)
  | .sxH t q _ _ => some (t, q, false)
  | .sxW t q _ _ => some (t, q, false)
  | .zxB t q _ _ => some (t, q, false)
  | .zxH t q _ _ => some (t, q, false)
  | .zxW t q _ _ => some (t, q, false)
  | .addP t q _ _ _ => some (t, q, false)
  | .subP t q _ _ _ => some (t, q, false)
  | .addPu t q _ _ _ => some (t, q, false)
  | .subPu t q _ _ _ => some (t, q, false)
  | .satB t q _ _ => some (t, q, false)
  | .satBu t q _ _ => some (t, q, false)
  | .satH t q _ _ => some (t, q, false)
  | .satHu t q _ _ => some (t, q, false)
  | .satW t q _ _ => some (t, q, false)
  | .satWu t q _ _ => some (t, q, false)
  | .satP t q _ _ => some (t, q, false)
  | .clz t q _ _ => some (t, q, false)
  | .clzW t q _ _ => some (t, q, false)
  | .cls t q _ _ => some (t, q, false)
  | .bperm t q _ _ _ => some (t, q, false)
  | .mul t q _ _ _ => some (t, q, false)
  | .mulWp t q _ _ _ => some (t, q, false)
  | .mulWpu t q _ _ _ => some (t, q, false)
  | .macH t q _ _ _ => some (t, q, false)
  | .macHu t q _ _ _ => some (t, q, false)
  | .macP t q _ _ _ => some (t, q, false)
  | .div t q _ _ _ => some (t, q, true)
  | .divu t q _ _ _ => some (t, q, true)
  | .rem t q _ _ _ => some (t, q, true)
  | .remu t q _ _ _ => some (t, q, true)
  | .faddS t q _ _ _ => some (t, q, false)
  | .fsubS t q _ _ _ => some (t, q, false)
  | .fmulS t q _ _ _ => some (t, q, false)
  | .fmaS t q _ _ _ => some (t, q, false)
  | .fminS t q _ _ _ => some (t, q, false)
  | .fmaxS t q _ _ _ => some (t, q, false)
  | .fabsS t q _ _ => some (t, q, false)
  | .fnegS t q _ _ => some (t, q, false)
  | .faddH t q _ _ _ => some (t, q, false)
  | .fsubH t q _ _ _ => some (t, q, false)
  | .fmulH t q _ _ _ => some (t, q, false)
  | .fmaH t q _ _ _ => some (t, q, false)
  | .fminH t q _ _ _ => some (t, q, false)
  | .fmaxH t q _ _ _ => some (t, q, false)
  | .fabsH t q _ _ => some (t, q, false)
  | .fnegH t q _ _ => some (t, q, false)
  | .fcvtSH t q _ _ => some (t, q, false)
  | .fcvtHS t q _ _ => some (t, q, false)
  | .fcvtSW t q _ _ => some (t, q, false)
  | .fcvtSWu t q _ _ => some (t, q, false)
  | .fcvtWS t q _ _ => some (t, q, false)
  | .fcvtWSN t q _ _ => some (t, q, false)
  | .fcvtWuS t q _ _ => some (t, q, false)
  | .fclassS t q _ _ => some (t, q, false)
  | .fclassH t q _ _ => some (t, q, false)
  | .addi t q _ _ _ => some (t, q, false)
  | .andi t q _ _ _ => some (t, q, false)
  | .ori t q _ _ _ => some (t, q, false)
  | .xori t q _ _ _ => some (t, q, false)
  | .shli t q _ _ _ => some (t, q, false)
  | .shri t q _ _ _ => some (t, q, false)
  | .srai t q _ _ _ => some (t, q, false)
  | .rsubi t q _ _ _ => some (t, q, false)
  | .mini t q _ _ _ => some (t, q, false)
  | .maxi t q _ _ _ => some (t, q, false)
  | .minui t q _ _ _ => some (t, q, false)
  | .maxui t q _ _ _ => some (t, q, false)
  | .muli t q _ _ _ => some (t, q, false)
  | .bfx t q _ _ _ _ => some (t, q, false)
  | .bfi t q _ _ _ _ => some (t, q, false)
  | .eq t q _ _ _ _ => some (t, q, false)
  | .ne t q _ _ _ _ => some (t, q, false)
  | .lt t q _ _ _ _ => some (t, q, false)
  | .ge t q _ _ _ _ => some (t, q, false)
  | .le t q _ _ _ _ => some (t, q, false)
  | .gt t q _ _ _ _ => some (t, q, false)
  | .ltu t q _ _ _ _ => some (t, q, false)
  | .geu t q _ _ _ _ => some (t, q, false)
  | .leu t q _ _ _ _ => some (t, q, false)
  | .gtu t q _ _ _ _ => some (t, q, false)
  | .tst t q _ _ _ _ => some (t, q, false)
  | .ntst t q _ _ _ _ => some (t, q, false)
  | .feqS t q _ _ _ _ => some (t, q, false)
  | .fltS t q _ _ _ _ => some (t, q, false)
  | .fleS t q _ _ _ _ => some (t, q, false)
  | .funS t q _ _ _ _ => some (t, q, false)
  | .feqH t q _ _ _ _ => some (t, q, false)
  | .fltH t q _ _ _ _ => some (t, q, false)
  | .fleH t q _ _ _ _ => some (t, q, false)
  | .funH t q _ _ _ _ => some (t, q, false)
  | .ldB t q _ _ => some (t, q, false)
  | .ldH t q _ _ => some (t, q, false)
  | .ldW t q _ _ => some (t, q, false)
  | .ldX t q _ _ => some (t, q, false)
  | .ldBu t q _ _ => some (t, q, false)
  | .ldHu t q _ _ => some (t, q, false)
  | .ldWu t q _ _ => some (t, q, false)
  | .ldD t q _ _ => some (t, q, false)
  | .stB t q _ _ => some (t, q, false)
  | .stH t q _ _ => some (t, q, false)
  | .stW t q _ _ => some (t, q, false)
  | .stX t q _ _ => some (t, q, false)
  | .stD t q _ _ => some (t, q, false)
  | .ssB t q _ _ _ => some (t, q, false)
  | .ssBu t q _ _ _ => some (t, q, false)
  | .ssH t q _ _ _ => some (t, q, false)
  | .ssHu t q _ _ _ => some (t, q, false)
  | .ssW t q _ _ _ => some (t, q, false)
  | .ssWu t q _ _ _ => some (t, q, false)
  | .ldAqW t q _ _ _ => some (t, q, false)
  | .ldAqX t q _ _ _ => some (t, q, false)
  | .stRlW t q _ _ _ => some (t, q, false)
  | .stRlX t q _ _ _ => some (t, q, false)
  | .fence t q => some (t, q, false)
  | .fenceSs t q => some (t, q, false)
  | .ldlW t q _ _ => some (t, q, false)
  | .ldlX t q _ _ => some (t, q, false)
  | .stcW t q _ _ _ => some (t, q, false)
  | .stcX t q _ _ _ => some (t, q, false)
  | .sunpk t q _ _ _ => some (t, q, true)
  | .spack t q _ _ _ => some (t, q, true)
  | .copy t q _ _ _ => some (t, q, true)
  | .fill t q _ _ _ => some (t, q, true)
  | .cmpb t q _ _ _ => some (t, q, true)
  | .crc32c t q _ _ _ => some (t, q, true)
  | .crc16 t q _ _ _ => some (t, q, true)
  | .crc8 t q _ _ _ => some (t, q, true)
  | .crc8h t q _ _ _ => some (t, q, true)
  | .amoSwapW t q _ _ _ => some (t, q, false)
  | .amoAddW t q _ _ _ => some (t, q, false)
  | .amoAndW t q _ _ _ => some (t, q, false)
  | .amoOrW t q _ _ _ => some (t, q, false)
  | .amoXorW t q _ _ _ => some (t, q, false)
  | .amoMinW t q _ _ _ => some (t, q, false)
  | .amoMaxW t q _ _ _ => some (t, q, false)
  | .amoMinuW t q _ _ _ => some (t, q, false)
  | .amoMaxuW t q _ _ _ => some (t, q, false)
  | .amoCasW t q _ _ _ => some (t, q, false)
  | .amoSwapX t q _ _ _ => some (t, q, false)
  | .amoAddX t q _ _ _ => some (t, q, false)
  | .amoCasX t q _ _ _ => some (t, q, false)
  | .clClean t q _ => some (t, q, false)
  | .clFlush t q _ => some (t, q, false)
  | .clInv t q _ => some (t, q, false)
  | .clZero t q _ => some (t, q, false)
  | .clPref t q _ => some (t, q, false)
  | .clPrefw t q _ => some (t, q, false)
  | .tlbiVa t q _ => some (t, q, false)
  | .tlbiVaa t q _ => some (t, q, false)
  | .tlbiAsid t q _ => some (t, q, false)
  | .tlbiOwn t q => some (t, q, false)
  | .tlbiIpa t q _ _ => some (t, q, false)
  | .tlbiB t q _ => some (t, q, false)
  | .tlbiAll t q => some (t, q, false)
  | .mfsr t q _ _ => some (t, q, false)
  | .mtsr t q _ _ => some (t, q, false)
  | .iflush t q _ => some (t, q, false)
  | .tnote t q _ _ => some (t, q, false)
  | .wait t q _ => some (t, q, false)
  | .sysc t q _ => some (t, q, false)
  | .hypc t q _ => some (t, q, false)
  | .rfx t q => some (t, q, false)
  | .syncC t q => some (t, q, false)
  | .pflush t q => some (t, q, false)
  | .pbar t q => some (t, q, false)
  | .ucall t q _ => some (t, q, true)
  | _ => none

end Sys2Proof.Rules
end

