-- ==== Sys2Proof/Rules/Vehicle.lean ====
section
/-! DEFINITION. What chapter 17 gives the vehicle buses, GPIO, timers, DMA and the signal gateway. -/

namespace Sys2Proof.Rules

open Sys2Proof.Machine

/-! ## CAN reception (R369, R372, R373, R375) -/

/-- A controller that becomes `c` while the rest stays. -/
def CanIs (k : Nat) (c : Can) (s s' : State) : Prop :=
  s'.canOf k = c ∧ (∀ j, j ≠ k → s'.canOf j = s.canOf j) ∧ { s' with can := s.can } = s

/-- R371: the words of an element stand in message RAM from an address on. -/
def InRam (a : Nat) (el : List Byte) (s' : State) : Prop :=
  ∀ i, i < (bytesWords el).length → s'.reg (a + 4 * i) = (bytesWords el).getD i 0

/-- R372: the FIFO of a controller takes an element, or has no room for it. -/
def canTakes (s : State) (k : Nat) (el : List Byte) : Option (State → Prop) :=
  let size := bits (s.reg (canPage k + 0x18)) 5 0
  let f := (s.canOf k).rxf
  match f.place size (elSlots el) with
  | none => some (Noted (canPage k + 0x38) 17 s)
  | some a => given (decide (a < 256)) (fun s' =>
      InRam (canRam k a) el s' ∧ bit (s'.reg (canPage k + 0x38)) 18 = true ∧
      (s'.canOf k).rxf = { get := if f.held = [] then a else f.get, put := (a + elSlots el) % size,
                           held := f.held ++ [(a, elSlots el)] } ∧
      (∀ j, j ≠ k → s'.canOf j = s.canOf j) ∧ NoThread s s')

/-- R375: the FIFO of a share takes an element, or has no room for it. -/
def shareTakes (s : State) (i : Nat) (el : List Byte) : Option (State → Prop) :=
  let pg := instPage (1024 + i)
  let x := s.share i
  let size := bits (s.reg (pg + 0x24)) 5 0
  if !bit (s.reg (pg + 0x20)) 31 || (s.inst (1024 + i)).rst then some (fun s' => s' = s)
  else match x.rxf.place size (elSlots el) with
    | none => some (Noted (pg + 0x60) 16 s)
    | some a => given (decide (x.can < 24) && decide (64 + 48 * x.blk + a < 256)) (fun s' =>
        InRam (canRam x.can (64 + 48 * x.blk + a)) el s' ∧ bit (s'.reg (pg + 0x60)) 18 = true ∧
        (s'.share i).rxf.held = x.rxf.held ++ [(a, elSlots el)] ∧ (s'.share i).pend = x.pend ∧ s'.can = s.can ∧ NoThread s s')

/-- R386: a frame enters the input queue of the gateway. -/
def gatewayTakes (s : State) (src : Nat) (el : List Byte) : Option (State → Prop) :=
  if 8192 ≤ s.gw.inq.length then some (Noted 0x1046001028 18 s)
  else some (fun s' => s' = { s with gw := { s.gw with inq := s.gw.inq ++ [(src, el, s.time)] } })

/-- A new slot of a FIFO's GET: elements before it are freed; one outside the occupied slots changes nothing (R372). -/
def Freed (f : RxFifo) (g : Nat) (f' : RxFifo) : Prop :=
  (f.held = [] → f' = f) ∧ (g = f.get → f' = f) ∧
  ((f.held ≠ [] ∧ g ≠ f.get ∧ g = f.put) → f' = { f with get := g, held := [] }) ∧
  ((g ≠ f.put ∧ ∀ e ∈ f.held, g < e.1 ∨ e.1 + e.2 ≤ g) → f' = f) ∧
  (∀ a n b m r, f.held = (a, n) :: (b, m) :: r → g = b → (b < a ∨ a + n ≤ b) → g ≠ f.get → g ≠ f.put → 0 < m →
    f' = { f with get := g, held := (b, m) :: r })

/-- The commands of reception. -/
def canReceiveRule : Rule
  | .canFrameRx k el, s =>
    if s.frozen || !s.canOn k || decide (bits (s.reg (canPage k)) 29 28 < elFmt el) then some (fun s' => s' = s)
    else if el.length ≠ 16 + elLen el then none
    else match s.canFilter k el with
      | none => if bit (s.reg (canPage k)) 25 then canTakes s k el else some (Noted (canPage k + 0x38) 16 s)
      | some n =>
        let w := s.reg (canPage k + 0x808 + 16 * n)
        let i := bits w 4 0
        if bit w 31 then (if bit w 30 then none else gatewayTakes s k el)
        else if !bit w 30 then some (fun s' => s' = s)
        else if !bit w 5 then canTakes s k el
        else if (s.inst (1024 + i)).on && (s.share i).can == k.val then shareTakes s i el
        else some (Noted (canPage k + 0x38) 16 s)
  | .canRxfAck rq k w, s =>
    guarded s rq (canPage k + 0x20) w (fun s' =>
      Freed (s.canOf k).rxf (bits w 5 0) (s'.canOf k).rxf ∧ CanIs k { s.canOf k with rxf := (s'.canOf k).rxf } s s')
  | .canRxfCfgWrite rq k w, s =>
    let c := s.canOf k
    guarded s rq (canPage k + 0x18) w (fun s' =>
      if c.rxf.held ≠ [] ∨ c.pend ≠ 0 ∨ bits w 5 0 = 0 then s' = s
      else s'.reg (canPage k + 0x18) = w &&& 0x3F ∧ CanIs k { c with rxf := {} } (s.setReg (canPage k + 0x18) (w &&& 0x3F)) s')
  | .cshRxfAck rq i w, s =>
    let pg := instPage (1024 + i)
    owned s rq (pg + 0x2C) (1024 + i) w (fun s' =>
      Freed (s.share i).rxf (bits w 5 0) (s'.share i).rxf ∧ s'.share i = { s.share i with rxf := (s'.share i).rxf } ∧
      { s' with csh := s.csh } = s)
  | .canWake k, s => some (fun s' => if s.canFused k then s' = s else Noted (canPage k + 0x44) 18 s s')
  | _, _ => none

/-! ## CAN transmission and errors (R369, R370, R374 to R376) -/

/-- The state of a controller by its counters (R369): 0 active, 1 passive, 2 bus-off. -/
def canState (tec rec_ : Nat) : Nat := if 256 ≤ tec then 2 else if 128 ≤ tec ∨ 128 ≤ rec_ then 1 else 0

/-- R369: the flags of CAN_ERR_EVR of a change of the counters. -/
def canErrFlag (c : Can) (proto : Bool) (tec rec_ k : Nat) : Bool :=
  (k == 15 && proto) || (k == 16 && ((decide (c.tec < 96) && decide (96 ≤ tec)) || (decide (c.rec_ < 96) && decide (96 ≤ rec_)))) ||
  (k == 17 && canState tec rec_ == 1 && c.st == 0) || (k == 18 && canState tec rec_ == 2)

/-- Is buffer `n` the one whose SOF has been sent. -/
def ownSof (c : Can) (n : Nat) : Bool := c.sof.map Prod.fst == some (.own n)

/-- The commands of transmission. -/
def canSendRule : Rule
  | .canTxReq rq k w, s =>
    let c := s.canOf k
    guarded s rq (canPage k + 0x24) w (CanIs k { c with pend := c.pend ||| w, done := c.done &&& ~~~w, cxl := c.cxl &&& ~~~w } s)
  | .canTxCancel rq k w, s =>
    let c := s.canOf k
    guarded s rq (canPage k + 0x28) w (fun s' =>
      (∀ n, n < 32 → (s'.canOf k).pend.getLsbD n = (c.pend.getLsbD n && !(bit w n && !ownSof c n)) ∧
        (s'.canOf k).cxl.getLsbD n = (c.cxl.getLsbD n || (bit w n && c.pend.getLsbD n && !ownSof c n)) ∧
        ((ownSof c n = true ∧ bit w n = true ∧ c.pend.getLsbD n = true) → (s'.canOf k).sof = some (.own n, true))) ∧
      (s'.canOf k).done = c.done ∧ NoThread s s')
  | .canTxEnd k how, s =>
    let c := s.canOf k
    if s.frozen || !s.canOn k || bit (s.reg (canPage k)) 27 then some (fun s' => s' = s)
    else if s.moored && !bit (s.reg (canPage k)) 26 && (how.val == 0 || how.val == 3) then some (fun s' => s' = s)
    else if how.val = 3 then
      (if c.sof.isSome then some (fun s' => s' = s)
       else match bestCand (s.canCands k) with
         | none => some (fun s' => s' = s)
         | some (.share j n, el) =>
           given (s.shareMay (s.shareAt k j) el) (CanIs k { c with sof := some (.share j n, false) } s)
         | some (src, _) => some (CanIs k { c with sof := some (src, false) } s))
    else match c.sof with
      | none => some (fun s' => s' = s)
      | some (.own n, cut) =>
        if how.val = 0 then
          given (!bit (s.reg (canPage k)) 26) (fun s' =>
            s'.canOf k = { c with sof := none, pend := putBit c.pend n false, done := putBit c.done n true } ∧
            bit (s'.reg (canPage k + 0x3C)) 18 = true ∧ NoThread s s')
        else if cut then some (fun s' =>
            s'.canOf k = { c with sof := none, pend := putBit c.pend n false, cxl := putBit c.cxl n true } ∧
            bit (s'.reg (canPage k + 0x3C)) 17 = true ∧ NoThread s s')
        else some (CanIs k { c with sof := none } s)
      | some (.gw n, cut) =>
        given (!cut && (how.val != 0 || !bit (s.reg (canPage k)) 26))
          (CanIs k { c with sof := none, gw := if how.val = 0 then c.gw.eraseIdx n else c.gw } s)
      | _ => none
  | .cshTxReq rq i w, s =>
    let x := s.share i
    let pg := instPage (1024 + i)
    owned s rq (pg + 0x30) (1024 + i) w (fun s' =>
      s'.share i = { x with pend := x.pend ||| w.setWidth 8, done := x.done &&& ~~~(w.setWidth 8) } ∧ { s' with csh := s.csh } = s)
  | .cshTxCancel rq i w, s =>
    let x := s.share i
    let pg := instPage (1024 + i)
    owned s rq (pg + 0x34) (1024 + i) w (fun s' =>
      (∀ n, n < 8 → (s.canOf x.can).sof.map Prod.fst ≠ some (.share x.blk n) →
        (s'.share i).pend.getLsbD n = (x.pend.getLsbD n && !bit w n)) ∧
      (∀ n, n < 8 → (s.canOf x.can).sof.map Prod.fst = some (.share x.blk n) →
        (s'.share i).pend.getLsbD n = x.pend.getLsbD n ∧
        ((bit w n && x.pend.getLsbD n) = true → (s'.canOf x.can).sof = some (.share x.blk n, true))) ∧ NoThread s s')
  | .canTimingWrite rq k reg w, s =>
    let pg := canPage k
    let on := bit (s.reg pg) 31
    let c := s.canOf k
    guarded s rq (pg + 4 * reg) w (fun s' =>
      if reg.val = 0 then
        (let p := if on then bits (s.reg pg) 29 28 else if bits w 29 28 = 3 then 0 else bits w 29 28
         let t := s.setReg pg (putBits (w &&& 0x8F000000) 28 2 p)
         if bit w 31 = on then s' = t
         else if c.sof.any (fun x => x.2) then (s'.canOf k).st = 3 ∧ (s'.canOf k).sof = none ∧ NoThread s s'
         else CanIs k { c with st := 3, tec := 0, rec_ := 0, sof := none } t s')
      else if on then s' = s
      else if reg.val = 4 then
        (if bit w 31 = false ∧ bitClocks (s.reg (pg + 0xC)) < 40 then s' = s else s' = s.setReg (pg + 0x10) (w &&& 0x800000FF))
      else if segsGood w = true ∧
          (if reg.val = 1 then 80 else if reg.val = 2 then 10 else if bit (s.reg (pg + 0x10)) 31 then 8 else 40) ≤ bitClocks w then
        s' = s.setReg (pg + 4 * reg) w
      else s' = s)
  | .canBusError k proto tec rc, s =>
    let c := s.canOf k
    if s.frozen || !s.canOn k then some (fun s' => s' = s)
    else some (fun s' =>
      let y := { c with st := canState tec rc, tec := tec, rec_ := rc, sof := if 256 ≤ tec.val then none else c.sof }
      ((tec.val < 256 ∨ c.sof.any (fun x => x.2) = false) → s'.canOf k = y) ∧
      (∀ n, n < 32 → c.sof = some (.own n, true) → 256 ≤ tec.val →
        s'.canOf k = { y with pend := putBit c.pend n false, cxl := putBit c.cxl n true }) ∧
      (∀ j, j ≠ k.val → s'.canOf j = s.canOf j) ∧
      (∀ f, canErrFlag c proto tec rc f = true → bit (s'.reg (canPage k + 0x40)) f = true) ∧ NoThread s s')
  | .canBusoffRecovery k, s =>
    let c := s.canOf k
    if !s.frozen && c.st == 2 && bit (s.reg (canPage k)) 31 && bit (s.reg (canPage k)) 24 then
      some (CanIs k { c with st := 0, tec := 0, rec_ := 0 } s)
    else some (fun s' => s' = s)
  | .canBusIntegrated k, s =>
    let c := s.canOf k
    if !s.frozen && c.st == 3 && bit (s.reg (canPage k)) 31 && !s.canFused k then some (CanIs k { c with st := 0 } s)
    else some (fun s' => s' = s)
  | _, _ => none

/-! ## Other buses (R378 to R380) -/

/-- A bus controller that becomes `x` while the other controllers stay. -/
def BusIs (u : Nat) (x : BusCtl) (s s' : State) : Prop := s'.busOf u = x ∧ ∀ v, v ≠ u → s'.busOf v = s.busOf v

/-- The commands of the LIN, SENT, SPI, I3C, UART and xSPI controllers. -/
def busRule : Rule
  | .busFrameRx u ws err, s =>
    let x := s.busOf u
    if s.frozen || !s.busOn u then some (fun s' => s' = s)
    else some (fun s' =>
      BusIs u { x with rx := x.rx ++ ws.take (64 - x.rx.length) } s s' ∧ bit (s'.reg (busPage u + 0x10)) 18 = true ∧
      (64 - x.rx.length < ws.length → bit (s'.reg (busPage u + 0x14)) 18 = true) ∧
      (∀ f, f < 4 → (err &&& busErrMask u).getLsbD f = true → bit (s'.reg (busPage u + 0x14)) (14 + f) = true) ∧ NoThread s s')
  | .busTransferDone u err, s =>
    let x := s.busOf u
    let cmd := s.reg (busPage u + 0x40)
    let n := if u.val < 16 then 0 else if u.val < 52 then 1 else if bit cmd 24 then bits cmd 23 16 else 0
    if s.frozen || !s.busOn u then some (fun s' => s' = s)
    else some (fun s' =>
      BusIs u { x with tx := x.tx.drop n, busy := false, out := none } s s' ∧ bit (s'.reg (busPage u + 0x10)) 18 = true ∧
      (∀ f, f < 4 → (err &&& busErrMask u).getLsbD f = true → bit (s'.reg (busPage u + 0x14)) (14 + f) = true) ∧
      (52 ≤ u.val → bit (s'.reg (busPage u + 0x40)) 31 = false) ∧ NoThread s s')
  | .busTxdWrite rq u w, s =>
    let x := s.busOf u
    guarded s rq (busPage u + 0xC) w (fun s' =>
      if 64 ≤ x.tx.length then Noted (busPage u + 0x14) 18 s s'
      else BusIs u { x with tx := x.tx ++ [w] } s s' ∧ { s' with bus := s.bus } = s)
  | .busRxdRead rq u, s =>
    let x := s.busOf u
    given (reaches s rq (busPage u + 8)).isSome (fun s' =>
      s'.rdata = x.rx.headD 0 ∧ BusIs u { x with rx := if rq.peek then x.rx else x.rx.drop 1 } s s' ∧
      { s' with bus := s.bus, rdata := s.rdata } = s)
  | .linScheduleSlot k n, s =>
    let x := s.busOf k
    let e := s.reg (busPage k + 0x40 + 4 * n)
    if !s.frozen && s.busOn k && bit (s.reg (busPage k)) 30 && !x.busy && !s.moored then some (fun s' =>
      (s'.busOf k).busy = true ∧ (s'.busOf k).rx = x.rx ∧
      (if bit e 12 then (s'.busOf k).tx = x.tx.drop 6 ∧ (s'.busOf k).gw = x.gw
       else (s'.busOf k).tx = x.tx ∧ Tbl.get (fun _ => ([] : List Byte)) (s'.busOf k).gw (bits e 5 0) = []) ∧
      (∀ v, v ≠ k.val → s'.busOf v = s.busOf v) ∧ { s' with bus := s.bus } = s)
    else some (fun s' => s' = s)
  | .xspCmd rq k w, s =>
    let u := 52 + k.val
    guarded s rq (busPage u + 0x40) w (fun s' =>
      s'.reg (busPage u + 0x40) = w ∧ (s'.busOf u).busy = (bit w 31 || (s.busOf u).busy) ∧ (s'.busOf u).rx = (s.busOf u).rx ∧
      (s'.busOf u).tx = (s.busOf u).tx ∧ { s' with bus := s.bus, regs := s.regs } = s)
  | _, _ => none

/-! ## GPIO and timers (R381 to R383) -/

/-- Does an edge to level `lvl` count for a code of edges: 1 rising, 2 falling, 3 both. -/
def edgeCounts (lvl : Bool) (e : Nat) : Bool := e == 3 || e == (if lvl then 1 else 2)

/-- R383: does a channel capture an edge of line `g`. -/
def captures (s : State) (g : Nat) (lvl : Bool) (t : Nat) : Bool :=
  let c := s.reg (tmrReg t 0)
  bit c 31 && bits c 30 28 == 2 && bits c 23 16 == g && edgeCounts lvl (bits c 12 11)

/-- The instant at which a channel compares next, and whether it waits for it. -/
def compareAt (t n : Nat) (w : Bool) (s' : State) : Prop := num s'.tgp.cmp t = n ∧ flag s'.tgp.wait t = w

/-- A channel's register of configuration, its mode, and a line that it does not drive. -/
def tmrMode (s : State) (t : Nat) : Nat := bits (s.reg (tmrReg t 0)) 30 28

/-- GPIO and the timers. -/
def timerRule : Rule
  | .gpioSet rq m w, s =>
    let a := gpioPage m + 4
    guarded s rq (gpioPage m + 8) w (fun s' => s' = s.setReg a (s.reg a ||| w))
  | .gpioClr rq m w, s =>
    let a := gpioPage m + 4
    guarded s rq (gpioPage m + 0xC) w (fun s' => s' = s.setReg a (s.reg a &&& ~~~w))
  | .gpioEdge g lvl, s =>
    if s.frozen || s.domain 22 != .on || flag s.tgp.inp g == lvl then some (fun s' => s' = s)
    else some (fun s' =>
      flag s'.tgp.inp g = lvl ∧ (∀ k, k ≠ g.val → flag s'.tgp.inp k = flag s.tgp.inp k) ∧
      (edgeCounts lvl (bits (s.reg (0x1049007000 + 8 * g)) 1 0) = true →
        bit (s'.reg (0x1049007004 + 8 * g)) (if lvl then 18 else 17) = true) ∧
      (∀ t, t < 96 → captures s g lvl t = true →
        s'.reg (tmrReg t 0x14) = BitVec.ofNat 32 s.gtb ∧ s'.reg (tmrReg t 0x18) = BitVec.ofNat 32 (s.gtb / 2 ^ 32) ∧
        bit (s'.reg (tmrReg t 0x1C)) 17 = true) ∧
      (∀ t, t < 96 → captures s g lvl t = false → s'.reg (tmrReg t 0x14) = s.reg (tmrReg t 0x14)) ∧ NoThread s s')
  | .tmrCmpHiWrite rq t w, s =>
    let n := w.toNat * 2 ^ 32 + (s.reg (tmrReg t 4)).toNat
    let c := s.reg (tmrReg t 0)
    guarded s rq (tmrReg t 8) w (fun s' =>
      s'.reg (tmrReg t 8) = w ∧ NoThread s s' ∧
      (if bit c 31 = true ∧ (tmrMode s t = 0 ∨ tmrMode s t = 1 ∨ tmrMode s t = 3) ∧ n < s.gtb then
         bit (s'.reg (tmrReg t 0x1C)) 18 = true ∧ bit (s'.reg (tmrReg t 0x1C)) 16 = true ∧ (tmrMode s t = 0 → compareAt t n false s')
       else compareAt t n true s'))
  | .timerMatch t, s =>
    let c := s.reg (tmrReg t 0)
    let n := num s.tgp.cmp t
    if bit c 31 && (tmrMode s t == 0 || tmrMode s t == 1 || tmrMode s t == 3) && flag s.tgp.wait t && decide (n ≤ s.gtb) && !s.frozen && s.domain 22 == .on then
      some (fun s' =>
        NoThread s s' ∧
        (tmrMode s t = 0 → compareAt t n false s' ∧ bit (s'.reg (tmrReg t 0x1C)) 18 = true) ∧
        ((tmrMode s t = 1 ∧ flag s.tgp.miss t = false) →
          compareAt t (n + max 1000 (s.reg (tmrReg t 0xC)).toNat) true s' ∧ bit (s'.reg (tmrReg t 0x1C)) 18 = true) ∧
        ((tmrMode s t ≠ 3 ∧ bit c 15 = true ∧ bits c 23 16 < 192) →
          let l := bits c 23 16
          let was := bit (s.reg (gpioPage (l / 32) + 4)) (l % 32)
          bit (s'.reg (gpioPage (l / 32) + 4)) (l % 32) =
            (if bits c 14 13 = 0 then true else if bits c 14 13 = 1 then false else if bits c 14 13 = 2 then !was else was)))
    else some (fun s' => s' = s)
  | _, _ => none

/-! ## DMA (R384, R385) -/

/-- The entry of a descriptor that moves `data` to the pieces `l` of its destination: the bytes stand there when the descriptor's
end begins. -/
def Moves (g : Ring) (d : DmaDesc) (l : List (Nat × Nat)) (data : List Byte) (s s' : State) : Prop :=
  HeadMoved g s s' ∧ Contexts s s' ∧
  match l with
  | [(pa, n)] => ∃ m : State, m.rdBytes pa n = data ∧ s' = m.dmaEnds g 0 d.irq
  | _ => True

/-- The commands of the DMA sets. -/
def dmaRule : Rule
  | .dmaChTailWrite rq i c w, s =>
    let g := dmaRing (256 + i) c
    owned s rq (g.reg 3) (256 + i) w (fun s' => s' = s.setReg (g.reg 3) (w &&& 0xFFF))
  | .dmaDescriptorDone i c, s =>
    let g := dmaRing (256 + i) c
    if s.frozen || !ringWorks s g then some (fun s' => s' = s)
    else if s.domain 19 ≠ .on then some (Woken 19 s)
    else if !noHold s then none
    else match s.instRead g.i (s.ringAddr g) 32 (s.ringHead g) with
      | (none, _) => some (fun s' => HeadMoved g s s' ∧ Contexts s s')
      | (some b, s1) =>
        let d := dmaDesc b
        if d.len = 0 then some (fun s' => HeadMoved g s s' ∧ Contexts s s' ∧ s' = s1.dmaEnds g 4 d.irq)
        else if 2 ≤ d.op then some (fun s' => HeadMoved g s s' ∧ Contexts s s' ∧ s' = s1.dmaEnds g 5 d.irq)
        else match s1.instRange g.i (d.dst % 2 ^ 40) d.len (s.ringHead g) true with
          | (none, _) => some (fun s' => HeadMoved g s s' ∧ Contexts s s')
          | (some l, _) =>
            given (d.op == 1 && (s.devWord l).isNone && l.all (fun c => s.agentMay c.1 c.2 true) && !s.agentDead 10)
              (Moves g d l (fillData d) s)
  | _, _ => none

/-! ## The gateway (R386 to R394) -/

/-- R389: a copy for CAN controller `k` that its gateway buffers take: the controller is on, the frame is a classical one that fits,
and a buffer is free. -/
def canCopies (s : State) (k : Nat) (el : List Byte) : Bool :=
  decide (k < 24) && !s.canFused k && bit (s.reg (canPage k)) 31 && elFmt el == 0 && decide (elLen el ≤ 8) &&
  decide ((s.canOf k).gw.length < 8)

/-- The copy stands last in the controller's gateway buffers. -/
def Copied (k : Nat) (el : List Byte) (s s' : State) : Prop := s'.canOf k = { s.canOf k with gw := (s.canOf k).gw ++ [el] }

/-- Elements that messages of an AVTPDU hold, where each holds one. -/
def elements (l : List (Option (List Byte))) : List (List Byte) := l.filterMap id

/-- The commands of the gateway. -/
def gatewayRule : Rule
  | .gatewayFrameIn, s =>
    if s.frozen then some (fun s' => s' = s)
    else if s.domain 17 ≠ .on then some (Woken 17 s)
    else match s.gw.inq with
      | [] => some (fun s' => s' = s)
      | (src, el, t) :: r =>
        if !s.afterHandover t then some (fun s' => s' = s)
        else if !s.gw.flips.isEmpty then none
        else match s.gw.tbl.filter (fun e => e.1 < 2 ^ 16 && routeMatches e.2 src el) with
          | [] => some (fun s' => s'.gw = { s.gw with inq := r } ∧ NoThread s s')
          | [(_, e)] =>
            let w := entryWord e 0
            let out := if bit (entryWord e 2) 31 then elWithId el (bits (entryWord e 2) 28 0) else el
            given (bits w 29 28 == 0 && canCopies s (bits w 7 0) out)
              (fun s' => s'.gw.inq = r ∧ Copied (bits w 7 0) out s s' ∧ NoThread s s')
          | _ => some (fun s' => s'.gw.inq = r ∧ Contexts s s')
  | .islandRouteForward, s =>
    if s.frozen then some (fun s' => s' = s)
    else match s.gw.inq with
      | [] => some (fun s' => s' = s)
      | (src, el, t) :: r =>
        if s.afterHandover t || !s.hm.island then some (fun s' => s' = s)
        else match s.hm.man.iroute.filter (fun x => x.1 == src && Nat.testBit x.2.2.1 0 == elXtd el && x.2.2.2.1 == elId el) with
          | [] => some (fun s' => s' = { s with gw := { s.gw with inq := r } })
          | [x] =>
            let out := if Nat.testBit x.2.2.1 1 then elWithId el x.2.2.2.2 else el
            given (canCopies s x.2.1 out) (fun s' => s'.gw.inq = r ∧ Copied x.2.1 out s s' ∧ NoThread s s')
          | _ => some (fun s' => s'.gw.inq = r ∧ Contexts s s')
  | .pduBufferPeriod b, s =>
    let e := s.gwEntry 1 b
    let us := s.time / 1000 + 1
    if s.frozen || bits (entryWord e 3) 23 0 == 0 || !bit (entryWord e 0) 31 || num s.gw.lastUs b == us then
      given s.gw.flips.isEmpty (fun s' => s' = s)
    else if !s.gw.flips.isEmpty then none
    else
      let k := bits (entryWord e 0) 7 0
      let head := leBytes 4 (entryWord e 1).toNat ++ leBytes 4 (entryWord e 2).toNat ++ leBytes 4 0 ++ leBytes 4 0
      let el := head ++ (s.pduData b).take (elLen head)
      if canCopies s k el then some (fun s' => num s'.gw.lastUs b = us ∧ Copied k el s s' ∧ NoThread s s')
      else some (fun s' => num s'.gw.lastUs b = us ∧ s'.gw.inq = s.gw.inq ∧ Contexts s s')
  | .acfWindowExpiry n, s =>
    let l := Tbl.get (fun _ => ([] : List (List Byte))) s.gw.wait n
    if s.frozen || l == [] || decide (s.time < num s.gw.since n + bits (entryWord (s.stream n) 5) 15 0 * 1000) then
      some (fun s' => s' = s)
    else some (fun s' =>
      Tbl.get (fun _ => ([] : List (List Byte))) s'.gw.wait n = [] ∧ num s'.gw.seqTx n = (num s.gw.seqTx n + 1) % 256 ∧
      s'.gw.inq = s.gw.inq ∧ NoThread s s')
  | .acfAvtpduRx q, s =>
    match arrived s q with
    | [] => some (fun s' => s' = s)
    | f :: r =>
      if s.frozen || !s.hm.man.gwSets.contains q.val then some (fun s' => s' = s)
      else
        let pdu := Config.avtpParse (f.data.drop 14)
        match (List.range 64).find? (fun n => strValid (s.stream n) && strId (s.stream n) == pdu.1) with
        | none => some (fun s' => arrived s' q = r ∧ bit (s'.reg 0x1046001030) 18 = true ∧ s'.gw = s.gw ∧ NoThread s s')
        | some n => some (fun s' =>
            arrived s' q = r ∧ num s'.gw.seqRx n = (pdu.2.1 + 1) % 256 + 1 ∧
            ((num s.gw.seqRx n ≠ 0 ∧ num s.gw.seqRx n ≠ pdu.2.1 + 1) → bit (s'.reg 0x1046001030) 17 = true) ∧
            (none ∈ pdu.2.2 → bit (s'.reg 0x1046001030) 16 = true) ∧
            (s.gw.inq.length + pdu.2.2.length ≤ 8192 →
              s'.gw.inq = s.gw.inq ++ (elements pdu.2.2).map (fun el => (0x40 + n, el, s.time))) ∧ NoThread s s')
  | .gwqTxTailWrite rq q w, s =>
    let g := txRing (512 + q)
    owned s rq (g.reg 3) (512 + q) w (fun s' =>
      (s.domain 19 ≠ .on → s' = (s.setReg (g.reg 3) (w &&& 0xFFF)).waitOn 19 (.gwTx q)) ∧
      ((s.domain 19 = .on ∧ s.ringSlots g ≤ 4096 ∧ noHold s = true) →
        s'.reg (g.reg 3) = w &&& 0xFFF ∧ (s.ringOn g = true → s'.ringHead g = s'.ringTail g) ∧ Contexts s s'))
  | _, _ => none

end Sys2Proof.Rules
end

