-- ==== Sys2Proof/Certificates/Slice0/Obligations.lean ====
section
/-! DEFINITION. The statements for the provers. A statement over a table says of every command of the table, in every state in which
the table has an entry, that it completes and what the next state is. -/

section

open Sys2Proof Sys2Proof.Machine Sys2Proof.Rules

/-- The command at the front of the queue is executed, and the rest of the queue waits on. The queue is the model's own (log 6). -/
def Obligations.StepTakesTheFront : Prop :=
  ∀ (c : Instr) (s : State), step { s with pending := c :: s.pending } = exec c s

/-- With no command waiting one nanosecond passes: the model's choice (log 6). Where a reset was asked for, the tick performs it; an
access that waits is served at the tick once nothing stands in its way (log 114). -/
def Obligations.EmptyQueueTicks : Prop :=
  ∀ s : State, s.pending = [] → s.rstReq = none → s.waits = [] → ∃ s', step s = .next s' ∧ s'.pending = [] ∧ s'.time = s.time + 1 ∧ s'.mem = s.mem

/-- What reset leaves (R83, R42, R43, R46, R54, R178, R221, R223, R164, R281). The general registers' zeros are the model's choice
(log 3). -/
def Obligations.ResetValues : Prop :=
  (∀ t, let x := State.reset.th t
    x.state = .free ∧ x.ctx.st = 0xBD ∧ x.ctx.cls = 0 ∧ x.ctx.wLast = 0 ∧ x.ctx.wMask = 0 ∧ x.ctx.wPend = 0 ∧ x.hist = 0 ∧ x.buf = none ∧
    x.link = none ∧ (∀ n, x.ctx.sysr n = 0) ∧ (∀ r, x.ctx.rd r = 0) ∧ ∀ p, x.ctx.rdP p = (p == 0)) ∧
  (∀ c, (State.reset.core c).sched = 0x020100840 ∧ (State.reset.core c).sb = [] ∧
    ∀ i, Tbl.get (fun _ => (1 : BitVec 2)) (State.reset.core c).pred i = 1) ∧
  (∀ a l, (State.reset.aline a l).st = .I) ∧ (∀ l, (State.reset.home l).st = .I ∧ (State.reset.home l).busy = .idle) ∧
  State.reset.coh.msgs = [] ∧ State.reset.tlbs = [] ∧ State.reset.log = [] ∧ State.reset.lockLow = false ∧
  (∀ m, (State.reset.mbx m).st = 0) ∧ (∀ b, (State.reset.berth b).wdEn = false) ∧ State.reset.dbgLevel = 0 ∧
  State.reset.frozen = false ∧ State.reset.pending = []

/-- The memory of the reset state has its canonical form (R14). -/
def Obligations.ResetMemoryCanonical : Prop :=
  State.reset.Inv ∧ ∀ a, State.reset.rdByte a = 0

/-- Every step keeps the canonical form of memory (R14, R196, R213, R437). -/
def Obligations.MemoryStaysCanonical : Prop :=
  ∀ s s' : State, s.Inv → step s = .next s' → s'.Inv

/-- No command touches the queue of waiting commands (spec/98 (the commands of the opcode table)). -/
def Obligations.QueueUntouched : Prop :=
  ∀ (i : Instr) (s s' : State), exec i s = .next s' → s'.pending = s.pending

/-- Every command completes, but for a vendor-only micro-word, which is refused; none faults (R238, R239, R242). -/
def Obligations.OnlyMicroWordsRefuse : Prop :=
  (∀ (i : Instr) (s : State), (∀ f, exec i s ≠ .fault f) ∧
    ∀ r, exec i s = .refused r → (r = .vendorMicroWord ∧ ∃ t, i = .patternMicroWord t)) ∧
  (∀ (i : Instr) (s : State), (∀ t, i ≠ .patternMicroWord t) → ∃ s', exec i s = .next s') ∧
  ∀ (t : Gtn) (s : State), (∀ p e, (s.th t).pat = some p → p.kind = .user e → vendorOnly (s.patWord (coreOf t) p.maddr) = false) →
    ∃ s', exec (.patternMicroWord t) s = .next s'

/-- What is written at an address is read there, in little-endian order, and nothing else changes (R7, R80). -/
def Obligations.BytesReadBack : Prop :=
  ∀ (s : State) (a n v : Nat),
    let s' := s.wrBytes a (leBytes n v)
    leNat (s'.rdBytes a n) = v % 2 ^ (8 * n) ∧ (∀ k, k < n → (s'.rdByte (a + k)).toNat = v / 256 ^ k % 256) ∧ BytesKept a n s s' ∧
    { s' with mem := s.mem } = s

/-- R29: what recording an event does to its record, and what a write to the record does. -/
def Obligations.EventRecords : Prop :=
  (∀ (s : State) (pa flags : Nat), flags < 2 ^ 19 →
    let v := s.reg pa
    let s' := s.record pa flags none
    bits (s'.reg pa) 31 20 = (bits v 31 20 + 1) % 4096 ∧ bits (s'.reg pa) 18 0 = Nat.lor (bits v 18 0) flags ∧
    bit (s'.reg pa) 19 = (bit v 19 || bits v 18 0 != 0) ∧ (∀ a, a ≠ pa → s'.reg a = s.reg a) ∧ { s' with regs := s.regs } = s ∧
    ∀ n, s.record pa flags (some n) = s'.signal n) ∧
  ∀ (rq : Req) (s : State) (pa : Nat) (w : W32) (p : PageRef) (r : RegRow) (off : Nat),
    reaches s rq pa = some (p, r, off) → r.acc = .wsq → plain s rq p off w = true →
    Gives (.eventRecordWrite rq pa w) s fun s' =>
      let a := p.base + off
      s' = if bits w 31 20 = bits (s.reg a) 31 20 then s.setReg a (putBits (s.reg a) 0 20 0) else s.setReg a (s.reg a)

/-- A syllable whose predicate does not hold does nothing but take its place in the bundle (R67, R41). -/
def Obligations.SkippedSyllables : Prop :=
  ∀ (i : Instr) (t : Gtn) (q : Pred) (first : Bool) (s : State) (b : Bundle),
    syllableOf i = some (t, q, first) → reservedForm i = none → s.openSyl t = some b → b.holds q = false →
    (first = true → b.pos = 0) → s.spells i = true → Gives i s (SkipDone t b s)

/-- A syllable that the thread cannot execute changes nothing (the model's choice, log 8) (R40, R66). -/
def Obligations.NoSyllableWithoutAPlace : Prop :=
  ∀ (i : Instr) (t : Gtn) (q : Pred) (first : Bool) (s : State),
    (syllableOf i = some (t, q, first) → s.openSyl t = none → exec i s = .next s) ∧ (s.spells i = false → exec i s = .next s)

/-- ADD, SUB, the logical operations, MIN, MAX and the shifts act on 36 bits and wrap (R95). -/
def Obligations.WrappingOperations : Prop :=
  Effects wrapRow

/-- The extensions rewrite the high bits of RA, and the bit-counting operations count (R96, R106). -/
def Obligations.ExtensionsAndCounts : Prop :=
  Effects oneSourceRow

/-- The SAT operations clamp RA and set ST.SOV when the result differs (R97, R98). -/
def Obligations.Saturations : Prop :=
  Effects saturationRow

/-- The operations of a register and an immediate, BFX and BFI write what their rules say (R94, R105). -/
def Obligations.ImmediatesAndFields : Prop :=
  Effects immediateRow

/-- The pair additions, subtractions and SAT.P write the pair result form (R99, R100). -/
def Obligations.Pairs : Prop :=
  Effects pairRow

/-- The multiplications (R101). -/
def Obligations.Products : Prop :=
  Effects productRow

/-- The multiply-accumulate operations (R102). -/
def Obligations.Accumulations : Prop :=
  Effects accumulateRow

/-- BPERM builds its result byte by byte (R107). -/
def Obligations.BytePermutation : Prop :=
  Effects permuteRow

/-- The integer compares write PD and, with C, the inverse to PD XOR 1 (R108, R75). -/
def Obligations.Compares : Prop :=
  Effects compareRow

/-- The binary32 and binary16 operations and compares write their results and ST.SOV (R109, R110, R111, R112, R113, R114, R115). -/
def Obligations.FloatingPoint : Prop :=
  Effects floatRow ∧ Effects floatCompareRow

/-- Sums, differences, products and FMA are the nearest number of the format, ties to even (R110, R111, R112). -/
def Obligations.RoundsToNearest : Prop :=
  ∀ f : FFmt, f = fmtS ∨ f = fmtH → ∀ x y z : Nat, isFinite f x → isFinite f y → isFinite f z →
    Nearest f (unitsOf f x + unitsOf f y) 1 (fAdd f x y) ∧
    Nearest f (unitsOf f x - unitsOf f y) 1 (fSub f x y) ∧
    Nearest f (unitsOf f x * unitsOf f y) (unitsOfOne f) (fMul f x y) ∧
    Nearest f (unitsOf f x * unitsOf f y + unitsOf f z * unitsOfOne f) (unitsOfOne f) (fFma f x y z)

/-- A reserved encoding has its confined result, or raises Illegal under ST.STRICT (R78, R88, R89, R90, R67). -/
def Obligations.ReservedForms : Prop :=
  ∀ (i : Instr) (t : Gtn) (q : Pred) (unit body : Nat) (s : State) (b : Bundle),
    reservedForm i = some (t, q, unit, body) → s.openSyl t = some b → s.spells i = true → Gives i s (reservedDone t q unit body b s)

/-- MFSR and MTSR by level, and the privilege of the X unit and of TLB maintenance (R81, R82, R83, R84, R85, R86, R87, R119, R74). -/
def Obligations.SystemRegisters : Prop :=
  systemRegisterRule.Holds ∧ privilegeRule.Holds

/-- What the control syllables leave in the bundle and its thread (R133, R134, R135, R136, R137, R138, R54, R59, R41). -/
def Obligations.ControlSyllables : Prop :=
  controlRule.Holds

/-- A conditional branch: target, interval, counter, history and link (R53, R54, R59, R133, R41). -/
def Obligations.ConditionalBranches : Prop :=
  ∀ (t : Gtn) (q : Pred) (link hint : Bool) (disp : BitVec 20) (s : State), conditionalBranch t q link hint disp s

/-- The instructions that patterns implement, a division's last word, and repair (R103, R104, R141, R142, R146, R247, R250). -/
def Obligations.Patterns : Prop :=
  patternRule.Holds

/-- Issue, the bundle boundary, interrupts, wakes, line fills, walks, holds and context reset (R38, R41, R44, R47, R49, R62, R65,
R154, R156, R177). -/
def Obligations.ThreadEngine : Prop :=
  engineRule.Holds ∧
  (∀ (core : CoreId) (s : State) (t c : Nat) (ws : List W32), picks s core t c ws = true → Gives (.issueSelect core) s fun s' =>
    ∃ b, (s'.th t).bun = some b ∧ b.addr = (s.th t).ctx.pc ∧ b.code = ws.filter (fun w => !sylLim w) ∧ (s'.th t).ctx = (s.th t).ctx) ∧
  (∀ (t : Gtn) (s : State) (b : Bundle), (s.th t).bun = some b → s.coreRuns (coreOf t) = true → (s.th t).state = .run →
    (s.th t).resetting = false → s.mayEnd t b = true → Gives (.bundleBoundary t) s fun s' => (s'.th t).bun = none) ∧
  (∀ (t : Gtn) (s : State), acceptsNow s t = true → Gives (.interruptAccept t) s fun s' => (s'.th t).state = .run ∧ (s'.th t).link = none) ∧
  (∀ (t : Gtn) (s : State), s.coreRuns (coreOf t) = true → s.frzReq = false → (s.th t).state = .wait →
    (s.th t).ctx.wPend &&& (s.th t).ctx.wMask ≠ 0 → Gives (.waitChannelWake t) s fun s' =>
      (s'.th t).state = .run ∧ (s'.th t).ctx.wLast = (s.th t).ctx.wPend &&& (s.th t).ctx.wMask) ∧
  (∀ (t : Gtn) (s : State), resumes s t = true → Gives (.resumeBundleLoaded t) s fun s' => (s'.th t).resuming = false) ∧
  (∀ (t : Gtn) (s : State) (pa : Nat), fills s t pa = true → Gives (.lineFillArrive t) s fun s' =>
    (s'.th t).buf = some { va := (s.th t).ctx.pc.toNat / 64 * 64, pa := pa, bytes := s.coreBytes (clusterOf t) pa 64 }) ∧
  (∀ (t : Gtn) (s : State) (r : MReq) (va : Word) (e : TlbEntry), (s.th t).mem = .walk r va → s.alive t = true → (s.walkOf t).isSome = true →
    s.threadWalk t va.toNat r.op.acc = .ok e → Gives (.tableWalkDone t) s fun s' =>
      s' = s.walkDone t e (fun s => s.memTry t r .walked)) ∧
  (∀ (n : Fin 8) (high : Bool) (sel : Fin 32) (kind : Fin 7) (s : State), s.paired.getLsbD n = true → s.coreRuns (4 * n.val + 2 * b2n high) = true →
    Gives (.pairMismatch n high sel kind) s fun s' =>
      (∀ i, i < 32 → (s'.th (32 * (4 * n.val + 2 * b2n high) + i)).state = .locked) ∧ s'.lockLow = true) ∧
  (∀ (t : Gtn) (s : State), (s.th t).holdSent = true → (s.th t).state = .wait → Gives (.threadHoldArrival t) s fun s' =>
    (s'.th t).state = .held ∧ s'.queued t = false) ∧
  ∀ (t : Gtn) (s : State), (s.th t).resetting = true → s.hm.mbx = [] → Gives (.threadContextResetDone t) s fun s' =>
    (s'.th t).resetting = false ∧ ∀ r : Reg, (s'.th t).ctx.rd r = 0

/-- A cause at the boundary enters its level, escalates or locks the thread (R136, R149, R150, R151, R152, R153, R156, R163, R169). -/
def Obligations.SynchronousEntries : Prop :=
  entryRule.Holds

/-- RFX restores ST and the program counter of its level in one step (R137, R161, R127). -/
def Obligations.ReturnsFromExceptions : Prop :=
  returnRule.Holds

/-- A load that waits for nothing writes its register and changes no memory (R116, R117, R118, R120, R123, R125, R132, R41, R77). -/
def Obligations.Loads : Prop :=
  loadRule.Holds

/-- A store enters the store buffer piece by piece and changes no memory yet (R117, R120, R127, R132, R196, R80, R97). -/
def Obligations.Stores : Prop :=
  storeRule.Holds

/-- A drained entry is in memory at its address, and only there (R127, R196, R197, R231). -/
def Obligations.Drains : Prop :=
  drainRule.Holds

/-- STC stores only with its link, and an atomic goes to its line (R126, R127, R129, R130, R131, R132). -/
def Obligations.LinkedStoresAndAtomics : Prop :=
  stcRule.Holds ∧ amoRule.Holds

/-- The responses that let a thread go on (R20, R21, R22, R23, R57, R128, R130, R139, R152, R182). -/
def Obligations.Responses : Prop :=
  responseRule.Holds

/-- Cache and TLB maintenance, FENCE, FENCE.SS, IFLUSH and the prefetches (R132, R138, R139, R181, R182, R197, R212, R213, R214). -/
def Obligations.MaintenanceAndOrdering : Prop :=
  maintenanceRule.Holds ∧ orderingRule.Holds

/-- A request is sent by an agent that needs it and taken by its home as the table says (R215, R216, R217, R221, R223, R224, R226). -/
def Obligations.CoherenceRequests : Prop :=
  requestRule.Holds

/-- Forwards, invalidations and recalls are answered, and lines are put back (R220, R221, R222, R224, R228). -/
def Obligations.CoherenceForwards : Prop :=
  forwardRule.Holds

/-- Data, grants, acknowledgements, unblocks, failures of agents and the upkeep of memory (R221, R224, R226, R232, R327, R335, R338). -/
def Obligations.CoherenceResponses : Prop :=
  responsesRule.Holds ∧ upkeepRule.Holds

/-- Signals, route deliveries, writes of routes and doorbells (R253, R255, R256, R257, R259, R260, R261, R264, R268, R270). -/
def Obligations.EventRouter : Prop :=
  routerRule.Holds

/-- What an access to a register of a block does (R10, R15, R21, R22, R26, R29, R33, R34, R340). -/
def Obligations.RegisterAccesses : Prop :=
  accessRule.Holds

/-- Request buffers, GO, CACK, the checks of a request, and completions (R278, R280, R281, R282, R283, R284, R285, R286, R290, R291). -/
def Obligations.Mailboxes : Prop :=
  mailboxRule.Holds

/-- The harbour commands of the groups system and power (R284, R297, R298, R400, R404, R411). -/
def Obligations.SystemCommands : Prop :=
  systemRule.Holds

/-- The harbour commands of the groups berth and thread (R299, R313, R317, R65). -/
def Obligations.BerthCommands : Prop :=
  berthRule.Holds

/-- The harbour commands of instances, routes and memory (R300, R301, R302, R303). -/
def Obligations.ResourceCommands : Prop :=
  resourceRule.Holds

/-- The harbour commands of errors, security and debug (R304, R305, R306, R445, R447). -/
def Obligations.ErrorAndTrustCommands : Prop :=
  errorRule.Holds ∧ trustRule.Holds

/-- The harbour commands of the manifest, time, counters and trace (R307, R308, R309). -/
def Obligations.ServiceCommands : Prop :=
  serviceRule.Holds

/-- Resets of instances and berths, reclaim, and the watchdogs (R314, R315, R316, R317, R320, R321, R322, R323, R426). -/
def Obligations.ResetsAndWatchdogs : Prop :=
  resetRule.Holds ∧ watchdogRule.Holds

/-- The SPI service port, management frames, the time base, and coalescing timers (R278, R357, R308, R356, R361, R306). -/
def Obligations.TransportsAndTime : Prop :=
  transportRule.Holds ∧ timeRule.Holds

/-- Power domains, levels, the arbiter, dips and thermal limits (R395, R396, R397, R401, R402, R411, R412, R413, R415, R416). -/
def Obligations.DomainsAndSupply : Prop :=
  domainRule.Holds ∧ supplyRule.Holds

/-- Sleep entry and exit, wake sources, the wake port and LOCKUP_N (R164, R351, R403, R404, R405, R406, R407, R408, R409, R410). -/
def Obligations.Sleep : Prop :=
  sleepRule.Holds

/-- The causes of device resets and the steps of start-up (R417, R418, R419, R420, R421, R422, R423, R424, R425, R431, R432, R434). -/
def Obligations.DeviceResetsAndStartUp : Prop :=
  deviceResetRule.Holds ∧ startupRule.Holds

/-- GO of a security service, its segments, CANCEL, alarms, lifecycle and OTP (R438, R439, R440, R441, R442, R443, R444). -/
def Obligations.SecurityServices : Prop :=
  goRule.Holds ∧ securityRule.Holds

/-- The debug access engine, the TAP, freezes, steps and the context page (R451, R452, R453, R455, R457, R458, R460, R461, R465,
R467). -/
def Obligations.Debug : Prop :=
  engineRequestRule.Holds ∧ debugRule.Holds

/-- Trace packets, the sink and the port, and the counters, snapshots, samples and histograms (R469, R471, R473, R475, R476, R479,
R482, R485, R486, R488, R489, R491). -/
def Obligations.TraceAndCounters : Prop :=
  traceRule.Holds ∧ counterRule.Holds

/-- Tables, received and sent frames, gates, links, preemption, and the host queue sets (R344, R346, R347, R348, R350, R351, R352,
R353, R355, R356). -/
def Obligations.EthernetSwitch : Prop :=
  tableRule.Holds ∧ portRule.Holds ∧ queueRule.Holds

/-- Requests of a PCI Express peer, links, time-outs, MSI and MSI-X (R363, R364, R365, R366, R367). -/
def Obligations.PciExpress : Prop :=
  pcieRule.Holds

/-- CAN reception, transmission, sharing, timing, errors and bus-off (R368, R369, R370, R371, R372, R373, R374, R375, R376, R377). -/
def Obligations.CanBuses : Prop :=
  canReceiveRule.Holds ∧ canSendRule.Holds

/-- LIN, SENT, SPI, I3C, UART and xSPI controllers, GPIO and the timers (R378, R379, R380, R381, R382, R383). -/
def Obligations.OtherBusesAndTimers : Prop :=
  busRule.Holds ∧ timerRule.Holds

/-- DMA descriptors and the routes of the gateway (R384, R385, R386, R387, R388, R389, R390, R391, R392, R393, R394). -/
def Obligations.DmaAndGateway : Prop :=
  dmaRule.Holds ∧ gatewayRule.Holds

end
end

