-- ==== Sys2Proof/Laws/Table.lean ====
section
/-! SUPPORT. The laws of sparse tables: reading after a write, and that a write keeps the canonical form. -/

namespace Sys2Proof.Laws

open Sys2Proof.Machine

variable {α : Type}

@[simp] theorem Tbl.get_nil (d : Nat → α) (k : Nat) : Tbl.get d [] k = d k := rfl

theorem Tbl.get_del (d : Nat → α) (t : Tbl α) (k j : Nat) :
    Tbl.get d (Tbl.del t k) j = if j = k then d j else Tbl.get d t j := by
  induction t with
  | nil => simp [Tbl.del, Tbl.get]
  | cons e r ih =>
    obtain ⟨a, v⟩ := e
    simp only [Tbl.del] at ih ⊢
    by_cases h : a = k
    · subst h
      rw [List.filter_cons_of_neg (by simp), ih]
      by_cases h2 : j = a
      · simp [h2]
      · simp [h2, Tbl.get, Ne.symm h2]
    · rw [List.filter_cons_of_pos (by simp [h])]
      by_cases h2 : a = j
      · simp [Tbl.get, h2, show j ≠ k from fun e => h (h2.trans e)]
      · simp only [Tbl.get, if_neg h2, ih]

theorem Tbl.get_ins (d : Nat → α) (t : Tbl α) (k j : Nat) (v : α) (h : ∀ e ∈ t, e.1 ≠ k) :
    Tbl.get d (Tbl.ins k v t) j = if j = k then v else Tbl.get d t j := by
  induction t with
  | nil => simp [Tbl.ins, Tbl.get, eq_comm]
  | cons e r ih =>
    obtain ⟨a, w⟩ := e
    have hr : ∀ e ∈ r, e.1 ≠ k := fun e he => h e (List.mem_cons_of_mem _ he)
    have ha : a ≠ k := h (a, w) (List.mem_cons_self ..)
    simp only [Tbl.ins]
    split
    · by_cases h3 : j = k
      · simp [Tbl.get, h3]
      · simp [Tbl.get, h3, Ne.symm h3]
    · by_cases h3 : a = j
      · simp [Tbl.get, h3, show j ≠ k from fun e => ha (h3.trans e)]
      · simp only [Tbl.get, if_neg h3, ih hr]

/-- R14 and every other table: a read after a write gives the value written at that key, and what was there at any other. -/
theorem Tbl.get_set [DecidableEq α] (d : Nat → α) (t : Tbl α) (k j : Nat) (v : α) :
    Tbl.get d (Tbl.set d t k v) j = if j = k then v else Tbl.get d t j := by
  unfold Tbl.set
  split
  · rename_i h
    rw [Tbl.get_del]
    split
    · subst_vars; rfl
    · rfl
  · rw [Tbl.get_ins, Tbl.get_del]
    · split <;> rfl
    · intro e he
      simp [Tbl.del] at he
      exact he.2

@[simp] theorem Tbl.get_set_self [DecidableEq α] (d : Nat → α) (t : Tbl α) (k : Nat) (v : α) :
    Tbl.get d (Tbl.set d t k v) k = v := by simp [Tbl.get_set]

theorem Tbl.get_set_ne [DecidableEq α] (d : Nat → α) (t : Tbl α) {k j : Nat} (v : α) (h : j ≠ k) :
    Tbl.get d (Tbl.set d t k v) j = Tbl.get d t j := by simp [Tbl.get_set, h]

theorem Tbl.rising_mono {t : Tbl α} : ∀ {lo hi : Nat}, lo ≤ hi → Tbl.rising hi t = true → Tbl.rising lo t = true := by
  induction t with
  | nil => intros; rfl
  | cons e r ih =>
    intro lo hi hl h
    simp only [Tbl.rising, Bool.and_eq_true, decide_eq_true_eq] at h ⊢
    exact ⟨Nat.le_trans hl h.1, h.2⟩

theorem Tbl.rising_filter {t : Tbl α} (p : Nat × α → Bool) : ∀ {lo : Nat}, Tbl.rising lo t = true → Tbl.rising lo (t.filter p) = true := by
  induction t with
  | nil => intros; rfl
  | cons e r ih =>
    intro lo h
    simp only [Tbl.rising, Bool.and_eq_true, decide_eq_true_eq] at h
    rw [List.filter_cons]
    split
    · simp only [Tbl.rising, Bool.and_eq_true, decide_eq_true_eq]
      exact ⟨h.1, ih h.2⟩
    · exact Tbl.rising_mono (Nat.le_succ_of_le h.1) (ih h.2)

theorem Tbl.rising_ins {t : Tbl α} (k : Nat) (v : α) (hk : ∀ e ∈ t, e.1 ≠ k) :
    ∀ {lo : Nat}, lo ≤ k → Tbl.rising lo t = true → Tbl.rising lo (Tbl.ins k v t) = true := by
  induction t with
  | nil => intro lo hl _; simpa [Tbl.ins, Tbl.rising] using hl
  | cons e r ih =>
    obtain ⟨a, w⟩ := e
    intro lo hl h
    have ha : a ≠ k := hk (a, w) (List.mem_cons_self ..)
    simp only [Tbl.rising, Bool.and_eq_true, decide_eq_true_eq] at h
    simp only [Tbl.ins]
    split
    · rename_i hlt
      simp only [Tbl.rising, Bool.and_eq_true, decide_eq_true_eq]
      exact ⟨hl, hlt, h.2⟩
    · rename_i hge
      simp only [Tbl.rising, Bool.and_eq_true, decide_eq_true_eq]
      exact ⟨h.1, ih (fun e he => hk e (List.mem_cons_of_mem _ he)) (by omega) h.2⟩

theorem Tbl.mem_ins {t : Tbl α} {k : Nat} {v : α} {e : Nat × α} (h : e ∈ Tbl.ins k v t) : e = (k, v) ∨ e ∈ t := by
  induction t with
  | nil => simpa [Tbl.ins] using h
  | cons x r ih =>
    simp only [Tbl.ins] at h
    split at h
    · rcases List.mem_cons.mp h with h | h
      · exact .inl h
      · exact .inr h
    · rcases List.mem_cons.mp h with h | h
      · exact .inr (h ▸ List.mem_cons_self ..)
      · exact (ih h).imp id (List.mem_cons_of_mem _)

/-- A write keeps the canonical form. -/
theorem Tbl.wf_set [DecidableEq α] (d : Nat → α) (t : Tbl α) (k : Nat) (v : α) (h : Tbl.wf d t = true) :
    Tbl.wf d (Tbl.set d t k v) = true := by
  simp only [Tbl.wf, Bool.and_eq_true] at h ⊢
  obtain ⟨h1, h2⟩ := h
  have hdel : (Tbl.del t k).all (fun e => decide (e.2 ≠ d e.1)) = true := by
    rw [List.all_eq_true] at h2 ⊢
    intro e he
    exact h2 e ((List.mem_filter.mp he).1)
  have hne : ∀ e ∈ Tbl.del t k, e.1 ≠ k := by
    intro e he
    have := (List.mem_filter.mp he).2
    simpa using this
  unfold Tbl.set
  split
  · exact ⟨Tbl.rising_filter _ h1, hdel⟩
  · rename_i hv
    refine ⟨Tbl.rising_ins k v hne (Nat.zero_le _) (Tbl.rising_filter _ h1), ?_⟩
    rw [List.all_eq_true] at hdel ⊢
    intro e he
    rcases Tbl.mem_ins he with rfl | he
    · simpa using hv
    · exact hdel e he

/-- Dropping entries keeps the canonical form. -/
theorem Tbl.wf_filter [DecidableEq α] (d : Nat → α) (t : Tbl α) (p : Nat × α → Bool) (h : Tbl.wf d t = true) :
    Tbl.wf d (t.filter p) = true := by
  simp only [Tbl.wf, Bool.and_eq_true] at h ⊢
  refine ⟨Tbl.rising_filter p h.1, ?_⟩
  have h2 := h.2
  rw [List.all_eq_true] at h2 ⊢
  intro e he
  exact h2 e ((List.mem_filter.mp he).1)

end Sys2Proof.Laws
end

