-- ==== Sys2Proof/Laws/State.lean ====
section
/-! SUPPORT. The fields of a state after an update: the one it changes reads as written, every other as before. -/

namespace Sys2Proof.Laws

open Sys2Proof.Machine

variable (s : State)

/-! ## `setReg` -/

@[simp] theorem setReg_time (pa : Nat) (v : W32) : (s.setReg pa v).time = s.time := rfl
@[simp] theorem setReg_gtb (pa : Nat) (v : W32) : (s.setReg pa v).gtb = s.gtb := rfl
@[simp] theorem setReg_free (pa : Nat) (v : W32) : (s.setReg pa v).free = s.free := rfl
@[simp] theorem setReg_mem (pa : Nat) (v : W32) : (s.setReg pa v).mem = s.mem := rfl
@[simp] theorem setReg_poison (pa : Nat) (v : W32) : (s.setReg pa v).poison = s.poison := rfl
@[simp] theorem setReg_thr (pa : Nat) (v : W32) : (s.setReg pa v).thr = s.thr := rfl
@[simp] theorem setReg_cores (pa : Nat) (v : W32) : (s.setReg pa v).cores = s.cores := rfl
@[simp] theorem setReg_tlbs (pa : Nat) (v : W32) : (s.setReg pa v).tlbs = s.tlbs := rfl
@[simp] theorem setReg_tlbis (pa : Nat) (v : W32) : (s.setReg pa v).tlbis = s.tlbis := rfl
@[simp] theorem setReg_walks (pa : Nat) (v : W32) : (s.setReg pa v).walks = s.walks := rfl
@[simp] theorem setReg_ioctx (pa : Nat) (v : W32) : (s.setReg pa v).ioctx = s.ioctx := rfl
@[simp] theorem setReg_coh (pa : Nat) (v : W32) : (s.setReg pa v).coh = s.coh := rfl
@[simp] theorem setReg_pat (pa : Nat) (v : W32) : (s.setReg pa v).pat = s.pat := rfl
@[simp] theorem setReg_intake (pa : Nat) (v : W32) : (s.setReg pa v).intake = s.intake := rfl
@[simp] theorem setReg_routeBad (pa : Nat) (v : W32) : (s.setReg pa v).routeBad = s.routeBad := rfl
@[simp] theorem setReg_routeFlips (pa : Nat) (v : W32) : (s.setReg pa v).routeFlips = s.routeFlips := rfl
@[simp] theorem setReg_cand (pa : Nat) (v : W32) : (s.setReg pa v).cand = s.cand := rfl
@[simp] theorem setReg_errCnt (pa : Nat) (v : W32) : (s.setReg pa v).errCnt = s.errCnt := rfl
@[simp] theorem setReg_fabTimeoutEvr (pa : Nat) (v : W32) : (s.setReg pa v).fabTimeoutEvr = s.fabTimeoutEvr := rfl
@[simp] theorem setReg_log (pa : Nat) (v : W32) : (s.setReg pa v).log = s.log := rfl
@[simp] theorem setReg_logSeq (pa : Nat) (v : W32) : (s.setReg pa v).logSeq = s.logSeq := rfl
@[simp] theorem setReg_dom (pa : Nat) (v : W32) : (s.setReg pa v).dom = s.dom := rfl
@[simp] theorem setReg_domReq (pa : Nat) (v : W32) : (s.setReg pa v).domReq = s.domReq := rfl
@[simp] theorem setReg_frozen (pa : Nat) (v : W32) : (s.setReg pa v).frozen = s.frozen := rfl
@[simp] theorem setReg_frzReq (pa : Nat) (v : W32) : (s.setReg pa v).frzReq = s.frzReq := rfl
@[simp] theorem setReg_dramCap (pa : Nat) (v : W32) : (s.setReg pa v).dramCap = s.dramCap := rfl
@[simp] theorem setReg_dram (pa : Nat) (v : W32) : (s.setReg pa v).dram = s.dram := rfl
@[simp] theorem setReg_checkers (pa : Nat) (v : W32) : (s.setReg pa v).checkers = s.checkers := rfl
@[simp] theorem setReg_memOff (pa : Nat) (v : W32) : (s.setReg pa v).memOff = s.memOff := rfl
@[simp] theorem setReg_flashCap (pa : Nat) (v : W32) : (s.setReg pa v).flashCap = s.flashCap := rfl
@[simp] theorem setReg_prot (pa : Nat) (v : W32) : (s.setReg pa v).prot = s.prot := rfl
@[simp] theorem setReg_dbgLevel (pa : Nat) (v : W32) : (s.setReg pa v).dbgLevel = s.dbgLevel := rfl
@[simp] theorem setReg_paired (pa : Nat) (v : W32) : (s.setReg pa v).paired = s.paired := rfl
@[simp] theorem setReg_hm (pa : Nat) (v : W32) : (s.setReg pa v).hm = s.hm := rfl
@[simp] theorem setReg_order (pa : Nat) (v : W32) : (s.setReg pa v).order = s.order := rfl
@[simp] theorem setReg_pwr (pa : Nat) (v : W32) : (s.setReg pa v).pwr = s.pwr := rfl
@[simp] theorem setReg_sec (pa : Nat) (v : W32) : (s.setReg pa v).sec = s.sec := rfl
@[simp] theorem setReg_dbg (pa : Nat) (v : W32) : (s.setReg pa v).dbg = s.dbg := rfl
@[simp] theorem setReg_trc (pa : Nat) (v : W32) : (s.setReg pa v).trc = s.trc := rfl
@[simp] theorem setReg_perf (pa : Nat) (v : W32) : (s.setReg pa v).perf = s.perf := rfl
@[simp] theorem setReg_gtbFrac (pa : Nat) (v : W32) : (s.setReg pa v).gtbFrac = s.gtbFrac := rfl
@[simp] theorem setReg_lockLow (pa : Nat) (v : W32) : (s.setReg pa v).lockLow = s.lockLow := rfl
@[simp] theorem setReg_lockMin (pa : Nat) (v : W32) : (s.setReg pa v).lockMin = s.lockMin := rfl
@[simp] theorem setReg_eth (pa : Nat) (v : W32) : (s.setReg pa v).eth = s.eth := rfl
@[simp] theorem setReg_pcie (pa : Nat) (v : W32) : (s.setReg pa v).pcie = s.pcie := rfl
@[simp] theorem setReg_can (pa : Nat) (v : W32) : (s.setReg pa v).can = s.can := rfl
@[simp] theorem setReg_csh (pa : Nat) (v : W32) : (s.setReg pa v).csh = s.csh := rfl
@[simp] theorem setReg_bus (pa : Nat) (v : W32) : (s.setReg pa v).bus = s.bus := rfl
@[simp] theorem setReg_gw (pa : Nat) (v : W32) : (s.setReg pa v).gw = s.gw := rfl
@[simp] theorem setReg_tgp (pa : Nat) (v : W32) : (s.setReg pa v).tgp = s.tgp := rfl
@[simp] theorem setReg_alarms (pa : Nat) (v : W32) : (s.setReg pa v).alarms = s.alarms := rfl
@[simp] theorem setReg_rstReq (pa : Nat) (v : W32) : (s.setReg pa v).rstReq = s.rstReq := rfl
@[simp] theorem setReg_waits (pa : Nat) (v : W32) : (s.setReg pa v).waits = s.waits := rfl
@[simp] theorem setReg_rdata (pa : Nat) (v : W32) : (s.setReg pa v).rdata = s.rdata := rfl
@[simp] theorem setReg_sspOut (pa : Nat) (v : W32) : (s.setReg pa v).sspOut = s.sspOut := rfl
@[simp] theorem setReg_pending (pa : Nat) (v : W32) : (s.setReg pa v).pending = s.pending := rfl

/-! ## `setTh` -/

@[simp] theorem setTh_time (t : Nat) (x : Thread) : (s.setTh t x).time = s.time := rfl
@[simp] theorem setTh_gtb (t : Nat) (x : Thread) : (s.setTh t x).gtb = s.gtb := rfl
@[simp] theorem setTh_free (t : Nat) (x : Thread) : (s.setTh t x).free = s.free := rfl
@[simp] theorem setTh_mem (t : Nat) (x : Thread) : (s.setTh t x).mem = s.mem := rfl
@[simp] theorem setTh_poison (t : Nat) (x : Thread) : (s.setTh t x).poison = s.poison := rfl
@[simp] theorem setTh_regs (t : Nat) (x : Thread) : (s.setTh t x).regs = s.regs := rfl
@[simp] theorem setTh_cores (t : Nat) (x : Thread) : (s.setTh t x).cores = s.cores := rfl
@[simp] theorem setTh_tlbs (t : Nat) (x : Thread) : (s.setTh t x).tlbs = s.tlbs := rfl
@[simp] theorem setTh_tlbis (t : Nat) (x : Thread) : (s.setTh t x).tlbis = s.tlbis := rfl
@[simp] theorem setTh_walks (t : Nat) (x : Thread) : (s.setTh t x).walks = s.walks := rfl
@[simp] theorem setTh_ioctx (t : Nat) (x : Thread) : (s.setTh t x).ioctx = s.ioctx := rfl
@[simp] theorem setTh_coh (t : Nat) (x : Thread) : (s.setTh t x).coh = s.coh := rfl
@[simp] theorem setTh_pat (t : Nat) (x : Thread) : (s.setTh t x).pat = s.pat := rfl
@[simp] theorem setTh_intake (t : Nat) (x : Thread) : (s.setTh t x).intake = s.intake := rfl
@[simp] theorem setTh_routeBad (t : Nat) (x : Thread) : (s.setTh t x).routeBad = s.routeBad := rfl
@[simp] theorem setTh_routeFlips (t : Nat) (x : Thread) : (s.setTh t x).routeFlips = s.routeFlips := rfl
@[simp] theorem setTh_cand (t : Nat) (x : Thread) : (s.setTh t x).cand = s.cand := rfl
@[simp] theorem setTh_errCnt (t : Nat) (x : Thread) : (s.setTh t x).errCnt = s.errCnt := rfl
@[simp] theorem setTh_fabTimeoutEvr (t : Nat) (x : Thread) : (s.setTh t x).fabTimeoutEvr = s.fabTimeoutEvr := rfl
@[simp] theorem setTh_log (t : Nat) (x : Thread) : (s.setTh t x).log = s.log := rfl
@[simp] theorem setTh_logSeq (t : Nat) (x : Thread) : (s.setTh t x).logSeq = s.logSeq := rfl
@[simp] theorem setTh_dom (t : Nat) (x : Thread) : (s.setTh t x).dom = s.dom := rfl
@[simp] theorem setTh_domReq (t : Nat) (x : Thread) : (s.setTh t x).domReq = s.domReq := rfl
@[simp] theorem setTh_frozen (t : Nat) (x : Thread) : (s.setTh t x).frozen = s.frozen := rfl
@[simp] theorem setTh_frzReq (t : Nat) (x : Thread) : (s.setTh t x).frzReq = s.frzReq := rfl
@[simp] theorem setTh_dramCap (t : Nat) (x : Thread) : (s.setTh t x).dramCap = s.dramCap := rfl
@[simp] theorem setTh_dram (t : Nat) (x : Thread) : (s.setTh t x).dram = s.dram := rfl
@[simp] theorem setTh_checkers (t : Nat) (x : Thread) : (s.setTh t x).checkers = s.checkers := rfl
@[simp] theorem setTh_memOff (t : Nat) (x : Thread) : (s.setTh t x).memOff = s.memOff := rfl
@[simp] theorem setTh_flashCap (t : Nat) (x : Thread) : (s.setTh t x).flashCap = s.flashCap := rfl
@[simp] theorem setTh_prot (t : Nat) (x : Thread) : (s.setTh t x).prot = s.prot := rfl
@[simp] theorem setTh_dbgLevel (t : Nat) (x : Thread) : (s.setTh t x).dbgLevel = s.dbgLevel := rfl
@[simp] theorem setTh_paired (t : Nat) (x : Thread) : (s.setTh t x).paired = s.paired := rfl
@[simp] theorem setTh_hm (t : Nat) (x : Thread) : (s.setTh t x).hm = s.hm := rfl
@[simp] theorem setTh_order (t : Nat) (x : Thread) : (s.setTh t x).order = s.order := rfl
@[simp] theorem setTh_pwr (t : Nat) (x : Thread) : (s.setTh t x).pwr = s.pwr := rfl
@[simp] theorem setTh_sec (t : Nat) (x : Thread) : (s.setTh t x).sec = s.sec := rfl
@[simp] theorem setTh_dbg (t : Nat) (x : Thread) : (s.setTh t x).dbg = s.dbg := rfl
@[simp] theorem setTh_trc (t : Nat) (x : Thread) : (s.setTh t x).trc = s.trc := rfl
@[simp] theorem setTh_perf (t : Nat) (x : Thread) : (s.setTh t x).perf = s.perf := rfl
@[simp] theorem setTh_gtbFrac (t : Nat) (x : Thread) : (s.setTh t x).gtbFrac = s.gtbFrac := rfl
@[simp] theorem setTh_lockLow (t : Nat) (x : Thread) : (s.setTh t x).lockLow = s.lockLow := rfl
@[simp] theorem setTh_lockMin (t : Nat) (x : Thread) : (s.setTh t x).lockMin = s.lockMin := rfl
@[simp] theorem setTh_eth (t : Nat) (x : Thread) : (s.setTh t x).eth = s.eth := rfl
@[simp] theorem setTh_pcie (t : Nat) (x : Thread) : (s.setTh t x).pcie = s.pcie := rfl
@[simp] theorem setTh_can (t : Nat) (x : Thread) : (s.setTh t x).can = s.can := rfl
@[simp] theorem setTh_csh (t : Nat) (x : Thread) : (s.setTh t x).csh = s.csh := rfl
@[simp] theorem setTh_bus (t : Nat) (x : Thread) : (s.setTh t x).bus = s.bus := rfl
@[simp] theorem setTh_gw (t : Nat) (x : Thread) : (s.setTh t x).gw = s.gw := rfl
@[simp] theorem setTh_tgp (t : Nat) (x : Thread) : (s.setTh t x).tgp = s.tgp := rfl
@[simp] theorem setTh_alarms (t : Nat) (x : Thread) : (s.setTh t x).alarms = s.alarms := rfl
@[simp] theorem setTh_rstReq (t : Nat) (x : Thread) : (s.setTh t x).rstReq = s.rstReq := rfl
@[simp] theorem setTh_waits (t : Nat) (x : Thread) : (s.setTh t x).waits = s.waits := rfl
@[simp] theorem setTh_rdata (t : Nat) (x : Thread) : (s.setTh t x).rdata = s.rdata := rfl
@[simp] theorem setTh_sspOut (t : Nat) (x : Thread) : (s.setTh t x).sspOut = s.sspOut := rfl
@[simp] theorem setTh_pending (t : Nat) (x : Thread) : (s.setTh t x).pending = s.pending := rfl

/-! ## `modTh` -/

@[simp] theorem modTh_time (t : Nat) (f : Thread → Thread) : (s.modTh t f).time = s.time := rfl
@[simp] theorem modTh_gtb (t : Nat) (f : Thread → Thread) : (s.modTh t f).gtb = s.gtb := rfl
@[simp] theorem modTh_free (t : Nat) (f : Thread → Thread) : (s.modTh t f).free = s.free := rfl
@[simp] theorem modTh_mem (t : Nat) (f : Thread → Thread) : (s.modTh t f).mem = s.mem := rfl
@[simp] theorem modTh_poison (t : Nat) (f : Thread → Thread) : (s.modTh t f).poison = s.poison := rfl
@[simp] theorem modTh_regs (t : Nat) (f : Thread → Thread) : (s.modTh t f).regs = s.regs := rfl
@[simp] theorem modTh_cores (t : Nat) (f : Thread → Thread) : (s.modTh t f).cores = s.cores := rfl
@[simp] theorem modTh_tlbs (t : Nat) (f : Thread → Thread) : (s.modTh t f).tlbs = s.tlbs := rfl
@[simp] theorem modTh_tlbis (t : Nat) (f : Thread → Thread) : (s.modTh t f).tlbis = s.tlbis := rfl
@[simp] theorem modTh_walks (t : Nat) (f : Thread → Thread) : (s.modTh t f).walks = s.walks := rfl
@[simp] theorem modTh_ioctx (t : Nat) (f : Thread → Thread) : (s.modTh t f).ioctx = s.ioctx := rfl
@[simp] theorem modTh_coh (t : Nat) (f : Thread → Thread) : (s.modTh t f).coh = s.coh := rfl
@[simp] theorem modTh_pat (t : Nat) (f : Thread → Thread) : (s.modTh t f).pat = s.pat := rfl
@[simp] theorem modTh_intake (t : Nat) (f : Thread → Thread) : (s.modTh t f).intake = s.intake := rfl
@[simp] theorem modTh_routeBad (t : Nat) (f : Thread → Thread) : (s.modTh t f).routeBad = s.routeBad := rfl
@[simp] theorem modTh_routeFlips (t : Nat) (f : Thread → Thread) : (s.modTh t f).routeFlips = s.routeFlips := rfl
@[simp] theorem modTh_cand (t : Nat) (f : Thread → Thread) : (s.modTh t f).cand = s.cand := rfl
@[simp] theorem modTh_errCnt (t : Nat) (f : Thread → Thread) : (s.modTh t f).errCnt = s.errCnt := rfl
@[simp] theorem modTh_fabTimeoutEvr (t : Nat) (f : Thread → Thread) : (s.modTh t f).fabTimeoutEvr = s.fabTimeoutEvr := rfl
@[simp] theorem modTh_log (t : Nat) (f : Thread → Thread) : (s.modTh t f).log = s.log := rfl
@[simp] theorem modTh_logSeq (t : Nat) (f : Thread → Thread) : (s.modTh t f).logSeq = s.logSeq := rfl
@[simp] theorem modTh_dom (t : Nat) (f : Thread → Thread) : (s.modTh t f).dom = s.dom := rfl
@[simp] theorem modTh_domReq (t : Nat) (f : Thread → Thread) : (s.modTh t f).domReq = s.domReq := rfl
@[simp] theorem modTh_frozen (t : Nat) (f : Thread → Thread) : (s.modTh t f).frozen = s.frozen := rfl
@[simp] theorem modTh_frzReq (t : Nat) (f : Thread → Thread) : (s.modTh t f).frzReq = s.frzReq := rfl
@[simp] theorem modTh_dramCap (t : Nat) (f : Thread → Thread) : (s.modTh t f).dramCap = s.dramCap := rfl
@[simp] theorem modTh_dram (t : Nat) (f : Thread → Thread) : (s.modTh t f).dram = s.dram := rfl
@[simp] theorem modTh_checkers (t : Nat) (f : Thread → Thread) : (s.modTh t f).checkers = s.checkers := rfl
@[simp] theorem modTh_memOff (t : Nat) (f : Thread → Thread) : (s.modTh t f).memOff = s.memOff := rfl
@[simp] theorem modTh_flashCap (t : Nat) (f : Thread → Thread) : (s.modTh t f).flashCap = s.flashCap := rfl
@[simp] theorem modTh_prot (t : Nat) (f : Thread → Thread) : (s.modTh t f).prot = s.prot := rfl
@[simp] theorem modTh_dbgLevel (t : Nat) (f : Thread → Thread) : (s.modTh t f).dbgLevel = s.dbgLevel := rfl
@[simp] theorem modTh_paired (t : Nat) (f : Thread → Thread) : (s.modTh t f).paired = s.paired := rfl
@[simp] theorem modTh_hm (t : Nat) (f : Thread → Thread) : (s.modTh t f).hm = s.hm := rfl
@[simp] theorem modTh_order (t : Nat) (f : Thread → Thread) : (s.modTh t f).order = s.order := rfl
@[simp] theorem modTh_pwr (t : Nat) (f : Thread → Thread) : (s.modTh t f).pwr = s.pwr := rfl
@[simp] theorem modTh_sec (t : Nat) (f : Thread → Thread) : (s.modTh t f).sec = s.sec := rfl
@[simp] theorem modTh_dbg (t : Nat) (f : Thread → Thread) : (s.modTh t f).dbg = s.dbg := rfl
@[simp] theorem modTh_trc (t : Nat) (f : Thread → Thread) : (s.modTh t f).trc = s.trc := rfl
@[simp] theorem modTh_perf (t : Nat) (f : Thread → Thread) : (s.modTh t f).perf = s.perf := rfl
@[simp] theorem modTh_gtbFrac (t : Nat) (f : Thread → Thread) : (s.modTh t f).gtbFrac = s.gtbFrac := rfl
@[simp] theorem modTh_lockLow (t : Nat) (f : Thread → Thread) : (s.modTh t f).lockLow = s.lockLow := rfl
@[simp] theorem modTh_lockMin (t : Nat) (f : Thread → Thread) : (s.modTh t f).lockMin = s.lockMin := rfl
@[simp] theorem modTh_eth (t : Nat) (f : Thread → Thread) : (s.modTh t f).eth = s.eth := rfl
@[simp] theorem modTh_pcie (t : Nat) (f : Thread → Thread) : (s.modTh t f).pcie = s.pcie := rfl
@[simp] theorem modTh_can (t : Nat) (f : Thread → Thread) : (s.modTh t f).can = s.can := rfl
@[simp] theorem modTh_csh (t : Nat) (f : Thread → Thread) : (s.modTh t f).csh = s.csh := rfl
@[simp] theorem modTh_bus (t : Nat) (f : Thread → Thread) : (s.modTh t f).bus = s.bus := rfl
@[simp] theorem modTh_gw (t : Nat) (f : Thread → Thread) : (s.modTh t f).gw = s.gw := rfl
@[simp] theorem modTh_tgp (t : Nat) (f : Thread → Thread) : (s.modTh t f).tgp = s.tgp := rfl
@[simp] theorem modTh_alarms (t : Nat) (f : Thread → Thread) : (s.modTh t f).alarms = s.alarms := rfl
@[simp] theorem modTh_rstReq (t : Nat) (f : Thread → Thread) : (s.modTh t f).rstReq = s.rstReq := rfl
@[simp] theorem modTh_waits (t : Nat) (f : Thread → Thread) : (s.modTh t f).waits = s.waits := rfl
@[simp] theorem modTh_rdata (t : Nat) (f : Thread → Thread) : (s.modTh t f).rdata = s.rdata := rfl
@[simp] theorem modTh_sspOut (t : Nat) (f : Thread → Thread) : (s.modTh t f).sspOut = s.sspOut := rfl
@[simp] theorem modTh_pending (t : Nat) (f : Thread → Thread) : (s.modTh t f).pending = s.pending := rfl

/-! ## `setCore` -/

@[simp] theorem setCore_time (c : Nat) (x : Core) : (s.setCore c x).time = s.time := rfl
@[simp] theorem setCore_gtb (c : Nat) (x : Core) : (s.setCore c x).gtb = s.gtb := rfl
@[simp] theorem setCore_free (c : Nat) (x : Core) : (s.setCore c x).free = s.free := rfl
@[simp] theorem setCore_mem (c : Nat) (x : Core) : (s.setCore c x).mem = s.mem := rfl
@[simp] theorem setCore_poison (c : Nat) (x : Core) : (s.setCore c x).poison = s.poison := rfl
@[simp] theorem setCore_regs (c : Nat) (x : Core) : (s.setCore c x).regs = s.regs := rfl
@[simp] theorem setCore_thr (c : Nat) (x : Core) : (s.setCore c x).thr = s.thr := rfl
@[simp] theorem setCore_tlbs (c : Nat) (x : Core) : (s.setCore c x).tlbs = s.tlbs := rfl
@[simp] theorem setCore_tlbis (c : Nat) (x : Core) : (s.setCore c x).tlbis = s.tlbis := rfl
@[simp] theorem setCore_walks (c : Nat) (x : Core) : (s.setCore c x).walks = s.walks := rfl
@[simp] theorem setCore_ioctx (c : Nat) (x : Core) : (s.setCore c x).ioctx = s.ioctx := rfl
@[simp] theorem setCore_coh (c : Nat) (x : Core) : (s.setCore c x).coh = s.coh := rfl
@[simp] theorem setCore_pat (c : Nat) (x : Core) : (s.setCore c x).pat = s.pat := rfl
@[simp] theorem setCore_intake (c : Nat) (x : Core) : (s.setCore c x).intake = s.intake := rfl
@[simp] theorem setCore_routeBad (c : Nat) (x : Core) : (s.setCore c x).routeBad = s.routeBad := rfl
@[simp] theorem setCore_routeFlips (c : Nat) (x : Core) : (s.setCore c x).routeFlips = s.routeFlips := rfl
@[simp] theorem setCore_cand (c : Nat) (x : Core) : (s.setCore c x).cand = s.cand := rfl
@[simp] theorem setCore_errCnt (c : Nat) (x : Core) : (s.setCore c x).errCnt = s.errCnt := rfl
@[simp] theorem setCore_fabTimeoutEvr (c : Nat) (x : Core) : (s.setCore c x).fabTimeoutEvr = s.fabTimeoutEvr := rfl
@[simp] theorem setCore_log (c : Nat) (x : Core) : (s.setCore c x).log = s.log := rfl
@[simp] theorem setCore_logSeq (c : Nat) (x : Core) : (s.setCore c x).logSeq = s.logSeq := rfl
@[simp] theorem setCore_dom (c : Nat) (x : Core) : (s.setCore c x).dom = s.dom := rfl
@[simp] theorem setCore_domReq (c : Nat) (x : Core) : (s.setCore c x).domReq = s.domReq := rfl
@[simp] theorem setCore_frozen (c : Nat) (x : Core) : (s.setCore c x).frozen = s.frozen := rfl
@[simp] theorem setCore_frzReq (c : Nat) (x : Core) : (s.setCore c x).frzReq = s.frzReq := rfl
@[simp] theorem setCore_dramCap (c : Nat) (x : Core) : (s.setCore c x).dramCap = s.dramCap := rfl
@[simp] theorem setCore_dram (c : Nat) (x : Core) : (s.setCore c x).dram = s.dram := rfl
@[simp] theorem setCore_checkers (c : Nat) (x : Core) : (s.setCore c x).checkers = s.checkers := rfl
@[simp] theorem setCore_memOff (c : Nat) (x : Core) : (s.setCore c x).memOff = s.memOff := rfl
@[simp] theorem setCore_flashCap (c : Nat) (x : Core) : (s.setCore c x).flashCap = s.flashCap := rfl
@[simp] theorem setCore_prot (c : Nat) (x : Core) : (s.setCore c x).prot = s.prot := rfl
@[simp] theorem setCore_dbgLevel (c : Nat) (x : Core) : (s.setCore c x).dbgLevel = s.dbgLevel := rfl
@[simp] theorem setCore_paired (c : Nat) (x : Core) : (s.setCore c x).paired = s.paired := rfl
@[simp] theorem setCore_hm (c : Nat) (x : Core) : (s.setCore c x).hm = s.hm := rfl
@[simp] theorem setCore_order (c : Nat) (x : Core) : (s.setCore c x).order = s.order := rfl
@[simp] theorem setCore_pwr (c : Nat) (x : Core) : (s.setCore c x).pwr = s.pwr := rfl
@[simp] theorem setCore_sec (c : Nat) (x : Core) : (s.setCore c x).sec = s.sec := rfl
@[simp] theorem setCore_dbg (c : Nat) (x : Core) : (s.setCore c x).dbg = s.dbg := rfl
@[simp] theorem setCore_trc (c : Nat) (x : Core) : (s.setCore c x).trc = s.trc := rfl
@[simp] theorem setCore_perf (c : Nat) (x : Core) : (s.setCore c x).perf = s.perf := rfl
@[simp] theorem setCore_gtbFrac (c : Nat) (x : Core) : (s.setCore c x).gtbFrac = s.gtbFrac := rfl
@[simp] theorem setCore_lockLow (c : Nat) (x : Core) : (s.setCore c x).lockLow = s.lockLow := rfl
@[simp] theorem setCore_lockMin (c : Nat) (x : Core) : (s.setCore c x).lockMin = s.lockMin := rfl
@[simp] theorem setCore_eth (c : Nat) (x : Core) : (s.setCore c x).eth = s.eth := rfl
@[simp] theorem setCore_pcie (c : Nat) (x : Core) : (s.setCore c x).pcie = s.pcie := rfl
@[simp] theorem setCore_can (c : Nat) (x : Core) : (s.setCore c x).can = s.can := rfl
@[simp] theorem setCore_csh (c : Nat) (x : Core) : (s.setCore c x).csh = s.csh := rfl
@[simp] theorem setCore_bus (c : Nat) (x : Core) : (s.setCore c x).bus = s.bus := rfl
@[simp] theorem setCore_gw (c : Nat) (x : Core) : (s.setCore c x).gw = s.gw := rfl
@[simp] theorem setCore_tgp (c : Nat) (x : Core) : (s.setCore c x).tgp = s.tgp := rfl
@[simp] theorem setCore_alarms (c : Nat) (x : Core) : (s.setCore c x).alarms = s.alarms := rfl
@[simp] theorem setCore_rstReq (c : Nat) (x : Core) : (s.setCore c x).rstReq = s.rstReq := rfl
@[simp] theorem setCore_waits (c : Nat) (x : Core) : (s.setCore c x).waits = s.waits := rfl
@[simp] theorem setCore_rdata (c : Nat) (x : Core) : (s.setCore c x).rdata = s.rdata := rfl
@[simp] theorem setCore_sspOut (c : Nat) (x : Core) : (s.setCore c x).sspOut = s.sspOut := rfl
@[simp] theorem setCore_pending (c : Nat) (x : Core) : (s.setCore c x).pending = s.pending := rfl

/-! ## `modCore` -/

@[simp] theorem modCore_time (c : Nat) (f : Core → Core) : (s.modCore c f).time = s.time := rfl
@[simp] theorem modCore_gtb (c : Nat) (f : Core → Core) : (s.modCore c f).gtb = s.gtb := rfl
@[simp] theorem modCore_free (c : Nat) (f : Core → Core) : (s.modCore c f).free = s.free := rfl
@[simp] theorem modCore_mem (c : Nat) (f : Core → Core) : (s.modCore c f).mem = s.mem := rfl
@[simp] theorem modCore_poison (c : Nat) (f : Core → Core) : (s.modCore c f).poison = s.poison := rfl
@[simp] theorem modCore_regs (c : Nat) (f : Core → Core) : (s.modCore c f).regs = s.regs := rfl
@[simp] theorem modCore_thr (c : Nat) (f : Core → Core) : (s.modCore c f).thr = s.thr := rfl
@[simp] theorem modCore_tlbs (c : Nat) (f : Core → Core) : (s.modCore c f).tlbs = s.tlbs := rfl
@[simp] theorem modCore_tlbis (c : Nat) (f : Core → Core) : (s.modCore c f).tlbis = s.tlbis := rfl
@[simp] theorem modCore_walks (c : Nat) (f : Core → Core) : (s.modCore c f).walks = s.walks := rfl
@[simp] theorem modCore_ioctx (c : Nat) (f : Core → Core) : (s.modCore c f).ioctx = s.ioctx := rfl
@[simp] theorem modCore_coh (c : Nat) (f : Core → Core) : (s.modCore c f).coh = s.coh := rfl
@[simp] theorem modCore_pat (c : Nat) (f : Core → Core) : (s.modCore c f).pat = s.pat := rfl
@[simp] theorem modCore_intake (c : Nat) (f : Core → Core) : (s.modCore c f).intake = s.intake := rfl
@[simp] theorem modCore_routeBad (c : Nat) (f : Core → Core) : (s.modCore c f).routeBad = s.routeBad := rfl
@[simp] theorem modCore_routeFlips (c : Nat) (f : Core → Core) : (s.modCore c f).routeFlips = s.routeFlips := rfl
@[simp] theorem modCore_cand (c : Nat) (f : Core → Core) : (s.modCore c f).cand = s.cand := rfl
@[simp] theorem modCore_errCnt (c : Nat) (f : Core → Core) : (s.modCore c f).errCnt = s.errCnt := rfl
@[simp] theorem modCore_fabTimeoutEvr (c : Nat) (f : Core → Core) : (s.modCore c f).fabTimeoutEvr = s.fabTimeoutEvr := rfl
@[simp] theorem modCore_log (c : Nat) (f : Core → Core) : (s.modCore c f).log = s.log := rfl
@[simp] theorem modCore_logSeq (c : Nat) (f : Core → Core) : (s.modCore c f).logSeq = s.logSeq := rfl
@[simp] theorem modCore_dom (c : Nat) (f : Core → Core) : (s.modCore c f).dom = s.dom := rfl
@[simp] theorem modCore_domReq (c : Nat) (f : Core → Core) : (s.modCore c f).domReq = s.domReq := rfl
@[simp] theorem modCore_frozen (c : Nat) (f : Core → Core) : (s.modCore c f).frozen = s.frozen := rfl
@[simp] theorem modCore_frzReq (c : Nat) (f : Core → Core) : (s.modCore c f).frzReq = s.frzReq := rfl
@[simp] theorem modCore_dramCap (c : Nat) (f : Core → Core) : (s.modCore c f).dramCap = s.dramCap := rfl
@[simp] theorem modCore_dram (c : Nat) (f : Core → Core) : (s.modCore c f).dram = s.dram := rfl
@[simp] theorem modCore_checkers (c : Nat) (f : Core → Core) : (s.modCore c f).checkers = s.checkers := rfl
@[simp] theorem modCore_memOff (c : Nat) (f : Core → Core) : (s.modCore c f).memOff = s.memOff := rfl
@[simp] theorem modCore_flashCap (c : Nat) (f : Core → Core) : (s.modCore c f).flashCap = s.flashCap := rfl
@[simp] theorem modCore_prot (c : Nat) (f : Core → Core) : (s.modCore c f).prot = s.prot := rfl
@[simp] theorem modCore_dbgLevel (c : Nat) (f : Core → Core) : (s.modCore c f).dbgLevel = s.dbgLevel := rfl
@[simp] theorem modCore_paired (c : Nat) (f : Core → Core) : (s.modCore c f).paired = s.paired := rfl
@[simp] theorem modCore_hm (c : Nat) (f : Core → Core) : (s.modCore c f).hm = s.hm := rfl
@[simp] theorem modCore_order (c : Nat) (f : Core → Core) : (s.modCore c f).order = s.order := rfl
@[simp] theorem modCore_pwr (c : Nat) (f : Core → Core) : (s.modCore c f).pwr = s.pwr := rfl
@[simp] theorem modCore_sec (c : Nat) (f : Core → Core) : (s.modCore c f).sec = s.sec := rfl
@[simp] theorem modCore_dbg (c : Nat) (f : Core → Core) : (s.modCore c f).dbg = s.dbg := rfl
@[simp] theorem modCore_trc (c : Nat) (f : Core → Core) : (s.modCore c f).trc = s.trc := rfl
@[simp] theorem modCore_perf (c : Nat) (f : Core → Core) : (s.modCore c f).perf = s.perf := rfl
@[simp] theorem modCore_gtbFrac (c : Nat) (f : Core → Core) : (s.modCore c f).gtbFrac = s.gtbFrac := rfl
@[simp] theorem modCore_lockLow (c : Nat) (f : Core → Core) : (s.modCore c f).lockLow = s.lockLow := rfl
@[simp] theorem modCore_lockMin (c : Nat) (f : Core → Core) : (s.modCore c f).lockMin = s.lockMin := rfl
@[simp] theorem modCore_eth (c : Nat) (f : Core → Core) : (s.modCore c f).eth = s.eth := rfl
@[simp] theorem modCore_pcie (c : Nat) (f : Core → Core) : (s.modCore c f).pcie = s.pcie := rfl
@[simp] theorem modCore_can (c : Nat) (f : Core → Core) : (s.modCore c f).can = s.can := rfl
@[simp] theorem modCore_csh (c : Nat) (f : Core → Core) : (s.modCore c f).csh = s.csh := rfl
@[simp] theorem modCore_bus (c : Nat) (f : Core → Core) : (s.modCore c f).bus = s.bus := rfl
@[simp] theorem modCore_gw (c : Nat) (f : Core → Core) : (s.modCore c f).gw = s.gw := rfl
@[simp] theorem modCore_tgp (c : Nat) (f : Core → Core) : (s.modCore c f).tgp = s.tgp := rfl
@[simp] theorem modCore_alarms (c : Nat) (f : Core → Core) : (s.modCore c f).alarms = s.alarms := rfl
@[simp] theorem modCore_rstReq (c : Nat) (f : Core → Core) : (s.modCore c f).rstReq = s.rstReq := rfl
@[simp] theorem modCore_waits (c : Nat) (f : Core → Core) : (s.modCore c f).waits = s.waits := rfl
@[simp] theorem modCore_rdata (c : Nat) (f : Core → Core) : (s.modCore c f).rdata = s.rdata := rfl
@[simp] theorem modCore_sspOut (c : Nat) (f : Core → Core) : (s.modCore c f).sspOut = s.sspOut := rfl
@[simp] theorem modCore_pending (c : Nat) (f : Core → Core) : (s.modCore c f).pending = s.pending := rfl

/-! ## `wrByte` -/

@[simp] theorem wrByte_time (a : Nat) (b : Byte) : (s.wrByte a b).time = s.time := rfl
@[simp] theorem wrByte_gtb (a : Nat) (b : Byte) : (s.wrByte a b).gtb = s.gtb := rfl
@[simp] theorem wrByte_free (a : Nat) (b : Byte) : (s.wrByte a b).free = s.free := rfl
@[simp] theorem wrByte_poison (a : Nat) (b : Byte) : (s.wrByte a b).poison = s.poison := rfl
@[simp] theorem wrByte_regs (a : Nat) (b : Byte) : (s.wrByte a b).regs = s.regs := rfl
@[simp] theorem wrByte_thr (a : Nat) (b : Byte) : (s.wrByte a b).thr = s.thr := rfl
@[simp] theorem wrByte_cores (a : Nat) (b : Byte) : (s.wrByte a b).cores = s.cores := rfl
@[simp] theorem wrByte_tlbs (a : Nat) (b : Byte) : (s.wrByte a b).tlbs = s.tlbs := rfl
@[simp] theorem wrByte_tlbis (a : Nat) (b : Byte) : (s.wrByte a b).tlbis = s.tlbis := rfl
@[simp] theorem wrByte_walks (a : Nat) (b : Byte) : (s.wrByte a b).walks = s.walks := rfl
@[simp] theorem wrByte_ioctx (a : Nat) (b : Byte) : (s.wrByte a b).ioctx = s.ioctx := rfl
@[simp] theorem wrByte_coh (a : Nat) (b : Byte) : (s.wrByte a b).coh = s.coh := rfl
@[simp] theorem wrByte_pat (a : Nat) (b : Byte) : (s.wrByte a b).pat = s.pat := rfl
@[simp] theorem wrByte_intake (a : Nat) (b : Byte) : (s.wrByte a b).intake = s.intake := rfl
@[simp] theorem wrByte_routeBad (a : Nat) (b : Byte) : (s.wrByte a b).routeBad = s.routeBad := rfl
@[simp] theorem wrByte_routeFlips (a : Nat) (b : Byte) : (s.wrByte a b).routeFlips = s.routeFlips := rfl
@[simp] theorem wrByte_cand (a : Nat) (b : Byte) : (s.wrByte a b).cand = s.cand := rfl
@[simp] theorem wrByte_errCnt (a : Nat) (b : Byte) : (s.wrByte a b).errCnt = s.errCnt := rfl
@[simp] theorem wrByte_fabTimeoutEvr (a : Nat) (b : Byte) : (s.wrByte a b).fabTimeoutEvr = s.fabTimeoutEvr := rfl
@[simp] theorem wrByte_log (a : Nat) (b : Byte) : (s.wrByte a b).log = s.log := rfl
@[simp] theorem wrByte_logSeq (a : Nat) (b : Byte) : (s.wrByte a b).logSeq = s.logSeq := rfl
@[simp] theorem wrByte_dom (a : Nat) (b : Byte) : (s.wrByte a b).dom = s.dom := rfl
@[simp] theorem wrByte_domReq (a : Nat) (b : Byte) : (s.wrByte a b).domReq = s.domReq := rfl
@[simp] theorem wrByte_frozen (a : Nat) (b : Byte) : (s.wrByte a b).frozen = s.frozen := rfl
@[simp] theorem wrByte_frzReq (a : Nat) (b : Byte) : (s.wrByte a b).frzReq = s.frzReq := rfl
@[simp] theorem wrByte_dramCap (a : Nat) (b : Byte) : (s.wrByte a b).dramCap = s.dramCap := rfl
@[simp] theorem wrByte_dram (a : Nat) (b : Byte) : (s.wrByte a b).dram = s.dram := rfl
@[simp] theorem wrByte_checkers (a : Nat) (b : Byte) : (s.wrByte a b).checkers = s.checkers := rfl
@[simp] theorem wrByte_memOff (a : Nat) (b : Byte) : (s.wrByte a b).memOff = s.memOff := rfl
@[simp] theorem wrByte_flashCap (a : Nat) (b : Byte) : (s.wrByte a b).flashCap = s.flashCap := rfl
@[simp] theorem wrByte_prot (a : Nat) (b : Byte) : (s.wrByte a b).prot = s.prot := rfl
@[simp] theorem wrByte_dbgLevel (a : Nat) (b : Byte) : (s.wrByte a b).dbgLevel = s.dbgLevel := rfl
@[simp] theorem wrByte_paired (a : Nat) (b : Byte) : (s.wrByte a b).paired = s.paired := rfl
@[simp] theorem wrByte_hm (a : Nat) (b : Byte) : (s.wrByte a b).hm = s.hm := rfl
@[simp] theorem wrByte_order (a : Nat) (b : Byte) : (s.wrByte a b).order = s.order := rfl
@[simp] theorem wrByte_pwr (a : Nat) (b : Byte) : (s.wrByte a b).pwr = s.pwr := rfl
@[simp] theorem wrByte_sec (a : Nat) (b : Byte) : (s.wrByte a b).sec = s.sec := rfl
@[simp] theorem wrByte_dbg (a : Nat) (b : Byte) : (s.wrByte a b).dbg = s.dbg := rfl
@[simp] theorem wrByte_trc (a : Nat) (b : Byte) : (s.wrByte a b).trc = s.trc := rfl
@[simp] theorem wrByte_perf (a : Nat) (b : Byte) : (s.wrByte a b).perf = s.perf := rfl
@[simp] theorem wrByte_gtbFrac (a : Nat) (b : Byte) : (s.wrByte a b).gtbFrac = s.gtbFrac := rfl
@[simp] theorem wrByte_lockLow (a : Nat) (b : Byte) : (s.wrByte a b).lockLow = s.lockLow := rfl
@[simp] theorem wrByte_lockMin (a : Nat) (b : Byte) : (s.wrByte a b).lockMin = s.lockMin := rfl
@[simp] theorem wrByte_eth (a : Nat) (b : Byte) : (s.wrByte a b).eth = s.eth := rfl
@[simp] theorem wrByte_pcie (a : Nat) (b : Byte) : (s.wrByte a b).pcie = s.pcie := rfl
@[simp] theorem wrByte_can (a : Nat) (b : Byte) : (s.wrByte a b).can = s.can := rfl
@[simp] theorem wrByte_csh (a : Nat) (b : Byte) : (s.wrByte a b).csh = s.csh := rfl
@[simp] theorem wrByte_bus (a : Nat) (b : Byte) : (s.wrByte a b).bus = s.bus := rfl
@[simp] theorem wrByte_gw (a : Nat) (b : Byte) : (s.wrByte a b).gw = s.gw := rfl
@[simp] theorem wrByte_tgp (a : Nat) (b : Byte) : (s.wrByte a b).tgp = s.tgp := rfl
@[simp] theorem wrByte_alarms (a : Nat) (b : Byte) : (s.wrByte a b).alarms = s.alarms := rfl
@[simp] theorem wrByte_rstReq (a : Nat) (b : Byte) : (s.wrByte a b).rstReq = s.rstReq := rfl
@[simp] theorem wrByte_waits (a : Nat) (b : Byte) : (s.wrByte a b).waits = s.waits := rfl
@[simp] theorem wrByte_rdata (a : Nat) (b : Byte) : (s.wrByte a b).rdata = s.rdata := rfl
@[simp] theorem wrByte_sspOut (a : Nat) (b : Byte) : (s.wrByte a b).sspOut = s.sspOut := rfl
@[simp] theorem wrByte_pending (a : Nat) (b : Byte) : (s.wrByte a b).pending = s.pending := rfl

/-! ## `wrBytes` -/

@[simp] theorem wrBytes_time (a : Nat) (bs : List Byte) : (s.wrBytes a bs).time = s.time := rfl
@[simp] theorem wrBytes_gtb (a : Nat) (bs : List Byte) : (s.wrBytes a bs).gtb = s.gtb := rfl
@[simp] theorem wrBytes_free (a : Nat) (bs : List Byte) : (s.wrBytes a bs).free = s.free := rfl
@[simp] theorem wrBytes_poison (a : Nat) (bs : List Byte) : (s.wrBytes a bs).poison = s.poison := rfl
@[simp] theorem wrBytes_regs (a : Nat) (bs : List Byte) : (s.wrBytes a bs).regs = s.regs := rfl
@[simp] theorem wrBytes_thr (a : Nat) (bs : List Byte) : (s.wrBytes a bs).thr = s.thr := rfl
@[simp] theorem wrBytes_cores (a : Nat) (bs : List Byte) : (s.wrBytes a bs).cores = s.cores := rfl
@[simp] theorem wrBytes_tlbs (a : Nat) (bs : List Byte) : (s.wrBytes a bs).tlbs = s.tlbs := rfl
@[simp] theorem wrBytes_tlbis (a : Nat) (bs : List Byte) : (s.wrBytes a bs).tlbis = s.tlbis := rfl
@[simp] theorem wrBytes_walks (a : Nat) (bs : List Byte) : (s.wrBytes a bs).walks = s.walks := rfl
@[simp] theorem wrBytes_ioctx (a : Nat) (bs : List Byte) : (s.wrBytes a bs).ioctx = s.ioctx := rfl
@[simp] theorem wrBytes_coh (a : Nat) (bs : List Byte) : (s.wrBytes a bs).coh = s.coh := rfl
@[simp] theorem wrBytes_pat (a : Nat) (bs : List Byte) : (s.wrBytes a bs).pat = s.pat := rfl
@[simp] theorem wrBytes_intake (a : Nat) (bs : List Byte) : (s.wrBytes a bs).intake = s.intake := rfl
@[simp] theorem wrBytes_routeBad (a : Nat) (bs : List Byte) : (s.wrBytes a bs).routeBad = s.routeBad := rfl
@[simp] theorem wrBytes_routeFlips (a : Nat) (bs : List Byte) : (s.wrBytes a bs).routeFlips = s.routeFlips := rfl
@[simp] theorem wrBytes_cand (a : Nat) (bs : List Byte) : (s.wrBytes a bs).cand = s.cand := rfl
@[simp] theorem wrBytes_errCnt (a : Nat) (bs : List Byte) : (s.wrBytes a bs).errCnt = s.errCnt := rfl
@[simp] theorem wrBytes_fabTimeoutEvr (a : Nat) (bs : List Byte) : (s.wrBytes a bs).fabTimeoutEvr = s.fabTimeoutEvr := rfl
@[simp] theorem wrBytes_log (a : Nat) (bs : List Byte) : (s.wrBytes a bs).log = s.log := rfl
@[simp] theorem wrBytes_logSeq (a : Nat) (bs : List Byte) : (s.wrBytes a bs).logSeq = s.logSeq := rfl
@[simp] theorem wrBytes_dom (a : Nat) (bs : List Byte) : (s.wrBytes a bs).dom = s.dom := rfl
@[simp] theorem wrBytes_domReq (a : Nat) (bs : List Byte) : (s.wrBytes a bs).domReq = s.domReq := rfl
@[simp] theorem wrBytes_frozen (a : Nat) (bs : List Byte) : (s.wrBytes a bs).frozen = s.frozen := rfl
@[simp] theorem wrBytes_frzReq (a : Nat) (bs : List Byte) : (s.wrBytes a bs).frzReq = s.frzReq := rfl
@[simp] theorem wrBytes_dramCap (a : Nat) (bs : List Byte) : (s.wrBytes a bs).dramCap = s.dramCap := rfl
@[simp] theorem wrBytes_dram (a : Nat) (bs : List Byte) : (s.wrBytes a bs).dram = s.dram := rfl
@[simp] theorem wrBytes_checkers (a : Nat) (bs : List Byte) : (s.wrBytes a bs).checkers = s.checkers := rfl
@[simp] theorem wrBytes_memOff (a : Nat) (bs : List Byte) : (s.wrBytes a bs).memOff = s.memOff := rfl
@[simp] theorem wrBytes_flashCap (a : Nat) (bs : List Byte) : (s.wrBytes a bs).flashCap = s.flashCap := rfl
@[simp] theorem wrBytes_prot (a : Nat) (bs : List Byte) : (s.wrBytes a bs).prot = s.prot := rfl
@[simp] theorem wrBytes_dbgLevel (a : Nat) (bs : List Byte) : (s.wrBytes a bs).dbgLevel = s.dbgLevel := rfl
@[simp] theorem wrBytes_paired (a : Nat) (bs : List Byte) : (s.wrBytes a bs).paired = s.paired := rfl
@[simp] theorem wrBytes_hm (a : Nat) (bs : List Byte) : (s.wrBytes a bs).hm = s.hm := rfl
@[simp] theorem wrBytes_order (a : Nat) (bs : List Byte) : (s.wrBytes a bs).order = s.order := rfl
@[simp] theorem wrBytes_pwr (a : Nat) (bs : List Byte) : (s.wrBytes a bs).pwr = s.pwr := rfl
@[simp] theorem wrBytes_sec (a : Nat) (bs : List Byte) : (s.wrBytes a bs).sec = s.sec := rfl
@[simp] theorem wrBytes_dbg (a : Nat) (bs : List Byte) : (s.wrBytes a bs).dbg = s.dbg := rfl
@[simp] theorem wrBytes_trc (a : Nat) (bs : List Byte) : (s.wrBytes a bs).trc = s.trc := rfl
@[simp] theorem wrBytes_perf (a : Nat) (bs : List Byte) : (s.wrBytes a bs).perf = s.perf := rfl
@[simp] theorem wrBytes_gtbFrac (a : Nat) (bs : List Byte) : (s.wrBytes a bs).gtbFrac = s.gtbFrac := rfl
@[simp] theorem wrBytes_lockLow (a : Nat) (bs : List Byte) : (s.wrBytes a bs).lockLow = s.lockLow := rfl
@[simp] theorem wrBytes_lockMin (a : Nat) (bs : List Byte) : (s.wrBytes a bs).lockMin = s.lockMin := rfl
@[simp] theorem wrBytes_eth (a : Nat) (bs : List Byte) : (s.wrBytes a bs).eth = s.eth := rfl
@[simp] theorem wrBytes_pcie (a : Nat) (bs : List Byte) : (s.wrBytes a bs).pcie = s.pcie := rfl
@[simp] theorem wrBytes_can (a : Nat) (bs : List Byte) : (s.wrBytes a bs).can = s.can := rfl
@[simp] theorem wrBytes_csh (a : Nat) (bs : List Byte) : (s.wrBytes a bs).csh = s.csh := rfl
@[simp] theorem wrBytes_bus (a : Nat) (bs : List Byte) : (s.wrBytes a bs).bus = s.bus := rfl
@[simp] theorem wrBytes_gw (a : Nat) (bs : List Byte) : (s.wrBytes a bs).gw = s.gw := rfl
@[simp] theorem wrBytes_tgp (a : Nat) (bs : List Byte) : (s.wrBytes a bs).tgp = s.tgp := rfl
@[simp] theorem wrBytes_alarms (a : Nat) (bs : List Byte) : (s.wrBytes a bs).alarms = s.alarms := rfl
@[simp] theorem wrBytes_rstReq (a : Nat) (bs : List Byte) : (s.wrBytes a bs).rstReq = s.rstReq := rfl
@[simp] theorem wrBytes_waits (a : Nat) (bs : List Byte) : (s.wrBytes a bs).waits = s.waits := rfl
@[simp] theorem wrBytes_rdata (a : Nat) (bs : List Byte) : (s.wrBytes a bs).rdata = s.rdata := rfl
@[simp] theorem wrBytes_sspOut (a : Nat) (bs : List Byte) : (s.wrBytes a bs).sspOut = s.sspOut := rfl
@[simp] theorem wrBytes_pending (a : Nat) (bs : List Byte) : (s.wrBytes a bs).pending = s.pending := rfl

/-! ## `setPoison` -/

@[simp] theorem setPoison_time (a : Nat) (b : Bool) : (s.setPoison a b).time = s.time := rfl
@[simp] theorem setPoison_gtb (a : Nat) (b : Bool) : (s.setPoison a b).gtb = s.gtb := rfl
@[simp] theorem setPoison_free (a : Nat) (b : Bool) : (s.setPoison a b).free = s.free := rfl
@[simp] theorem setPoison_mem (a : Nat) (b : Bool) : (s.setPoison a b).mem = s.mem := rfl
@[simp] theorem setPoison_regs (a : Nat) (b : Bool) : (s.setPoison a b).regs = s.regs := rfl
@[simp] theorem setPoison_thr (a : Nat) (b : Bool) : (s.setPoison a b).thr = s.thr := rfl
@[simp] theorem setPoison_cores (a : Nat) (b : Bool) : (s.setPoison a b).cores = s.cores := rfl
@[simp] theorem setPoison_tlbs (a : Nat) (b : Bool) : (s.setPoison a b).tlbs = s.tlbs := rfl
@[simp] theorem setPoison_tlbis (a : Nat) (b : Bool) : (s.setPoison a b).tlbis = s.tlbis := rfl
@[simp] theorem setPoison_walks (a : Nat) (b : Bool) : (s.setPoison a b).walks = s.walks := rfl
@[simp] theorem setPoison_ioctx (a : Nat) (b : Bool) : (s.setPoison a b).ioctx = s.ioctx := rfl
@[simp] theorem setPoison_coh (a : Nat) (b : Bool) : (s.setPoison a b).coh = s.coh := rfl
@[simp] theorem setPoison_pat (a : Nat) (b : Bool) : (s.setPoison a b).pat = s.pat := rfl
@[simp] theorem setPoison_intake (a : Nat) (b : Bool) : (s.setPoison a b).intake = s.intake := rfl
@[simp] theorem setPoison_routeBad (a : Nat) (b : Bool) : (s.setPoison a b).routeBad = s.routeBad := rfl
@[simp] theorem setPoison_routeFlips (a : Nat) (b : Bool) : (s.setPoison a b).routeFlips = s.routeFlips := rfl
@[simp] theorem setPoison_cand (a : Nat) (b : Bool) : (s.setPoison a b).cand = s.cand := rfl
@[simp] theorem setPoison_errCnt (a : Nat) (b : Bool) : (s.setPoison a b).errCnt = s.errCnt := rfl
@[simp] theorem setPoison_fabTimeoutEvr (a : Nat) (b : Bool) : (s.setPoison a b).fabTimeoutEvr = s.fabTimeoutEvr := rfl
@[simp] theorem setPoison_log (a : Nat) (b : Bool) : (s.setPoison a b).log = s.log := rfl
@[simp] theorem setPoison_logSeq (a : Nat) (b : Bool) : (s.setPoison a b).logSeq = s.logSeq := rfl
@[simp] theorem setPoison_dom (a : Nat) (b : Bool) : (s.setPoison a b).dom = s.dom := rfl
@[simp] theorem setPoison_domReq (a : Nat) (b : Bool) : (s.setPoison a b).domReq = s.domReq := rfl
@[simp] theorem setPoison_frozen (a : Nat) (b : Bool) : (s.setPoison a b).frozen = s.frozen := rfl
@[simp] theorem setPoison_frzReq (a : Nat) (b : Bool) : (s.setPoison a b).frzReq = s.frzReq := rfl
@[simp] theorem setPoison_dramCap (a : Nat) (b : Bool) : (s.setPoison a b).dramCap = s.dramCap := rfl
@[simp] theorem setPoison_dram (a : Nat) (b : Bool) : (s.setPoison a b).dram = s.dram := rfl
@[simp] theorem setPoison_checkers (a : Nat) (b : Bool) : (s.setPoison a b).checkers = s.checkers := rfl
@[simp] theorem setPoison_memOff (a : Nat) (b : Bool) : (s.setPoison a b).memOff = s.memOff := rfl
@[simp] theorem setPoison_flashCap (a : Nat) (b : Bool) : (s.setPoison a b).flashCap = s.flashCap := rfl
@[simp] theorem setPoison_prot (a : Nat) (b : Bool) : (s.setPoison a b).prot = s.prot := rfl
@[simp] theorem setPoison_dbgLevel (a : Nat) (b : Bool) : (s.setPoison a b).dbgLevel = s.dbgLevel := rfl
@[simp] theorem setPoison_paired (a : Nat) (b : Bool) : (s.setPoison a b).paired = s.paired := rfl
@[simp] theorem setPoison_hm (a : Nat) (b : Bool) : (s.setPoison a b).hm = s.hm := rfl
@[simp] theorem setPoison_order (a : Nat) (b : Bool) : (s.setPoison a b).order = s.order := rfl
@[simp] theorem setPoison_pwr (a : Nat) (b : Bool) : (s.setPoison a b).pwr = s.pwr := rfl
@[simp] theorem setPoison_sec (a : Nat) (b : Bool) : (s.setPoison a b).sec = s.sec := rfl
@[simp] theorem setPoison_dbg (a : Nat) (b : Bool) : (s.setPoison a b).dbg = s.dbg := rfl
@[simp] theorem setPoison_trc (a : Nat) (b : Bool) : (s.setPoison a b).trc = s.trc := rfl
@[simp] theorem setPoison_perf (a : Nat) (b : Bool) : (s.setPoison a b).perf = s.perf := rfl
@[simp] theorem setPoison_gtbFrac (a : Nat) (b : Bool) : (s.setPoison a b).gtbFrac = s.gtbFrac := rfl
@[simp] theorem setPoison_lockLow (a : Nat) (b : Bool) : (s.setPoison a b).lockLow = s.lockLow := rfl
@[simp] theorem setPoison_lockMin (a : Nat) (b : Bool) : (s.setPoison a b).lockMin = s.lockMin := rfl
@[simp] theorem setPoison_eth (a : Nat) (b : Bool) : (s.setPoison a b).eth = s.eth := rfl
@[simp] theorem setPoison_pcie (a : Nat) (b : Bool) : (s.setPoison a b).pcie = s.pcie := rfl
@[simp] theorem setPoison_can (a : Nat) (b : Bool) : (s.setPoison a b).can = s.can := rfl
@[simp] theorem setPoison_csh (a : Nat) (b : Bool) : (s.setPoison a b).csh = s.csh := rfl
@[simp] theorem setPoison_bus (a : Nat) (b : Bool) : (s.setPoison a b).bus = s.bus := rfl
@[simp] theorem setPoison_gw (a : Nat) (b : Bool) : (s.setPoison a b).gw = s.gw := rfl
@[simp] theorem setPoison_tgp (a : Nat) (b : Bool) : (s.setPoison a b).tgp = s.tgp := rfl
@[simp] theorem setPoison_alarms (a : Nat) (b : Bool) : (s.setPoison a b).alarms = s.alarms := rfl
@[simp] theorem setPoison_rstReq (a : Nat) (b : Bool) : (s.setPoison a b).rstReq = s.rstReq := rfl
@[simp] theorem setPoison_waits (a : Nat) (b : Bool) : (s.setPoison a b).waits = s.waits := rfl
@[simp] theorem setPoison_rdata (a : Nat) (b : Bool) : (s.setPoison a b).rdata = s.rdata := rfl
@[simp] theorem setPoison_sspOut (a : Nat) (b : Bool) : (s.setPoison a b).sspOut = s.sspOut := rfl
@[simp] theorem setPoison_pending (a : Nat) (b : Bool) : (s.setPoison a b).pending = s.pending := rfl

/-! ## `setIntake` -/

@[simp] theorem setIntake_time (n : Nat) : (s.setIntake n).time = s.time := rfl
@[simp] theorem setIntake_gtb (n : Nat) : (s.setIntake n).gtb = s.gtb := rfl
@[simp] theorem setIntake_free (n : Nat) : (s.setIntake n).free = s.free := rfl
@[simp] theorem setIntake_mem (n : Nat) : (s.setIntake n).mem = s.mem := rfl
@[simp] theorem setIntake_poison (n : Nat) : (s.setIntake n).poison = s.poison := rfl
@[simp] theorem setIntake_regs (n : Nat) : (s.setIntake n).regs = s.regs := rfl
@[simp] theorem setIntake_thr (n : Nat) : (s.setIntake n).thr = s.thr := rfl
@[simp] theorem setIntake_cores (n : Nat) : (s.setIntake n).cores = s.cores := rfl
@[simp] theorem setIntake_tlbs (n : Nat) : (s.setIntake n).tlbs = s.tlbs := rfl
@[simp] theorem setIntake_tlbis (n : Nat) : (s.setIntake n).tlbis = s.tlbis := rfl
@[simp] theorem setIntake_walks (n : Nat) : (s.setIntake n).walks = s.walks := rfl
@[simp] theorem setIntake_ioctx (n : Nat) : (s.setIntake n).ioctx = s.ioctx := rfl
@[simp] theorem setIntake_coh (n : Nat) : (s.setIntake n).coh = s.coh := rfl
@[simp] theorem setIntake_pat (n : Nat) : (s.setIntake n).pat = s.pat := rfl
@[simp] theorem setIntake_routeBad (n : Nat) : (s.setIntake n).routeBad = s.routeBad := rfl
@[simp] theorem setIntake_routeFlips (n : Nat) : (s.setIntake n).routeFlips = s.routeFlips := rfl
@[simp] theorem setIntake_cand (n : Nat) : (s.setIntake n).cand = s.cand := rfl
@[simp] theorem setIntake_errCnt (n : Nat) : (s.setIntake n).errCnt = s.errCnt := rfl
@[simp] theorem setIntake_fabTimeoutEvr (n : Nat) : (s.setIntake n).fabTimeoutEvr = s.fabTimeoutEvr := rfl
@[simp] theorem setIntake_log (n : Nat) : (s.setIntake n).log = s.log := rfl
@[simp] theorem setIntake_logSeq (n : Nat) : (s.setIntake n).logSeq = s.logSeq := rfl
@[simp] theorem setIntake_dom (n : Nat) : (s.setIntake n).dom = s.dom := rfl
@[simp] theorem setIntake_domReq (n : Nat) : (s.setIntake n).domReq = s.domReq := rfl
@[simp] theorem setIntake_frozen (n : Nat) : (s.setIntake n).frozen = s.frozen := rfl
@[simp] theorem setIntake_frzReq (n : Nat) : (s.setIntake n).frzReq = s.frzReq := rfl
@[simp] theorem setIntake_dramCap (n : Nat) : (s.setIntake n).dramCap = s.dramCap := rfl
@[simp] theorem setIntake_dram (n : Nat) : (s.setIntake n).dram = s.dram := rfl
@[simp] theorem setIntake_checkers (n : Nat) : (s.setIntake n).checkers = s.checkers := rfl
@[simp] theorem setIntake_memOff (n : Nat) : (s.setIntake n).memOff = s.memOff := rfl
@[simp] theorem setIntake_flashCap (n : Nat) : (s.setIntake n).flashCap = s.flashCap := rfl
@[simp] theorem setIntake_prot (n : Nat) : (s.setIntake n).prot = s.prot := rfl
@[simp] theorem setIntake_dbgLevel (n : Nat) : (s.setIntake n).dbgLevel = s.dbgLevel := rfl
@[simp] theorem setIntake_paired (n : Nat) : (s.setIntake n).paired = s.paired := rfl
@[simp] theorem setIntake_hm (n : Nat) : (s.setIntake n).hm = s.hm := rfl
@[simp] theorem setIntake_order (n : Nat) : (s.setIntake n).order = s.order := rfl
@[simp] theorem setIntake_pwr (n : Nat) : (s.setIntake n).pwr = s.pwr := rfl
@[simp] theorem setIntake_sec (n : Nat) : (s.setIntake n).sec = s.sec := rfl
@[simp] theorem setIntake_dbg (n : Nat) : (s.setIntake n).dbg = s.dbg := rfl
@[simp] theorem setIntake_trc (n : Nat) : (s.setIntake n).trc = s.trc := rfl
@[simp] theorem setIntake_perf (n : Nat) : (s.setIntake n).perf = s.perf := rfl
@[simp] theorem setIntake_gtbFrac (n : Nat) : (s.setIntake n).gtbFrac = s.gtbFrac := rfl
@[simp] theorem setIntake_lockLow (n : Nat) : (s.setIntake n).lockLow = s.lockLow := rfl
@[simp] theorem setIntake_lockMin (n : Nat) : (s.setIntake n).lockMin = s.lockMin := rfl
@[simp] theorem setIntake_eth (n : Nat) : (s.setIntake n).eth = s.eth := rfl
@[simp] theorem setIntake_pcie (n : Nat) : (s.setIntake n).pcie = s.pcie := rfl
@[simp] theorem setIntake_can (n : Nat) : (s.setIntake n).can = s.can := rfl
@[simp] theorem setIntake_csh (n : Nat) : (s.setIntake n).csh = s.csh := rfl
@[simp] theorem setIntake_bus (n : Nat) : (s.setIntake n).bus = s.bus := rfl
@[simp] theorem setIntake_gw (n : Nat) : (s.setIntake n).gw = s.gw := rfl
@[simp] theorem setIntake_tgp (n : Nat) : (s.setIntake n).tgp = s.tgp := rfl
@[simp] theorem setIntake_alarms (n : Nat) : (s.setIntake n).alarms = s.alarms := rfl
@[simp] theorem setIntake_rstReq (n : Nat) : (s.setIntake n).rstReq = s.rstReq := rfl
@[simp] theorem setIntake_waits (n : Nat) : (s.setIntake n).waits = s.waits := rfl
@[simp] theorem setIntake_rdata (n : Nat) : (s.setIntake n).rdata = s.rdata := rfl
@[simp] theorem setIntake_sspOut (n : Nat) : (s.setIntake n).sspOut = s.sspOut := rfl
@[simp] theorem setIntake_pending (n : Nat) : (s.setIntake n).pending = s.pending := rfl

/-! ## `modHm` -/

@[simp] theorem modHm_time (f : Harbour → Harbour) : (s.modHm f).time = s.time := rfl
@[simp] theorem modHm_gtb (f : Harbour → Harbour) : (s.modHm f).gtb = s.gtb := rfl
@[simp] theorem modHm_free (f : Harbour → Harbour) : (s.modHm f).free = s.free := rfl
@[simp] theorem modHm_mem (f : Harbour → Harbour) : (s.modHm f).mem = s.mem := rfl
@[simp] theorem modHm_poison (f : Harbour → Harbour) : (s.modHm f).poison = s.poison := rfl
@[simp] theorem modHm_regs (f : Harbour → Harbour) : (s.modHm f).regs = s.regs := rfl
@[simp] theorem modHm_thr (f : Harbour → Harbour) : (s.modHm f).thr = s.thr := rfl
@[simp] theorem modHm_cores (f : Harbour → Harbour) : (s.modHm f).cores = s.cores := rfl
@[simp] theorem modHm_tlbs (f : Harbour → Harbour) : (s.modHm f).tlbs = s.tlbs := rfl
@[simp] theorem modHm_tlbis (f : Harbour → Harbour) : (s.modHm f).tlbis = s.tlbis := rfl
@[simp] theorem modHm_walks (f : Harbour → Harbour) : (s.modHm f).walks = s.walks := rfl
@[simp] theorem modHm_ioctx (f : Harbour → Harbour) : (s.modHm f).ioctx = s.ioctx := rfl
@[simp] theorem modHm_coh (f : Harbour → Harbour) : (s.modHm f).coh = s.coh := rfl
@[simp] theorem modHm_pat (f : Harbour → Harbour) : (s.modHm f).pat = s.pat := rfl
@[simp] theorem modHm_intake (f : Harbour → Harbour) : (s.modHm f).intake = s.intake := rfl
@[simp] theorem modHm_routeBad (f : Harbour → Harbour) : (s.modHm f).routeBad = s.routeBad := rfl
@[simp] theorem modHm_routeFlips (f : Harbour → Harbour) : (s.modHm f).routeFlips = s.routeFlips := rfl
@[simp] theorem modHm_cand (f : Harbour → Harbour) : (s.modHm f).cand = s.cand := rfl
@[simp] theorem modHm_errCnt (f : Harbour → Harbour) : (s.modHm f).errCnt = s.errCnt := rfl
@[simp] theorem modHm_fabTimeoutEvr (f : Harbour → Harbour) : (s.modHm f).fabTimeoutEvr = s.fabTimeoutEvr := rfl
@[simp] theorem modHm_log (f : Harbour → Harbour) : (s.modHm f).log = s.log := rfl
@[simp] theorem modHm_logSeq (f : Harbour → Harbour) : (s.modHm f).logSeq = s.logSeq := rfl
@[simp] theorem modHm_dom (f : Harbour → Harbour) : (s.modHm f).dom = s.dom := rfl
@[simp] theorem modHm_domReq (f : Harbour → Harbour) : (s.modHm f).domReq = s.domReq := rfl
@[simp] theorem modHm_frozen (f : Harbour → Harbour) : (s.modHm f).frozen = s.frozen := rfl
@[simp] theorem modHm_frzReq (f : Harbour → Harbour) : (s.modHm f).frzReq = s.frzReq := rfl
@[simp] theorem modHm_dramCap (f : Harbour → Harbour) : (s.modHm f).dramCap = s.dramCap := rfl
@[simp] theorem modHm_dram (f : Harbour → Harbour) : (s.modHm f).dram = s.dram := rfl
@[simp] theorem modHm_checkers (f : Harbour → Harbour) : (s.modHm f).checkers = s.checkers := rfl
@[simp] theorem modHm_memOff (f : Harbour → Harbour) : (s.modHm f).memOff = s.memOff := rfl
@[simp] theorem modHm_flashCap (f : Harbour → Harbour) : (s.modHm f).flashCap = s.flashCap := rfl
@[simp] theorem modHm_prot (f : Harbour → Harbour) : (s.modHm f).prot = s.prot := rfl
@[simp] theorem modHm_dbgLevel (f : Harbour → Harbour) : (s.modHm f).dbgLevel = s.dbgLevel := rfl
@[simp] theorem modHm_paired (f : Harbour → Harbour) : (s.modHm f).paired = s.paired := rfl
@[simp] theorem modHm_order (f : Harbour → Harbour) : (s.modHm f).order = s.order := rfl
@[simp] theorem modHm_pwr (f : Harbour → Harbour) : (s.modHm f).pwr = s.pwr := rfl
@[simp] theorem modHm_sec (f : Harbour → Harbour) : (s.modHm f).sec = s.sec := rfl
@[simp] theorem modHm_dbg (f : Harbour → Harbour) : (s.modHm f).dbg = s.dbg := rfl
@[simp] theorem modHm_trc (f : Harbour → Harbour) : (s.modHm f).trc = s.trc := rfl
@[simp] theorem modHm_perf (f : Harbour → Harbour) : (s.modHm f).perf = s.perf := rfl
@[simp] theorem modHm_gtbFrac (f : Harbour → Harbour) : (s.modHm f).gtbFrac = s.gtbFrac := rfl
@[simp] theorem modHm_lockLow (f : Harbour → Harbour) : (s.modHm f).lockLow = s.lockLow := rfl
@[simp] theorem modHm_lockMin (f : Harbour → Harbour) : (s.modHm f).lockMin = s.lockMin := rfl
@[simp] theorem modHm_eth (f : Harbour → Harbour) : (s.modHm f).eth = s.eth := rfl
@[simp] theorem modHm_pcie (f : Harbour → Harbour) : (s.modHm f).pcie = s.pcie := rfl
@[simp] theorem modHm_can (f : Harbour → Harbour) : (s.modHm f).can = s.can := rfl
@[simp] theorem modHm_csh (f : Harbour → Harbour) : (s.modHm f).csh = s.csh := rfl
@[simp] theorem modHm_bus (f : Harbour → Harbour) : (s.modHm f).bus = s.bus := rfl
@[simp] theorem modHm_gw (f : Harbour → Harbour) : (s.modHm f).gw = s.gw := rfl
@[simp] theorem modHm_tgp (f : Harbour → Harbour) : (s.modHm f).tgp = s.tgp := rfl
@[simp] theorem modHm_alarms (f : Harbour → Harbour) : (s.modHm f).alarms = s.alarms := rfl
@[simp] theorem modHm_rstReq (f : Harbour → Harbour) : (s.modHm f).rstReq = s.rstReq := rfl
@[simp] theorem modHm_waits (f : Harbour → Harbour) : (s.modHm f).waits = s.waits := rfl
@[simp] theorem modHm_rdata (f : Harbour → Harbour) : (s.modHm f).rdata = s.rdata := rfl
@[simp] theorem modHm_sspOut (f : Harbour → Harbour) : (s.modHm f).sspOut = s.sspOut := rfl
@[simp] theorem modHm_pending (f : Harbour → Harbour) : (s.modHm f).pending = s.pending := rfl

/-! ## `modCoh` -/

@[simp] theorem modCoh_time (f : Coh → Coh) : (s.modCoh f).time = s.time := rfl
@[simp] theorem modCoh_gtb (f : Coh → Coh) : (s.modCoh f).gtb = s.gtb := rfl
@[simp] theorem modCoh_free (f : Coh → Coh) : (s.modCoh f).free = s.free := rfl
@[simp] theorem modCoh_mem (f : Coh → Coh) : (s.modCoh f).mem = s.mem := rfl
@[simp] theorem modCoh_poison (f : Coh → Coh) : (s.modCoh f).poison = s.poison := rfl
@[simp] theorem modCoh_regs (f : Coh → Coh) : (s.modCoh f).regs = s.regs := rfl
@[simp] theorem modCoh_thr (f : Coh → Coh) : (s.modCoh f).thr = s.thr := rfl
@[simp] theorem modCoh_cores (f : Coh → Coh) : (s.modCoh f).cores = s.cores := rfl
@[simp] theorem modCoh_tlbs (f : Coh → Coh) : (s.modCoh f).tlbs = s.tlbs := rfl
@[simp] theorem modCoh_tlbis (f : Coh → Coh) : (s.modCoh f).tlbis = s.tlbis := rfl
@[simp] theorem modCoh_walks (f : Coh → Coh) : (s.modCoh f).walks = s.walks := rfl
@[simp] theorem modCoh_ioctx (f : Coh → Coh) : (s.modCoh f).ioctx = s.ioctx := rfl
@[simp] theorem modCoh_pat (f : Coh → Coh) : (s.modCoh f).pat = s.pat := rfl
@[simp] theorem modCoh_intake (f : Coh → Coh) : (s.modCoh f).intake = s.intake := rfl
@[simp] theorem modCoh_routeBad (f : Coh → Coh) : (s.modCoh f).routeBad = s.routeBad := rfl
@[simp] theorem modCoh_routeFlips (f : Coh → Coh) : (s.modCoh f).routeFlips = s.routeFlips := rfl
@[simp] theorem modCoh_cand (f : Coh → Coh) : (s.modCoh f).cand = s.cand := rfl
@[simp] theorem modCoh_errCnt (f : Coh → Coh) : (s.modCoh f).errCnt = s.errCnt := rfl
@[simp] theorem modCoh_fabTimeoutEvr (f : Coh → Coh) : (s.modCoh f).fabTimeoutEvr = s.fabTimeoutEvr := rfl
@[simp] theorem modCoh_log (f : Coh → Coh) : (s.modCoh f).log = s.log := rfl
@[simp] theorem modCoh_logSeq (f : Coh → Coh) : (s.modCoh f).logSeq = s.logSeq := rfl
@[simp] theorem modCoh_dom (f : Coh → Coh) : (s.modCoh f).dom = s.dom := rfl
@[simp] theorem modCoh_domReq (f : Coh → Coh) : (s.modCoh f).domReq = s.domReq := rfl
@[simp] theorem modCoh_frozen (f : Coh → Coh) : (s.modCoh f).frozen = s.frozen := rfl
@[simp] theorem modCoh_frzReq (f : Coh → Coh) : (s.modCoh f).frzReq = s.frzReq := rfl
@[simp] theorem modCoh_dramCap (f : Coh → Coh) : (s.modCoh f).dramCap = s.dramCap := rfl
@[simp] theorem modCoh_dram (f : Coh → Coh) : (s.modCoh f).dram = s.dram := rfl
@[simp] theorem modCoh_checkers (f : Coh → Coh) : (s.modCoh f).checkers = s.checkers := rfl
@[simp] theorem modCoh_memOff (f : Coh → Coh) : (s.modCoh f).memOff = s.memOff := rfl
@[simp] theorem modCoh_flashCap (f : Coh → Coh) : (s.modCoh f).flashCap = s.flashCap := rfl
@[simp] theorem modCoh_prot (f : Coh → Coh) : (s.modCoh f).prot = s.prot := rfl
@[simp] theorem modCoh_dbgLevel (f : Coh → Coh) : (s.modCoh f).dbgLevel = s.dbgLevel := rfl
@[simp] theorem modCoh_paired (f : Coh → Coh) : (s.modCoh f).paired = s.paired := rfl
@[simp] theorem modCoh_hm (f : Coh → Coh) : (s.modCoh f).hm = s.hm := rfl
@[simp] theorem modCoh_order (f : Coh → Coh) : (s.modCoh f).order = s.order := rfl
@[simp] theorem modCoh_pwr (f : Coh → Coh) : (s.modCoh f).pwr = s.pwr := rfl
@[simp] theorem modCoh_sec (f : Coh → Coh) : (s.modCoh f).sec = s.sec := rfl
@[simp] theorem modCoh_dbg (f : Coh → Coh) : (s.modCoh f).dbg = s.dbg := rfl
@[simp] theorem modCoh_trc (f : Coh → Coh) : (s.modCoh f).trc = s.trc := rfl
@[simp] theorem modCoh_perf (f : Coh → Coh) : (s.modCoh f).perf = s.perf := rfl
@[simp] theorem modCoh_gtbFrac (f : Coh → Coh) : (s.modCoh f).gtbFrac = s.gtbFrac := rfl
@[simp] theorem modCoh_lockLow (f : Coh → Coh) : (s.modCoh f).lockLow = s.lockLow := rfl
@[simp] theorem modCoh_lockMin (f : Coh → Coh) : (s.modCoh f).lockMin = s.lockMin := rfl
@[simp] theorem modCoh_eth (f : Coh → Coh) : (s.modCoh f).eth = s.eth := rfl
@[simp] theorem modCoh_pcie (f : Coh → Coh) : (s.modCoh f).pcie = s.pcie := rfl
@[simp] theorem modCoh_can (f : Coh → Coh) : (s.modCoh f).can = s.can := rfl
@[simp] theorem modCoh_csh (f : Coh → Coh) : (s.modCoh f).csh = s.csh := rfl
@[simp] theorem modCoh_bus (f : Coh → Coh) : (s.modCoh f).bus = s.bus := rfl
@[simp] theorem modCoh_gw (f : Coh → Coh) : (s.modCoh f).gw = s.gw := rfl
@[simp] theorem modCoh_tgp (f : Coh → Coh) : (s.modCoh f).tgp = s.tgp := rfl
@[simp] theorem modCoh_alarms (f : Coh → Coh) : (s.modCoh f).alarms = s.alarms := rfl
@[simp] theorem modCoh_rstReq (f : Coh → Coh) : (s.modCoh f).rstReq = s.rstReq := rfl
@[simp] theorem modCoh_waits (f : Coh → Coh) : (s.modCoh f).waits = s.waits := rfl
@[simp] theorem modCoh_rdata (f : Coh → Coh) : (s.modCoh f).rdata = s.rdata := rfl
@[simp] theorem modCoh_sspOut (f : Coh → Coh) : (s.modCoh f).sspOut = s.sspOut := rfl
@[simp] theorem modCoh_pending (f : Coh → Coh) : (s.modCoh f).pending = s.pending := rfl

/-! ## `modEth` -/

@[simp] theorem modEth_time (f : Eth → Eth) : (s.modEth f).time = s.time := rfl
@[simp] theorem modEth_gtb (f : Eth → Eth) : (s.modEth f).gtb = s.gtb := rfl
@[simp] theorem modEth_free (f : Eth → Eth) : (s.modEth f).free = s.free := rfl
@[simp] theorem modEth_mem (f : Eth → Eth) : (s.modEth f).mem = s.mem := rfl
@[simp] theorem modEth_poison (f : Eth → Eth) : (s.modEth f).poison = s.poison := rfl
@[simp] theorem modEth_regs (f : Eth → Eth) : (s.modEth f).regs = s.regs := rfl
@[simp] theorem modEth_thr (f : Eth → Eth) : (s.modEth f).thr = s.thr := rfl
@[simp] theorem modEth_cores (f : Eth → Eth) : (s.modEth f).cores = s.cores := rfl
@[simp] theorem modEth_coh (f : Eth → Eth) : (s.modEth f).coh = s.coh := rfl
@[simp] theorem modEth_intake (f : Eth → Eth) : (s.modEth f).intake = s.intake := rfl
@[simp] theorem modEth_hm (f : Eth → Eth) : (s.modEth f).hm = s.hm := rfl
@[simp] theorem modEth_perf (f : Eth → Eth) : (s.modEth f).perf = s.perf := rfl
@[simp] theorem modEth_pwr (f : Eth → Eth) : (s.modEth f).pwr = s.pwr := rfl
@[simp] theorem modEth_order (f : Eth → Eth) : (s.modEth f).order = s.order := rfl
@[simp] theorem modEth_frozen (f : Eth → Eth) : (s.modEth f).frozen = s.frozen := rfl
@[simp] theorem modEth_pending (f : Eth → Eth) : (s.modEth f).pending = s.pending := rfl

/-! ## `modPcie` -/

@[simp] theorem modPcie_time (f : Pcie → Pcie) : (s.modPcie f).time = s.time := rfl
@[simp] theorem modPcie_gtb (f : Pcie → Pcie) : (s.modPcie f).gtb = s.gtb := rfl
@[simp] theorem modPcie_free (f : Pcie → Pcie) : (s.modPcie f).free = s.free := rfl
@[simp] theorem modPcie_mem (f : Pcie → Pcie) : (s.modPcie f).mem = s.mem := rfl
@[simp] theorem modPcie_poison (f : Pcie → Pcie) : (s.modPcie f).poison = s.poison := rfl
@[simp] theorem modPcie_regs (f : Pcie → Pcie) : (s.modPcie f).regs = s.regs := rfl
@[simp] theorem modPcie_thr (f : Pcie → Pcie) : (s.modPcie f).thr = s.thr := rfl
@[simp] theorem modPcie_cores (f : Pcie → Pcie) : (s.modPcie f).cores = s.cores := rfl
@[simp] theorem modPcie_coh (f : Pcie → Pcie) : (s.modPcie f).coh = s.coh := rfl
@[simp] theorem modPcie_intake (f : Pcie → Pcie) : (s.modPcie f).intake = s.intake := rfl
@[simp] theorem modPcie_hm (f : Pcie → Pcie) : (s.modPcie f).hm = s.hm := rfl
@[simp] theorem modPcie_perf (f : Pcie → Pcie) : (s.modPcie f).perf = s.perf := rfl
@[simp] theorem modPcie_pwr (f : Pcie → Pcie) : (s.modPcie f).pwr = s.pwr := rfl
@[simp] theorem modPcie_order (f : Pcie → Pcie) : (s.modPcie f).order = s.order := rfl
@[simp] theorem modPcie_frozen (f : Pcie → Pcie) : (s.modPcie f).frozen = s.frozen := rfl
@[simp] theorem modPcie_pending (f : Pcie → Pcie) : (s.modPcie f).pending = s.pending := rfl

/-! ## `modGw` -/

@[simp] theorem modGw_time (f : Gw → Gw) : (s.modGw f).time = s.time := rfl
@[simp] theorem modGw_gtb (f : Gw → Gw) : (s.modGw f).gtb = s.gtb := rfl
@[simp] theorem modGw_free (f : Gw → Gw) : (s.modGw f).free = s.free := rfl
@[simp] theorem modGw_mem (f : Gw → Gw) : (s.modGw f).mem = s.mem := rfl
@[simp] theorem modGw_poison (f : Gw → Gw) : (s.modGw f).poison = s.poison := rfl
@[simp] theorem modGw_regs (f : Gw → Gw) : (s.modGw f).regs = s.regs := rfl
@[simp] theorem modGw_thr (f : Gw → Gw) : (s.modGw f).thr = s.thr := rfl
@[simp] theorem modGw_cores (f : Gw → Gw) : (s.modGw f).cores = s.cores := rfl
@[simp] theorem modGw_coh (f : Gw → Gw) : (s.modGw f).coh = s.coh := rfl
@[simp] theorem modGw_intake (f : Gw → Gw) : (s.modGw f).intake = s.intake := rfl
@[simp] theorem modGw_hm (f : Gw → Gw) : (s.modGw f).hm = s.hm := rfl
@[simp] theorem modGw_perf (f : Gw → Gw) : (s.modGw f).perf = s.perf := rfl
@[simp] theorem modGw_pwr (f : Gw → Gw) : (s.modGw f).pwr = s.pwr := rfl
@[simp] theorem modGw_order (f : Gw → Gw) : (s.modGw f).order = s.order := rfl
@[simp] theorem modGw_frozen (f : Gw → Gw) : (s.modGw f).frozen = s.frozen := rfl
@[simp] theorem modGw_pending (f : Gw → Gw) : (s.modGw f).pending = s.pending := rfl

/-! ## `modPerf` -/

@[simp] theorem modPerf_time (f : Perf → Perf) : (s.modPerf f).time = s.time := rfl
@[simp] theorem modPerf_gtb (f : Perf → Perf) : (s.modPerf f).gtb = s.gtb := rfl
@[simp] theorem modPerf_free (f : Perf → Perf) : (s.modPerf f).free = s.free := rfl
@[simp] theorem modPerf_mem (f : Perf → Perf) : (s.modPerf f).mem = s.mem := rfl
@[simp] theorem modPerf_poison (f : Perf → Perf) : (s.modPerf f).poison = s.poison := rfl
@[simp] theorem modPerf_regs (f : Perf → Perf) : (s.modPerf f).regs = s.regs := rfl
@[simp] theorem modPerf_thr (f : Perf → Perf) : (s.modPerf f).thr = s.thr := rfl
@[simp] theorem modPerf_cores (f : Perf → Perf) : (s.modPerf f).cores = s.cores := rfl
@[simp] theorem modPerf_coh (f : Perf → Perf) : (s.modPerf f).coh = s.coh := rfl
@[simp] theorem modPerf_intake (f : Perf → Perf) : (s.modPerf f).intake = s.intake := rfl
@[simp] theorem modPerf_hm (f : Perf → Perf) : (s.modPerf f).hm = s.hm := rfl
@[simp] theorem modPerf_pwr (f : Perf → Perf) : (s.modPerf f).pwr = s.pwr := rfl
@[simp] theorem modPerf_order (f : Perf → Perf) : (s.modPerf f).order = s.order := rfl
@[simp] theorem modPerf_frozen (f : Perf → Perf) : (s.modPerf f).frozen = s.frozen := rfl
@[simp] theorem modPerf_pending (f : Perf → Perf) : (s.modPerf f).pending = s.pending := rfl

/-! ## `modPwr` -/

@[simp] theorem modPwr_time (f : Power → Power) : (s.modPwr f).time = s.time := rfl
@[simp] theorem modPwr_gtb (f : Power → Power) : (s.modPwr f).gtb = s.gtb := rfl
@[simp] theorem modPwr_free (f : Power → Power) : (s.modPwr f).free = s.free := rfl
@[simp] theorem modPwr_mem (f : Power → Power) : (s.modPwr f).mem = s.mem := rfl
@[simp] theorem modPwr_poison (f : Power → Power) : (s.modPwr f).poison = s.poison := rfl
@[simp] theorem modPwr_regs (f : Power → Power) : (s.modPwr f).regs = s.regs := rfl
@[simp] theorem modPwr_thr (f : Power → Power) : (s.modPwr f).thr = s.thr := rfl
@[simp] theorem modPwr_cores (f : Power → Power) : (s.modPwr f).cores = s.cores := rfl
@[simp] theorem modPwr_coh (f : Power → Power) : (s.modPwr f).coh = s.coh := rfl
@[simp] theorem modPwr_intake (f : Power → Power) : (s.modPwr f).intake = s.intake := rfl
@[simp] theorem modPwr_hm (f : Power → Power) : (s.modPwr f).hm = s.hm := rfl
@[simp] theorem modPwr_perf (f : Power → Power) : (s.modPwr f).perf = s.perf := rfl
@[simp] theorem modPwr_order (f : Power → Power) : (s.modPwr f).order = s.order := rfl
@[simp] theorem modPwr_frozen (f : Power → Power) : (s.modPwr f).frozen = s.frozen := rfl
@[simp] theorem modPwr_pending (f : Power → Power) : (s.modPwr f).pending = s.pending := rfl

/-! ## `modSec` -/

@[simp] theorem modSec_time (f : Sec → Sec) : (s.modSec f).time = s.time := rfl
@[simp] theorem modSec_gtb (f : Sec → Sec) : (s.modSec f).gtb = s.gtb := rfl
@[simp] theorem modSec_free (f : Sec → Sec) : (s.modSec f).free = s.free := rfl
@[simp] theorem modSec_mem (f : Sec → Sec) : (s.modSec f).mem = s.mem := rfl
@[simp] theorem modSec_poison (f : Sec → Sec) : (s.modSec f).poison = s.poison := rfl
@[simp] theorem modSec_regs (f : Sec → Sec) : (s.modSec f).regs = s.regs := rfl
@[simp] theorem modSec_thr (f : Sec → Sec) : (s.modSec f).thr = s.thr := rfl
@[simp] theorem modSec_cores (f : Sec → Sec) : (s.modSec f).cores = s.cores := rfl
@[simp] theorem modSec_coh (f : Sec → Sec) : (s.modSec f).coh = s.coh := rfl
@[simp] theorem modSec_intake (f : Sec → Sec) : (s.modSec f).intake = s.intake := rfl
@[simp] theorem modSec_hm (f : Sec → Sec) : (s.modSec f).hm = s.hm := rfl
@[simp] theorem modSec_perf (f : Sec → Sec) : (s.modSec f).perf = s.perf := rfl
@[simp] theorem modSec_pwr (f : Sec → Sec) : (s.modSec f).pwr = s.pwr := rfl
@[simp] theorem modSec_order (f : Sec → Sec) : (s.modSec f).order = s.order := rfl
@[simp] theorem modSec_frozen (f : Sec → Sec) : (s.modSec f).frozen = s.frozen := rfl
@[simp] theorem modSec_pending (f : Sec → Sec) : (s.modSec f).pending = s.pending := rfl

/-! ## `modDbg` -/

@[simp] theorem modDbg_time (f : Dbg → Dbg) : (s.modDbg f).time = s.time := rfl
@[simp] theorem modDbg_gtb (f : Dbg → Dbg) : (s.modDbg f).gtb = s.gtb := rfl
@[simp] theorem modDbg_free (f : Dbg → Dbg) : (s.modDbg f).free = s.free := rfl
@[simp] theorem modDbg_mem (f : Dbg → Dbg) : (s.modDbg f).mem = s.mem := rfl
@[simp] theorem modDbg_poison (f : Dbg → Dbg) : (s.modDbg f).poison = s.poison := rfl
@[simp] theorem modDbg_regs (f : Dbg → Dbg) : (s.modDbg f).regs = s.regs := rfl
@[simp] theorem modDbg_thr (f : Dbg → Dbg) : (s.modDbg f).thr = s.thr := rfl
@[simp] theorem modDbg_cores (f : Dbg → Dbg) : (s.modDbg f).cores = s.cores := rfl
@[simp] theorem modDbg_coh (f : Dbg → Dbg) : (s.modDbg f).coh = s.coh := rfl
@[simp] theorem modDbg_intake (f : Dbg → Dbg) : (s.modDbg f).intake = s.intake := rfl
@[simp] theorem modDbg_hm (f : Dbg → Dbg) : (s.modDbg f).hm = s.hm := rfl
@[simp] theorem modDbg_perf (f : Dbg → Dbg) : (s.modDbg f).perf = s.perf := rfl
@[simp] theorem modDbg_pwr (f : Dbg → Dbg) : (s.modDbg f).pwr = s.pwr := rfl
@[simp] theorem modDbg_order (f : Dbg → Dbg) : (s.modDbg f).order = s.order := rfl
@[simp] theorem modDbg_frozen (f : Dbg → Dbg) : (s.modDbg f).frozen = s.frozen := rfl
@[simp] theorem modDbg_pending (f : Dbg → Dbg) : (s.modDbg f).pending = s.pending := rfl

/-! ## `modTrc` -/

@[simp] theorem modTrc_time (f : Trace → Trace) : (s.modTrc f).time = s.time := rfl
@[simp] theorem modTrc_gtb (f : Trace → Trace) : (s.modTrc f).gtb = s.gtb := rfl
@[simp] theorem modTrc_free (f : Trace → Trace) : (s.modTrc f).free = s.free := rfl
@[simp] theorem modTrc_mem (f : Trace → Trace) : (s.modTrc f).mem = s.mem := rfl
@[simp] theorem modTrc_poison (f : Trace → Trace) : (s.modTrc f).poison = s.poison := rfl
@[simp] theorem modTrc_regs (f : Trace → Trace) : (s.modTrc f).regs = s.regs := rfl
@[simp] theorem modTrc_thr (f : Trace → Trace) : (s.modTrc f).thr = s.thr := rfl
@[simp] theorem modTrc_cores (f : Trace → Trace) : (s.modTrc f).cores = s.cores := rfl
@[simp] theorem modTrc_coh (f : Trace → Trace) : (s.modTrc f).coh = s.coh := rfl
@[simp] theorem modTrc_intake (f : Trace → Trace) : (s.modTrc f).intake = s.intake := rfl
@[simp] theorem modTrc_hm (f : Trace → Trace) : (s.modTrc f).hm = s.hm := rfl
@[simp] theorem modTrc_perf (f : Trace → Trace) : (s.modTrc f).perf = s.perf := rfl
@[simp] theorem modTrc_pwr (f : Trace → Trace) : (s.modTrc f).pwr = s.pwr := rfl
@[simp] theorem modTrc_order (f : Trace → Trace) : (s.modTrc f).order = s.order := rfl
@[simp] theorem modTrc_frozen (f : Trace → Trace) : (s.modTrc f).frozen = s.frozen := rfl
@[simp] theorem modTrc_pending (f : Trace → Trace) : (s.modTrc f).pending = s.pending := rfl

/-! ## `setCan` -/

@[simp] theorem setCan_time (k : Nat) (x : Can) : (s.setCan k x).time = s.time := rfl
@[simp] theorem setCan_gtb (k : Nat) (x : Can) : (s.setCan k x).gtb = s.gtb := rfl
@[simp] theorem setCan_free (k : Nat) (x : Can) : (s.setCan k x).free = s.free := rfl
@[simp] theorem setCan_mem (k : Nat) (x : Can) : (s.setCan k x).mem = s.mem := rfl
@[simp] theorem setCan_poison (k : Nat) (x : Can) : (s.setCan k x).poison = s.poison := rfl
@[simp] theorem setCan_regs (k : Nat) (x : Can) : (s.setCan k x).regs = s.regs := rfl
@[simp] theorem setCan_thr (k : Nat) (x : Can) : (s.setCan k x).thr = s.thr := rfl
@[simp] theorem setCan_cores (k : Nat) (x : Can) : (s.setCan k x).cores = s.cores := rfl
@[simp] theorem setCan_coh (k : Nat) (x : Can) : (s.setCan k x).coh = s.coh := rfl
@[simp] theorem setCan_intake (k : Nat) (x : Can) : (s.setCan k x).intake = s.intake := rfl
@[simp] theorem setCan_hm (k : Nat) (x : Can) : (s.setCan k x).hm = s.hm := rfl
@[simp] theorem setCan_perf (k : Nat) (x : Can) : (s.setCan k x).perf = s.perf := rfl
@[simp] theorem setCan_pwr (k : Nat) (x : Can) : (s.setCan k x).pwr = s.pwr := rfl
@[simp] theorem setCan_order (k : Nat) (x : Can) : (s.setCan k x).order = s.order := rfl
@[simp] theorem setCan_frozen (k : Nat) (x : Can) : (s.setCan k x).frozen = s.frozen := rfl
@[simp] theorem setCan_pending (k : Nat) (x : Can) : (s.setCan k x).pending = s.pending := rfl

/-! ## `setShare` -/

@[simp] theorem setShare_time (i : Nat) (x : Share) : (s.setShare i x).time = s.time := rfl
@[simp] theorem setShare_gtb (i : Nat) (x : Share) : (s.setShare i x).gtb = s.gtb := rfl
@[simp] theorem setShare_free (i : Nat) (x : Share) : (s.setShare i x).free = s.free := rfl
@[simp] theorem setShare_mem (i : Nat) (x : Share) : (s.setShare i x).mem = s.mem := rfl
@[simp] theorem setShare_poison (i : Nat) (x : Share) : (s.setShare i x).poison = s.poison := rfl
@[simp] theorem setShare_regs (i : Nat) (x : Share) : (s.setShare i x).regs = s.regs := rfl
@[simp] theorem setShare_thr (i : Nat) (x : Share) : (s.setShare i x).thr = s.thr := rfl
@[simp] theorem setShare_cores (i : Nat) (x : Share) : (s.setShare i x).cores = s.cores := rfl
@[simp] theorem setShare_coh (i : Nat) (x : Share) : (s.setShare i x).coh = s.coh := rfl
@[simp] theorem setShare_intake (i : Nat) (x : Share) : (s.setShare i x).intake = s.intake := rfl
@[simp] theorem setShare_hm (i : Nat) (x : Share) : (s.setShare i x).hm = s.hm := rfl
@[simp] theorem setShare_perf (i : Nat) (x : Share) : (s.setShare i x).perf = s.perf := rfl
@[simp] theorem setShare_pwr (i : Nat) (x : Share) : (s.setShare i x).pwr = s.pwr := rfl
@[simp] theorem setShare_order (i : Nat) (x : Share) : (s.setShare i x).order = s.order := rfl
@[simp] theorem setShare_frozen (i : Nat) (x : Share) : (s.setShare i x).frozen = s.frozen := rfl
@[simp] theorem setShare_pending (i : Nat) (x : Share) : (s.setShare i x).pending = s.pending := rfl

/-! ## `setBus` -/

@[simp] theorem setBus_time (u : Nat) (x : BusCtl) : (s.setBus u x).time = s.time := rfl
@[simp] theorem setBus_gtb (u : Nat) (x : BusCtl) : (s.setBus u x).gtb = s.gtb := rfl
@[simp] theorem setBus_free (u : Nat) (x : BusCtl) : (s.setBus u x).free = s.free := rfl
@[simp] theorem setBus_mem (u : Nat) (x : BusCtl) : (s.setBus u x).mem = s.mem := rfl
@[simp] theorem setBus_poison (u : Nat) (x : BusCtl) : (s.setBus u x).poison = s.poison := rfl
@[simp] theorem setBus_regs (u : Nat) (x : BusCtl) : (s.setBus u x).regs = s.regs := rfl
@[simp] theorem setBus_thr (u : Nat) (x : BusCtl) : (s.setBus u x).thr = s.thr := rfl
@[simp] theorem setBus_cores (u : Nat) (x : BusCtl) : (s.setBus u x).cores = s.cores := rfl
@[simp] theorem setBus_coh (u : Nat) (x : BusCtl) : (s.setBus u x).coh = s.coh := rfl
@[simp] theorem setBus_intake (u : Nat) (x : BusCtl) : (s.setBus u x).intake = s.intake := rfl
@[simp] theorem setBus_hm (u : Nat) (x : BusCtl) : (s.setBus u x).hm = s.hm := rfl
@[simp] theorem setBus_perf (u : Nat) (x : BusCtl) : (s.setBus u x).perf = s.perf := rfl
@[simp] theorem setBus_pwr (u : Nat) (x : BusCtl) : (s.setBus u x).pwr = s.pwr := rfl
@[simp] theorem setBus_order (u : Nat) (x : BusCtl) : (s.setBus u x).order = s.order := rfl
@[simp] theorem setBus_frozen (u : Nat) (x : BusCtl) : (s.setBus u x).frozen = s.frozen := rfl
@[simp] theorem setBus_pending (u : Nat) (x : BusCtl) : (s.setBus u x).pending = s.pending := rfl

/-! ## What reads as written -/

theorem reg_setReg (a b : Nat) (v : W32) : (s.setReg a v).reg b = if b = a then v else s.reg b := by
  simp [State.setReg, State.reg, Tbl.get_set]

@[simp] theorem reg_setReg_self (a : Nat) (v : W32) : (s.setReg a v).reg a = v := by simp [reg_setReg]

theorem reg_setReg_ne {a b : Nat} (v : W32) (h : b ≠ a) : (s.setReg a v).reg b = s.reg b := by simp [reg_setReg, h]

theorem th_setTh (t u : Nat) (x : Thread) : (s.setTh t x).th u = if u = t then x else s.th u := by
  simp [State.setTh, State.th, Tbl.get_set]

@[simp] theorem th_setTh_self (t : Nat) (x : Thread) : (s.setTh t x).th t = x := by simp [th_setTh]

theorem th_modTh (t u : Nat) (f : Thread → Thread) : (s.modTh t f).th u = if u = t then f (s.th t) else s.th u := by
  simp [State.modTh, th_setTh]

@[simp] theorem th_modTh_self (t : Nat) (f : Thread → Thread) : (s.modTh t f).th t = f (s.th t) := by simp [th_modTh]

theorem core_setCore (c d : Nat) (x : Core) : (s.setCore c x).core d = if d = c then x else s.core d := by
  simp [State.setCore, State.core, Tbl.get_set]

theorem canOf_setCan (k j : Nat) (x : Can) : (s.setCan k x).canOf j = if j = k then x else s.canOf j := by
  simp [State.setCan, State.canOf, Tbl.get_set]

theorem busOf_setBus (u v : Nat) (x : BusCtl) : (s.setBus u x).busOf v = if v = u then x else s.busOf v := by
  simp [State.setBus, State.busOf, Tbl.get_set]

theorem share_setShare (i j : Nat) (x : Share) : (s.setShare i x).share j = if j = i then x else s.share j := by
  simp [State.setShare, State.share, Tbl.get_set]

theorem mbx_setMbx (m n : Nat) (x : Mbox) : (s.setMbx m x).mbx n = if n = m then x else s.mbx n := by
  simp [State.setMbx, State.mbx, State.modHm, Tbl.get_set]

theorem berth_setBerth (b c : Nat) (x : Berth) : (s.setBerth b x).berth c = if c = b then x else s.berth c := by
  simp [State.setBerth, State.berth, State.modHm, Tbl.get_set]

theorem inst_setInst (i j : Nat) (x : Inst) : (s.setInst i x).inst j = if j = i then x else s.inst j := by
  simp [State.setInst, State.inst, State.modHm, Tbl.get_set]

theorem domain_setDom (d e : Nat) (x : Dom) : (s.setDom d x).domain e = if e = d then x else s.domain e := by
  simp [State.setDom, State.domain, Tbl.get_set]

end Sys2Proof.Laws
end

