-- ==== Sys2Proof/Laws/Events.lean ====
section
/-! SUPPORT. Signals, event records and counts (R29, R253, R255, R341, R342, R481): what each can change, said once. -/

namespace Sys2Proof.Laws

open Sys2Proof.Machine

variable (s : State)

/-! ## Frames -/

/-- Nothing but registers, the intake and the event counters differs. -/
def Quiet (s s' : State) : Prop := { s' with regs := s.regs, intake := s.intake, perf := s.perf } = s

theorem Quiet.refl : Quiet s s := rfl

variable {s}

theorem Quiet.trans {a b c : State} (h : Quiet a b) (k : Quiet b c) : Quiet a c := by
  have e := congrArg (fun x : State => { x with regs := a.regs, intake := a.intake, perf := a.perf }) k
  exact Eq.trans (show { c with regs := a.regs, intake := a.intake, perf := a.perf } = _ from e) h

theorem Quiet.foldl {β : Type} (f : State → β → State) (hf : ∀ s b, Quiet s (f s b)) (l : List β) : ∀ s, Quiet s (l.foldl f s) := by
  induction l with
  | nil => intro s; rfl
  | cons b r ih => intro s; exact (hf s b).trans (ih _)

variable (s)

theorem quiet_setReg (a : Nat) (v : W32) : Quiet s (s.setReg a v) := rfl

theorem quiet_cntAdd (u i n : Nat) : Quiet s (s.cntAdd u i n) := by
  unfold State.cntAdd
  simp only
  split <;> rfl

theorem quiet_perfEvent (u code n : Nat) (who : Option (Nat × Nat)) : Quiet s (s.perfEvent u code n who) := by
  unfold State.perfEvent
  split
  · refine Quiet.foldl _ (fun s i => ?_) _ s
    split
    · exact quiet_cntAdd s u i n
    · rfl
  · rfl

theorem quiet_signalEntry (e n : Nat) : Quiet s (s.signalEntry e n) := by
  unfold State.signalEntry
  simp only
  split <;> split
  · exact Quiet.trans (b := (s.setIntake n).setReg _ _) rfl (quiet_perfEvent _ _ _ _ _)
  · rfl
  · exact Quiet.trans (b := s.setReg _ _) rfl (quiet_perfEvent _ _ _ _ _)
  · rfl

theorem quiet_signal (n : Nat) : Quiet s (s.signal n) := by
  unfold State.signal
  split
  · rfl
  · exact quiet_signalEntry s n n

theorem quiet_signalBerth (b i : Nat) : Quiet s (s.signalBerth b i) := quiet_signalEntry s _ _

theorem quiet_signalAll (i : Nat) : Quiet s (s.signalAll i) := Quiet.foldl _ (fun s b => quiet_signalBerth s b i) _ s

theorem quiet_evtCount (pa : Nat) : Quiet s (s.evtCount pa) := by
  unfold State.evtCount
  split
  · exact quiet_perfEvent s _ _ _ _
  · rfl

theorem quiet_record (pa flags : Nat) (src : Option Nat) : Quiet s (s.record pa flags src) := by
  have k : Quiet s ((s.setReg pa (recorded (s.reg pa) flags)).evtCount pa) :=
    Quiet.trans (b := s.setReg pa (recorded (s.reg pa) flags)) rfl (quiet_evtCount _ pa)
  cases src with
  | none => exact k
  | some n => exact k.trans (quiet_signal _ n)

theorem quiet_setRegs (l : List (Nat × W32)) : ∀ s : State, Quiet s (s.setRegs l) := by
  induction l with
  | nil => intro s; rfl
  | cons e r ih => intro s; exact Quiet.trans (b := s.setReg e.1 e.2) rfl (ih _)

theorem quiet_recordCap (pa flags : Nat) (src : Option Nat) (caps : List (Nat × W32)) : Quiet s (s.recordCap pa flags src caps) := by
  unfold State.recordCap
  simp only
  split
  · exact (quiet_record s pa flags src).trans (quiet_setRegs caps _)
  · exact quiet_record s pa flags src

theorem quiet_satReg16 (pa : Nat) : Quiet s (s.satReg16 pa) := rfl

theorem Quiet.time {s s' : State} (h : Quiet s s') : s'.time = s.time := by have e := congrArg State.time h; exact e
theorem Quiet.gtb {s s' : State} (h : Quiet s s') : s'.gtb = s.gtb := by have e := congrArg State.gtb h; exact e
theorem Quiet.free {s s' : State} (h : Quiet s s') : s'.free = s.free := by have e := congrArg State.free h; exact e
theorem Quiet.mem {s s' : State} (h : Quiet s s') : s'.mem = s.mem := by have e := congrArg State.mem h; exact e
theorem Quiet.poison {s s' : State} (h : Quiet s s') : s'.poison = s.poison := by have e := congrArg State.poison h; exact e
theorem Quiet.thr {s s' : State} (h : Quiet s s') : s'.thr = s.thr := by have e := congrArg State.thr h; exact e
theorem Quiet.cores {s s' : State} (h : Quiet s s') : s'.cores = s.cores := by have e := congrArg State.cores h; exact e
theorem Quiet.tlbs {s s' : State} (h : Quiet s s') : s'.tlbs = s.tlbs := by have e := congrArg State.tlbs h; exact e
theorem Quiet.tlbis {s s' : State} (h : Quiet s s') : s'.tlbis = s.tlbis := by have e := congrArg State.tlbis h; exact e
theorem Quiet.walks {s s' : State} (h : Quiet s s') : s'.walks = s.walks := by have e := congrArg State.walks h; exact e
theorem Quiet.ioctx {s s' : State} (h : Quiet s s') : s'.ioctx = s.ioctx := by have e := congrArg State.ioctx h; exact e
theorem Quiet.coh {s s' : State} (h : Quiet s s') : s'.coh = s.coh := by have e := congrArg State.coh h; exact e
theorem Quiet.pat {s s' : State} (h : Quiet s s') : s'.pat = s.pat := by have e := congrArg State.pat h; exact e
theorem Quiet.routeBad {s s' : State} (h : Quiet s s') : s'.routeBad = s.routeBad := by have e := congrArg State.routeBad h; exact e
theorem Quiet.routeFlips {s s' : State} (h : Quiet s s') : s'.routeFlips = s.routeFlips := by have e := congrArg State.routeFlips h; exact e
theorem Quiet.cand {s s' : State} (h : Quiet s s') : s'.cand = s.cand := by have e := congrArg State.cand h; exact e
theorem Quiet.errCnt {s s' : State} (h : Quiet s s') : s'.errCnt = s.errCnt := by have e := congrArg State.errCnt h; exact e
theorem Quiet.fabTimeoutEvr {s s' : State} (h : Quiet s s') : s'.fabTimeoutEvr = s.fabTimeoutEvr := by have e := congrArg State.fabTimeoutEvr h; exact e
theorem Quiet.log {s s' : State} (h : Quiet s s') : s'.log = s.log := by have e := congrArg State.log h; exact e
theorem Quiet.logSeq {s s' : State} (h : Quiet s s') : s'.logSeq = s.logSeq := by have e := congrArg State.logSeq h; exact e
theorem Quiet.dom {s s' : State} (h : Quiet s s') : s'.dom = s.dom := by have e := congrArg State.dom h; exact e
theorem Quiet.domReq {s s' : State} (h : Quiet s s') : s'.domReq = s.domReq := by have e := congrArg State.domReq h; exact e
theorem Quiet.frozen {s s' : State} (h : Quiet s s') : s'.frozen = s.frozen := by have e := congrArg State.frozen h; exact e
theorem Quiet.frzReq {s s' : State} (h : Quiet s s') : s'.frzReq = s.frzReq := by have e := congrArg State.frzReq h; exact e
theorem Quiet.dramCap {s s' : State} (h : Quiet s s') : s'.dramCap = s.dramCap := by have e := congrArg State.dramCap h; exact e
theorem Quiet.dram {s s' : State} (h : Quiet s s') : s'.dram = s.dram := by have e := congrArg State.dram h; exact e
theorem Quiet.checkers {s s' : State} (h : Quiet s s') : s'.checkers = s.checkers := by have e := congrArg State.checkers h; exact e
theorem Quiet.memOff {s s' : State} (h : Quiet s s') : s'.memOff = s.memOff := by have e := congrArg State.memOff h; exact e
theorem Quiet.flashCap {s s' : State} (h : Quiet s s') : s'.flashCap = s.flashCap := by have e := congrArg State.flashCap h; exact e
theorem Quiet.prot {s s' : State} (h : Quiet s s') : s'.prot = s.prot := by have e := congrArg State.prot h; exact e
theorem Quiet.dbgLevel {s s' : State} (h : Quiet s s') : s'.dbgLevel = s.dbgLevel := by have e := congrArg State.dbgLevel h; exact e
theorem Quiet.paired {s s' : State} (h : Quiet s s') : s'.paired = s.paired := by have e := congrArg State.paired h; exact e
theorem Quiet.hm {s s' : State} (h : Quiet s s') : s'.hm = s.hm := by have e := congrArg State.hm h; exact e
theorem Quiet.order {s s' : State} (h : Quiet s s') : s'.order = s.order := by have e := congrArg State.order h; exact e
theorem Quiet.pwr {s s' : State} (h : Quiet s s') : s'.pwr = s.pwr := by have e := congrArg State.pwr h; exact e
theorem Quiet.sec {s s' : State} (h : Quiet s s') : s'.sec = s.sec := by have e := congrArg State.sec h; exact e
theorem Quiet.dbg {s s' : State} (h : Quiet s s') : s'.dbg = s.dbg := by have e := congrArg State.dbg h; exact e
theorem Quiet.trc {s s' : State} (h : Quiet s s') : s'.trc = s.trc := by have e := congrArg State.trc h; exact e
theorem Quiet.gtbFrac {s s' : State} (h : Quiet s s') : s'.gtbFrac = s.gtbFrac := by have e := congrArg State.gtbFrac h; exact e
theorem Quiet.lockLow {s s' : State} (h : Quiet s s') : s'.lockLow = s.lockLow := by have e := congrArg State.lockLow h; exact e
theorem Quiet.lockMin {s s' : State} (h : Quiet s s') : s'.lockMin = s.lockMin := by have e := congrArg State.lockMin h; exact e
theorem Quiet.eth {s s' : State} (h : Quiet s s') : s'.eth = s.eth := by have e := congrArg State.eth h; exact e
theorem Quiet.pcie {s s' : State} (h : Quiet s s') : s'.pcie = s.pcie := by have e := congrArg State.pcie h; exact e
theorem Quiet.can {s s' : State} (h : Quiet s s') : s'.can = s.can := by have e := congrArg State.can h; exact e
theorem Quiet.csh {s s' : State} (h : Quiet s s') : s'.csh = s.csh := by have e := congrArg State.csh h; exact e
theorem Quiet.bus {s s' : State} (h : Quiet s s') : s'.bus = s.bus := by have e := congrArg State.bus h; exact e
theorem Quiet.gw {s s' : State} (h : Quiet s s') : s'.gw = s.gw := by have e := congrArg State.gw h; exact e
theorem Quiet.tgp {s s' : State} (h : Quiet s s') : s'.tgp = s.tgp := by have e := congrArg State.tgp h; exact e
theorem Quiet.alarms {s s' : State} (h : Quiet s s') : s'.alarms = s.alarms := by have e := congrArg State.alarms h; exact e
theorem Quiet.rstReq {s s' : State} (h : Quiet s s') : s'.rstReq = s.rstReq := by have e := congrArg State.rstReq h; exact e
theorem Quiet.waits {s s' : State} (h : Quiet s s') : s'.waits = s.waits := by have e := congrArg State.waits h; exact e
theorem Quiet.rdata {s s' : State} (h : Quiet s s') : s'.rdata = s.rdata := by have e := congrArg State.rdata h; exact e
theorem Quiet.sspOut {s s' : State} (h : Quiet s s') : s'.sspOut = s.sspOut := by have e := congrArg State.sspOut h; exact e
theorem Quiet.pending {s s' : State} (h : Quiet s s') : s'.pending = s.pending := by have e := congrArg State.pending h; exact e

/-- A count changes the counter besides. -/
theorem count_frame (g r : Nat) : Quiet { s with errCnt := (s.count g r).errCnt } (s.count g r) := by
  unfold State.count
  simp only
  split
  · split
    · have h := quiet_signalBerth { s with errCnt := Tbl.set (fun _ => (0 : Nat)) s.errCnt (g * 32 + r) (s.counter g r + 1) } (g - 0x100) 3
      have e := congrArg State.errCnt h
      have e : _ = _ := e
      rw [show (State.signalBerth _ _ _).errCnt = _ from e]
      exact h
    · rfl
  · rfl

/-! ## Fields after `perfEvent` -/

@[simp] theorem perfEvent_time (u code n : Nat) (who : Option (Nat × Nat)) : (s.perfEvent u code n who).time = s.time := (quiet_perfEvent s u code n who).time
@[simp] theorem perfEvent_gtb (u code n : Nat) (who : Option (Nat × Nat)) : (s.perfEvent u code n who).gtb = s.gtb := (quiet_perfEvent s u code n who).gtb
@[simp] theorem perfEvent_free (u code n : Nat) (who : Option (Nat × Nat)) : (s.perfEvent u code n who).free = s.free := (quiet_perfEvent s u code n who).free
@[simp] theorem perfEvent_mem (u code n : Nat) (who : Option (Nat × Nat)) : (s.perfEvent u code n who).mem = s.mem := (quiet_perfEvent s u code n who).mem
@[simp] theorem perfEvent_poison (u code n : Nat) (who : Option (Nat × Nat)) : (s.perfEvent u code n who).poison = s.poison := (quiet_perfEvent s u code n who).poison
@[simp] theorem perfEvent_thr (u code n : Nat) (who : Option (Nat × Nat)) : (s.perfEvent u code n who).thr = s.thr := (quiet_perfEvent s u code n who).thr
@[simp] theorem perfEvent_cores (u code n : Nat) (who : Option (Nat × Nat)) : (s.perfEvent u code n who).cores = s.cores := (quiet_perfEvent s u code n who).cores
@[simp] theorem perfEvent_tlbs (u code n : Nat) (who : Option (Nat × Nat)) : (s.perfEvent u code n who).tlbs = s.tlbs := (quiet_perfEvent s u code n who).tlbs
@[simp] theorem perfEvent_tlbis (u code n : Nat) (who : Option (Nat × Nat)) : (s.perfEvent u code n who).tlbis = s.tlbis := (quiet_perfEvent s u code n who).tlbis
@[simp] theorem perfEvent_walks (u code n : Nat) (who : Option (Nat × Nat)) : (s.perfEvent u code n who).walks = s.walks := (quiet_perfEvent s u code n who).walks
@[simp] theorem perfEvent_ioctx (u code n : Nat) (who : Option (Nat × Nat)) : (s.perfEvent u code n who).ioctx = s.ioctx := (quiet_perfEvent s u code n who).ioctx
@[simp] theorem perfEvent_coh (u code n : Nat) (who : Option (Nat × Nat)) : (s.perfEvent u code n who).coh = s.coh := (quiet_perfEvent s u code n who).coh
@[simp] theorem perfEvent_pat (u code n : Nat) (who : Option (Nat × Nat)) : (s.perfEvent u code n who).pat = s.pat := (quiet_perfEvent s u code n who).pat
@[simp] theorem perfEvent_routeBad (u code n : Nat) (who : Option (Nat × Nat)) : (s.perfEvent u code n who).routeBad = s.routeBad := (quiet_perfEvent s u code n who).routeBad
@[simp] theorem perfEvent_routeFlips (u code n : Nat) (who : Option (Nat × Nat)) : (s.perfEvent u code n who).routeFlips = s.routeFlips := (quiet_perfEvent s u code n who).routeFlips
@[simp] theorem perfEvent_cand (u code n : Nat) (who : Option (Nat × Nat)) : (s.perfEvent u code n who).cand = s.cand := (quiet_perfEvent s u code n who).cand
@[simp] theorem perfEvent_errCnt (u code n : Nat) (who : Option (Nat × Nat)) : (s.perfEvent u code n who).errCnt = s.errCnt := (quiet_perfEvent s u code n who).errCnt
@[simp] theorem perfEvent_fabTimeoutEvr (u code n : Nat) (who : Option (Nat × Nat)) : (s.perfEvent u code n who).fabTimeoutEvr = s.fabTimeoutEvr := (quiet_perfEvent s u code n who).fabTimeoutEvr
@[simp] theorem perfEvent_log (u code n : Nat) (who : Option (Nat × Nat)) : (s.perfEvent u code n who).log = s.log := (quiet_perfEvent s u code n who).log
@[simp] theorem perfEvent_logSeq (u code n : Nat) (who : Option (Nat × Nat)) : (s.perfEvent u code n who).logSeq = s.logSeq := (quiet_perfEvent s u code n who).logSeq
@[simp] theorem perfEvent_dom (u code n : Nat) (who : Option (Nat × Nat)) : (s.perfEvent u code n who).dom = s.dom := (quiet_perfEvent s u code n who).dom
@[simp] theorem perfEvent_domReq (u code n : Nat) (who : Option (Nat × Nat)) : (s.perfEvent u code n who).domReq = s.domReq := (quiet_perfEvent s u code n who).domReq
@[simp] theorem perfEvent_frozen (u code n : Nat) (who : Option (Nat × Nat)) : (s.perfEvent u code n who).frozen = s.frozen := (quiet_perfEvent s u code n who).frozen
@[simp] theorem perfEvent_frzReq (u code n : Nat) (who : Option (Nat × Nat)) : (s.perfEvent u code n who).frzReq = s.frzReq := (quiet_perfEvent s u code n who).frzReq
@[simp] theorem perfEvent_dramCap (u code n : Nat) (who : Option (Nat × Nat)) : (s.perfEvent u code n who).dramCap = s.dramCap := (quiet_perfEvent s u code n who).dramCap
@[simp] theorem perfEvent_dram (u code n : Nat) (who : Option (Nat × Nat)) : (s.perfEvent u code n who).dram = s.dram := (quiet_perfEvent s u code n who).dram
@[simp] theorem perfEvent_checkers (u code n : Nat) (who : Option (Nat × Nat)) : (s.perfEvent u code n who).checkers = s.checkers := (quiet_perfEvent s u code n who).checkers
@[simp] theorem perfEvent_memOff (u code n : Nat) (who : Option (Nat × Nat)) : (s.perfEvent u code n who).memOff = s.memOff := (quiet_perfEvent s u code n who).memOff
@[simp] theorem perfEvent_flashCap (u code n : Nat) (who : Option (Nat × Nat)) : (s.perfEvent u code n who).flashCap = s.flashCap := (quiet_perfEvent s u code n who).flashCap
@[simp] theorem perfEvent_prot (u code n : Nat) (who : Option (Nat × Nat)) : (s.perfEvent u code n who).prot = s.prot := (quiet_perfEvent s u code n who).prot
@[simp] theorem perfEvent_dbgLevel (u code n : Nat) (who : Option (Nat × Nat)) : (s.perfEvent u code n who).dbgLevel = s.dbgLevel := (quiet_perfEvent s u code n who).dbgLevel
@[simp] theorem perfEvent_paired (u code n : Nat) (who : Option (Nat × Nat)) : (s.perfEvent u code n who).paired = s.paired := (quiet_perfEvent s u code n who).paired
@[simp] theorem perfEvent_hm (u code n : Nat) (who : Option (Nat × Nat)) : (s.perfEvent u code n who).hm = s.hm := (quiet_perfEvent s u code n who).hm
@[simp] theorem perfEvent_order (u code n : Nat) (who : Option (Nat × Nat)) : (s.perfEvent u code n who).order = s.order := (quiet_perfEvent s u code n who).order
@[simp] theorem perfEvent_pwr (u code n : Nat) (who : Option (Nat × Nat)) : (s.perfEvent u code n who).pwr = s.pwr := (quiet_perfEvent s u code n who).pwr
@[simp] theorem perfEvent_sec (u code n : Nat) (who : Option (Nat × Nat)) : (s.perfEvent u code n who).sec = s.sec := (quiet_perfEvent s u code n who).sec
@[simp] theorem perfEvent_dbg (u code n : Nat) (who : Option (Nat × Nat)) : (s.perfEvent u code n who).dbg = s.dbg := (quiet_perfEvent s u code n who).dbg
@[simp] theorem perfEvent_trc (u code n : Nat) (who : Option (Nat × Nat)) : (s.perfEvent u code n who).trc = s.trc := (quiet_perfEvent s u code n who).trc
@[simp] theorem perfEvent_gtbFrac (u code n : Nat) (who : Option (Nat × Nat)) : (s.perfEvent u code n who).gtbFrac = s.gtbFrac := (quiet_perfEvent s u code n who).gtbFrac
@[simp] theorem perfEvent_lockLow (u code n : Nat) (who : Option (Nat × Nat)) : (s.perfEvent u code n who).lockLow = s.lockLow := (quiet_perfEvent s u code n who).lockLow
@[simp] theorem perfEvent_lockMin (u code n : Nat) (who : Option (Nat × Nat)) : (s.perfEvent u code n who).lockMin = s.lockMin := (quiet_perfEvent s u code n who).lockMin
@[simp] theorem perfEvent_eth (u code n : Nat) (who : Option (Nat × Nat)) : (s.perfEvent u code n who).eth = s.eth := (quiet_perfEvent s u code n who).eth
@[simp] theorem perfEvent_pcie (u code n : Nat) (who : Option (Nat × Nat)) : (s.perfEvent u code n who).pcie = s.pcie := (quiet_perfEvent s u code n who).pcie
@[simp] theorem perfEvent_can (u code n : Nat) (who : Option (Nat × Nat)) : (s.perfEvent u code n who).can = s.can := (quiet_perfEvent s u code n who).can
@[simp] theorem perfEvent_csh (u code n : Nat) (who : Option (Nat × Nat)) : (s.perfEvent u code n who).csh = s.csh := (quiet_perfEvent s u code n who).csh
@[simp] theorem perfEvent_bus (u code n : Nat) (who : Option (Nat × Nat)) : (s.perfEvent u code n who).bus = s.bus := (quiet_perfEvent s u code n who).bus
@[simp] theorem perfEvent_gw (u code n : Nat) (who : Option (Nat × Nat)) : (s.perfEvent u code n who).gw = s.gw := (quiet_perfEvent s u code n who).gw
@[simp] theorem perfEvent_tgp (u code n : Nat) (who : Option (Nat × Nat)) : (s.perfEvent u code n who).tgp = s.tgp := (quiet_perfEvent s u code n who).tgp
@[simp] theorem perfEvent_alarms (u code n : Nat) (who : Option (Nat × Nat)) : (s.perfEvent u code n who).alarms = s.alarms := (quiet_perfEvent s u code n who).alarms
@[simp] theorem perfEvent_rstReq (u code n : Nat) (who : Option (Nat × Nat)) : (s.perfEvent u code n who).rstReq = s.rstReq := (quiet_perfEvent s u code n who).rstReq
@[simp] theorem perfEvent_waits (u code n : Nat) (who : Option (Nat × Nat)) : (s.perfEvent u code n who).waits = s.waits := (quiet_perfEvent s u code n who).waits
@[simp] theorem perfEvent_rdata (u code n : Nat) (who : Option (Nat × Nat)) : (s.perfEvent u code n who).rdata = s.rdata := (quiet_perfEvent s u code n who).rdata
@[simp] theorem perfEvent_sspOut (u code n : Nat) (who : Option (Nat × Nat)) : (s.perfEvent u code n who).sspOut = s.sspOut := (quiet_perfEvent s u code n who).sspOut
@[simp] theorem perfEvent_pending (u code n : Nat) (who : Option (Nat × Nat)) : (s.perfEvent u code n who).pending = s.pending := (quiet_perfEvent s u code n who).pending

/-! ## Fields after `signal` -/

@[simp] theorem signal_time (n : Nat) : (s.signal n).time = s.time := (quiet_signal s n).time
@[simp] theorem signal_gtb (n : Nat) : (s.signal n).gtb = s.gtb := (quiet_signal s n).gtb
@[simp] theorem signal_free (n : Nat) : (s.signal n).free = s.free := (quiet_signal s n).free
@[simp] theorem signal_mem (n : Nat) : (s.signal n).mem = s.mem := (quiet_signal s n).mem
@[simp] theorem signal_poison (n : Nat) : (s.signal n).poison = s.poison := (quiet_signal s n).poison
@[simp] theorem signal_thr (n : Nat) : (s.signal n).thr = s.thr := (quiet_signal s n).thr
@[simp] theorem signal_cores (n : Nat) : (s.signal n).cores = s.cores := (quiet_signal s n).cores
@[simp] theorem signal_tlbs (n : Nat) : (s.signal n).tlbs = s.tlbs := (quiet_signal s n).tlbs
@[simp] theorem signal_tlbis (n : Nat) : (s.signal n).tlbis = s.tlbis := (quiet_signal s n).tlbis
@[simp] theorem signal_walks (n : Nat) : (s.signal n).walks = s.walks := (quiet_signal s n).walks
@[simp] theorem signal_ioctx (n : Nat) : (s.signal n).ioctx = s.ioctx := (quiet_signal s n).ioctx
@[simp] theorem signal_coh (n : Nat) : (s.signal n).coh = s.coh := (quiet_signal s n).coh
@[simp] theorem signal_pat (n : Nat) : (s.signal n).pat = s.pat := (quiet_signal s n).pat
@[simp] theorem signal_routeBad (n : Nat) : (s.signal n).routeBad = s.routeBad := (quiet_signal s n).routeBad
@[simp] theorem signal_routeFlips (n : Nat) : (s.signal n).routeFlips = s.routeFlips := (quiet_signal s n).routeFlips
@[simp] theorem signal_cand (n : Nat) : (s.signal n).cand = s.cand := (quiet_signal s n).cand
@[simp] theorem signal_errCnt (n : Nat) : (s.signal n).errCnt = s.errCnt := (quiet_signal s n).errCnt
@[simp] theorem signal_fabTimeoutEvr (n : Nat) : (s.signal n).fabTimeoutEvr = s.fabTimeoutEvr := (quiet_signal s n).fabTimeoutEvr
@[simp] theorem signal_log (n : Nat) : (s.signal n).log = s.log := (quiet_signal s n).log
@[simp] theorem signal_logSeq (n : Nat) : (s.signal n).logSeq = s.logSeq := (quiet_signal s n).logSeq
@[simp] theorem signal_dom (n : Nat) : (s.signal n).dom = s.dom := (quiet_signal s n).dom
@[simp] theorem signal_domReq (n : Nat) : (s.signal n).domReq = s.domReq := (quiet_signal s n).domReq
@[simp] theorem signal_frozen (n : Nat) : (s.signal n).frozen = s.frozen := (quiet_signal s n).frozen
@[simp] theorem signal_frzReq (n : Nat) : (s.signal n).frzReq = s.frzReq := (quiet_signal s n).frzReq
@[simp] theorem signal_dramCap (n : Nat) : (s.signal n).dramCap = s.dramCap := (quiet_signal s n).dramCap
@[simp] theorem signal_dram (n : Nat) : (s.signal n).dram = s.dram := (quiet_signal s n).dram
@[simp] theorem signal_checkers (n : Nat) : (s.signal n).checkers = s.checkers := (quiet_signal s n).checkers
@[simp] theorem signal_memOff (n : Nat) : (s.signal n).memOff = s.memOff := (quiet_signal s n).memOff
@[simp] theorem signal_flashCap (n : Nat) : (s.signal n).flashCap = s.flashCap := (quiet_signal s n).flashCap
@[simp] theorem signal_prot (n : Nat) : (s.signal n).prot = s.prot := (quiet_signal s n).prot
@[simp] theorem signal_dbgLevel (n : Nat) : (s.signal n).dbgLevel = s.dbgLevel := (quiet_signal s n).dbgLevel
@[simp] theorem signal_paired (n : Nat) : (s.signal n).paired = s.paired := (quiet_signal s n).paired
@[simp] theorem signal_hm (n : Nat) : (s.signal n).hm = s.hm := (quiet_signal s n).hm
@[simp] theorem signal_order (n : Nat) : (s.signal n).order = s.order := (quiet_signal s n).order
@[simp] theorem signal_pwr (n : Nat) : (s.signal n).pwr = s.pwr := (quiet_signal s n).pwr
@[simp] theorem signal_sec (n : Nat) : (s.signal n).sec = s.sec := (quiet_signal s n).sec
@[simp] theorem signal_dbg (n : Nat) : (s.signal n).dbg = s.dbg := (quiet_signal s n).dbg
@[simp] theorem signal_trc (n : Nat) : (s.signal n).trc = s.trc := (quiet_signal s n).trc
@[simp] theorem signal_gtbFrac (n : Nat) : (s.signal n).gtbFrac = s.gtbFrac := (quiet_signal s n).gtbFrac
@[simp] theorem signal_lockLow (n : Nat) : (s.signal n).lockLow = s.lockLow := (quiet_signal s n).lockLow
@[simp] theorem signal_lockMin (n : Nat) : (s.signal n).lockMin = s.lockMin := (quiet_signal s n).lockMin
@[simp] theorem signal_eth (n : Nat) : (s.signal n).eth = s.eth := (quiet_signal s n).eth
@[simp] theorem signal_pcie (n : Nat) : (s.signal n).pcie = s.pcie := (quiet_signal s n).pcie
@[simp] theorem signal_can (n : Nat) : (s.signal n).can = s.can := (quiet_signal s n).can
@[simp] theorem signal_csh (n : Nat) : (s.signal n).csh = s.csh := (quiet_signal s n).csh
@[simp] theorem signal_bus (n : Nat) : (s.signal n).bus = s.bus := (quiet_signal s n).bus
@[simp] theorem signal_gw (n : Nat) : (s.signal n).gw = s.gw := (quiet_signal s n).gw
@[simp] theorem signal_tgp (n : Nat) : (s.signal n).tgp = s.tgp := (quiet_signal s n).tgp
@[simp] theorem signal_alarms (n : Nat) : (s.signal n).alarms = s.alarms := (quiet_signal s n).alarms
@[simp] theorem signal_rstReq (n : Nat) : (s.signal n).rstReq = s.rstReq := (quiet_signal s n).rstReq
@[simp] theorem signal_waits (n : Nat) : (s.signal n).waits = s.waits := (quiet_signal s n).waits
@[simp] theorem signal_rdata (n : Nat) : (s.signal n).rdata = s.rdata := (quiet_signal s n).rdata
@[simp] theorem signal_sspOut (n : Nat) : (s.signal n).sspOut = s.sspOut := (quiet_signal s n).sspOut
@[simp] theorem signal_pending (n : Nat) : (s.signal n).pending = s.pending := (quiet_signal s n).pending

/-! ## Fields after `signalBerth` -/

@[simp] theorem signalBerth_time (b i : Nat) : (s.signalBerth b i).time = s.time := (quiet_signalBerth s b i).time
@[simp] theorem signalBerth_gtb (b i : Nat) : (s.signalBerth b i).gtb = s.gtb := (quiet_signalBerth s b i).gtb
@[simp] theorem signalBerth_free (b i : Nat) : (s.signalBerth b i).free = s.free := (quiet_signalBerth s b i).free
@[simp] theorem signalBerth_mem (b i : Nat) : (s.signalBerth b i).mem = s.mem := (quiet_signalBerth s b i).mem
@[simp] theorem signalBerth_poison (b i : Nat) : (s.signalBerth b i).poison = s.poison := (quiet_signalBerth s b i).poison
@[simp] theorem signalBerth_thr (b i : Nat) : (s.signalBerth b i).thr = s.thr := (quiet_signalBerth s b i).thr
@[simp] theorem signalBerth_cores (b i : Nat) : (s.signalBerth b i).cores = s.cores := (quiet_signalBerth s b i).cores
@[simp] theorem signalBerth_tlbs (b i : Nat) : (s.signalBerth b i).tlbs = s.tlbs := (quiet_signalBerth s b i).tlbs
@[simp] theorem signalBerth_tlbis (b i : Nat) : (s.signalBerth b i).tlbis = s.tlbis := (quiet_signalBerth s b i).tlbis
@[simp] theorem signalBerth_walks (b i : Nat) : (s.signalBerth b i).walks = s.walks := (quiet_signalBerth s b i).walks
@[simp] theorem signalBerth_ioctx (b i : Nat) : (s.signalBerth b i).ioctx = s.ioctx := (quiet_signalBerth s b i).ioctx
@[simp] theorem signalBerth_coh (b i : Nat) : (s.signalBerth b i).coh = s.coh := (quiet_signalBerth s b i).coh
@[simp] theorem signalBerth_pat (b i : Nat) : (s.signalBerth b i).pat = s.pat := (quiet_signalBerth s b i).pat
@[simp] theorem signalBerth_routeBad (b i : Nat) : (s.signalBerth b i).routeBad = s.routeBad := (quiet_signalBerth s b i).routeBad
@[simp] theorem signalBerth_routeFlips (b i : Nat) : (s.signalBerth b i).routeFlips = s.routeFlips := (quiet_signalBerth s b i).routeFlips
@[simp] theorem signalBerth_cand (b i : Nat) : (s.signalBerth b i).cand = s.cand := (quiet_signalBerth s b i).cand
@[simp] theorem signalBerth_errCnt (b i : Nat) : (s.signalBerth b i).errCnt = s.errCnt := (quiet_signalBerth s b i).errCnt
@[simp] theorem signalBerth_fabTimeoutEvr (b i : Nat) : (s.signalBerth b i).fabTimeoutEvr = s.fabTimeoutEvr := (quiet_signalBerth s b i).fabTimeoutEvr
@[simp] theorem signalBerth_log (b i : Nat) : (s.signalBerth b i).log = s.log := (quiet_signalBerth s b i).log
@[simp] theorem signalBerth_logSeq (b i : Nat) : (s.signalBerth b i).logSeq = s.logSeq := (quiet_signalBerth s b i).logSeq
@[simp] theorem signalBerth_dom (b i : Nat) : (s.signalBerth b i).dom = s.dom := (quiet_signalBerth s b i).dom
@[simp] theorem signalBerth_domReq (b i : Nat) : (s.signalBerth b i).domReq = s.domReq := (quiet_signalBerth s b i).domReq
@[simp] theorem signalBerth_frozen (b i : Nat) : (s.signalBerth b i).frozen = s.frozen := (quiet_signalBerth s b i).frozen
@[simp] theorem signalBerth_frzReq (b i : Nat) : (s.signalBerth b i).frzReq = s.frzReq := (quiet_signalBerth s b i).frzReq
@[simp] theorem signalBerth_dramCap (b i : Nat) : (s.signalBerth b i).dramCap = s.dramCap := (quiet_signalBerth s b i).dramCap
@[simp] theorem signalBerth_dram (b i : Nat) : (s.signalBerth b i).dram = s.dram := (quiet_signalBerth s b i).dram
@[simp] theorem signalBerth_checkers (b i : Nat) : (s.signalBerth b i).checkers = s.checkers := (quiet_signalBerth s b i).checkers
@[simp] theorem signalBerth_memOff (b i : Nat) : (s.signalBerth b i).memOff = s.memOff := (quiet_signalBerth s b i).memOff
@[simp] theorem signalBerth_flashCap (b i : Nat) : (s.signalBerth b i).flashCap = s.flashCap := (quiet_signalBerth s b i).flashCap
@[simp] theorem signalBerth_prot (b i : Nat) : (s.signalBerth b i).prot = s.prot := (quiet_signalBerth s b i).prot
@[simp] theorem signalBerth_dbgLevel (b i : Nat) : (s.signalBerth b i).dbgLevel = s.dbgLevel := (quiet_signalBerth s b i).dbgLevel
@[simp] theorem signalBerth_paired (b i : Nat) : (s.signalBerth b i).paired = s.paired := (quiet_signalBerth s b i).paired
@[simp] theorem signalBerth_hm (b i : Nat) : (s.signalBerth b i).hm = s.hm := (quiet_signalBerth s b i).hm
@[simp] theorem signalBerth_order (b i : Nat) : (s.signalBerth b i).order = s.order := (quiet_signalBerth s b i).order
@[simp] theorem signalBerth_pwr (b i : Nat) : (s.signalBerth b i).pwr = s.pwr := (quiet_signalBerth s b i).pwr
@[simp] theorem signalBerth_sec (b i : Nat) : (s.signalBerth b i).sec = s.sec := (quiet_signalBerth s b i).sec
@[simp] theorem signalBerth_dbg (b i : Nat) : (s.signalBerth b i).dbg = s.dbg := (quiet_signalBerth s b i).dbg
@[simp] theorem signalBerth_trc (b i : Nat) : (s.signalBerth b i).trc = s.trc := (quiet_signalBerth s b i).trc
@[simp] theorem signalBerth_gtbFrac (b i : Nat) : (s.signalBerth b i).gtbFrac = s.gtbFrac := (quiet_signalBerth s b i).gtbFrac
@[simp] theorem signalBerth_lockLow (b i : Nat) : (s.signalBerth b i).lockLow = s.lockLow := (quiet_signalBerth s b i).lockLow
@[simp] theorem signalBerth_lockMin (b i : Nat) : (s.signalBerth b i).lockMin = s.lockMin := (quiet_signalBerth s b i).lockMin
@[simp] theorem signalBerth_eth (b i : Nat) : (s.signalBerth b i).eth = s.eth := (quiet_signalBerth s b i).eth
@[simp] theorem signalBerth_pcie (b i : Nat) : (s.signalBerth b i).pcie = s.pcie := (quiet_signalBerth s b i).pcie
@[simp] theorem signalBerth_can (b i : Nat) : (s.signalBerth b i).can = s.can := (quiet_signalBerth s b i).can
@[simp] theorem signalBerth_csh (b i : Nat) : (s.signalBerth b i).csh = s.csh := (quiet_signalBerth s b i).csh
@[simp] theorem signalBerth_bus (b i : Nat) : (s.signalBerth b i).bus = s.bus := (quiet_signalBerth s b i).bus
@[simp] theorem signalBerth_gw (b i : Nat) : (s.signalBerth b i).gw = s.gw := (quiet_signalBerth s b i).gw
@[simp] theorem signalBerth_tgp (b i : Nat) : (s.signalBerth b i).tgp = s.tgp := (quiet_signalBerth s b i).tgp
@[simp] theorem signalBerth_alarms (b i : Nat) : (s.signalBerth b i).alarms = s.alarms := (quiet_signalBerth s b i).alarms
@[simp] theorem signalBerth_rstReq (b i : Nat) : (s.signalBerth b i).rstReq = s.rstReq := (quiet_signalBerth s b i).rstReq
@[simp] theorem signalBerth_waits (b i : Nat) : (s.signalBerth b i).waits = s.waits := (quiet_signalBerth s b i).waits
@[simp] theorem signalBerth_rdata (b i : Nat) : (s.signalBerth b i).rdata = s.rdata := (quiet_signalBerth s b i).rdata
@[simp] theorem signalBerth_sspOut (b i : Nat) : (s.signalBerth b i).sspOut = s.sspOut := (quiet_signalBerth s b i).sspOut
@[simp] theorem signalBerth_pending (b i : Nat) : (s.signalBerth b i).pending = s.pending := (quiet_signalBerth s b i).pending

/-! ## Fields after `signalAll` -/

@[simp] theorem signalAll_time (i : Nat) : (s.signalAll i).time = s.time := (quiet_signalAll s i).time
@[simp] theorem signalAll_gtb (i : Nat) : (s.signalAll i).gtb = s.gtb := (quiet_signalAll s i).gtb
@[simp] theorem signalAll_free (i : Nat) : (s.signalAll i).free = s.free := (quiet_signalAll s i).free
@[simp] theorem signalAll_mem (i : Nat) : (s.signalAll i).mem = s.mem := (quiet_signalAll s i).mem
@[simp] theorem signalAll_poison (i : Nat) : (s.signalAll i).poison = s.poison := (quiet_signalAll s i).poison
@[simp] theorem signalAll_thr (i : Nat) : (s.signalAll i).thr = s.thr := (quiet_signalAll s i).thr
@[simp] theorem signalAll_cores (i : Nat) : (s.signalAll i).cores = s.cores := (quiet_signalAll s i).cores
@[simp] theorem signalAll_tlbs (i : Nat) : (s.signalAll i).tlbs = s.tlbs := (quiet_signalAll s i).tlbs
@[simp] theorem signalAll_tlbis (i : Nat) : (s.signalAll i).tlbis = s.tlbis := (quiet_signalAll s i).tlbis
@[simp] theorem signalAll_walks (i : Nat) : (s.signalAll i).walks = s.walks := (quiet_signalAll s i).walks
@[simp] theorem signalAll_ioctx (i : Nat) : (s.signalAll i).ioctx = s.ioctx := (quiet_signalAll s i).ioctx
@[simp] theorem signalAll_coh (i : Nat) : (s.signalAll i).coh = s.coh := (quiet_signalAll s i).coh
@[simp] theorem signalAll_pat (i : Nat) : (s.signalAll i).pat = s.pat := (quiet_signalAll s i).pat
@[simp] theorem signalAll_routeBad (i : Nat) : (s.signalAll i).routeBad = s.routeBad := (quiet_signalAll s i).routeBad
@[simp] theorem signalAll_routeFlips (i : Nat) : (s.signalAll i).routeFlips = s.routeFlips := (quiet_signalAll s i).routeFlips
@[simp] theorem signalAll_cand (i : Nat) : (s.signalAll i).cand = s.cand := (quiet_signalAll s i).cand
@[simp] theorem signalAll_errCnt (i : Nat) : (s.signalAll i).errCnt = s.errCnt := (quiet_signalAll s i).errCnt
@[simp] theorem signalAll_fabTimeoutEvr (i : Nat) : (s.signalAll i).fabTimeoutEvr = s.fabTimeoutEvr := (quiet_signalAll s i).fabTimeoutEvr
@[simp] theorem signalAll_log (i : Nat) : (s.signalAll i).log = s.log := (quiet_signalAll s i).log
@[simp] theorem signalAll_logSeq (i : Nat) : (s.signalAll i).logSeq = s.logSeq := (quiet_signalAll s i).logSeq
@[simp] theorem signalAll_dom (i : Nat) : (s.signalAll i).dom = s.dom := (quiet_signalAll s i).dom
@[simp] theorem signalAll_domReq (i : Nat) : (s.signalAll i).domReq = s.domReq := (quiet_signalAll s i).domReq
@[simp] theorem signalAll_frozen (i : Nat) : (s.signalAll i).frozen = s.frozen := (quiet_signalAll s i).frozen
@[simp] theorem signalAll_frzReq (i : Nat) : (s.signalAll i).frzReq = s.frzReq := (quiet_signalAll s i).frzReq
@[simp] theorem signalAll_dramCap (i : Nat) : (s.signalAll i).dramCap = s.dramCap := (quiet_signalAll s i).dramCap
@[simp] theorem signalAll_dram (i : Nat) : (s.signalAll i).dram = s.dram := (quiet_signalAll s i).dram
@[simp] theorem signalAll_checkers (i : Nat) : (s.signalAll i).checkers = s.checkers := (quiet_signalAll s i).checkers
@[simp] theorem signalAll_memOff (i : Nat) : (s.signalAll i).memOff = s.memOff := (quiet_signalAll s i).memOff
@[simp] theorem signalAll_flashCap (i : Nat) : (s.signalAll i).flashCap = s.flashCap := (quiet_signalAll s i).flashCap
@[simp] theorem signalAll_prot (i : Nat) : (s.signalAll i).prot = s.prot := (quiet_signalAll s i).prot
@[simp] theorem signalAll_dbgLevel (i : Nat) : (s.signalAll i).dbgLevel = s.dbgLevel := (quiet_signalAll s i).dbgLevel
@[simp] theorem signalAll_paired (i : Nat) : (s.signalAll i).paired = s.paired := (quiet_signalAll s i).paired
@[simp] theorem signalAll_hm (i : Nat) : (s.signalAll i).hm = s.hm := (quiet_signalAll s i).hm
@[simp] theorem signalAll_order (i : Nat) : (s.signalAll i).order = s.order := (quiet_signalAll s i).order
@[simp] theorem signalAll_pwr (i : Nat) : (s.signalAll i).pwr = s.pwr := (quiet_signalAll s i).pwr
@[simp] theorem signalAll_sec (i : Nat) : (s.signalAll i).sec = s.sec := (quiet_signalAll s i).sec
@[simp] theorem signalAll_dbg (i : Nat) : (s.signalAll i).dbg = s.dbg := (quiet_signalAll s i).dbg
@[simp] theorem signalAll_trc (i : Nat) : (s.signalAll i).trc = s.trc := (quiet_signalAll s i).trc
@[simp] theorem signalAll_gtbFrac (i : Nat) : (s.signalAll i).gtbFrac = s.gtbFrac := (quiet_signalAll s i).gtbFrac
@[simp] theorem signalAll_lockLow (i : Nat) : (s.signalAll i).lockLow = s.lockLow := (quiet_signalAll s i).lockLow
@[simp] theorem signalAll_lockMin (i : Nat) : (s.signalAll i).lockMin = s.lockMin := (quiet_signalAll s i).lockMin
@[simp] theorem signalAll_eth (i : Nat) : (s.signalAll i).eth = s.eth := (quiet_signalAll s i).eth
@[simp] theorem signalAll_pcie (i : Nat) : (s.signalAll i).pcie = s.pcie := (quiet_signalAll s i).pcie
@[simp] theorem signalAll_can (i : Nat) : (s.signalAll i).can = s.can := (quiet_signalAll s i).can
@[simp] theorem signalAll_csh (i : Nat) : (s.signalAll i).csh = s.csh := (quiet_signalAll s i).csh
@[simp] theorem signalAll_bus (i : Nat) : (s.signalAll i).bus = s.bus := (quiet_signalAll s i).bus
@[simp] theorem signalAll_gw (i : Nat) : (s.signalAll i).gw = s.gw := (quiet_signalAll s i).gw
@[simp] theorem signalAll_tgp (i : Nat) : (s.signalAll i).tgp = s.tgp := (quiet_signalAll s i).tgp
@[simp] theorem signalAll_alarms (i : Nat) : (s.signalAll i).alarms = s.alarms := (quiet_signalAll s i).alarms
@[simp] theorem signalAll_rstReq (i : Nat) : (s.signalAll i).rstReq = s.rstReq := (quiet_signalAll s i).rstReq
@[simp] theorem signalAll_waits (i : Nat) : (s.signalAll i).waits = s.waits := (quiet_signalAll s i).waits
@[simp] theorem signalAll_rdata (i : Nat) : (s.signalAll i).rdata = s.rdata := (quiet_signalAll s i).rdata
@[simp] theorem signalAll_sspOut (i : Nat) : (s.signalAll i).sspOut = s.sspOut := (quiet_signalAll s i).sspOut
@[simp] theorem signalAll_pending (i : Nat) : (s.signalAll i).pending = s.pending := (quiet_signalAll s i).pending

/-! ## Fields after `record` -/

@[simp] theorem record_time (pa flags : Nat) (src : Option Nat) : (s.record pa flags src).time = s.time := (quiet_record s pa flags src).time
@[simp] theorem record_gtb (pa flags : Nat) (src : Option Nat) : (s.record pa flags src).gtb = s.gtb := (quiet_record s pa flags src).gtb
@[simp] theorem record_free (pa flags : Nat) (src : Option Nat) : (s.record pa flags src).free = s.free := (quiet_record s pa flags src).free
@[simp] theorem record_mem (pa flags : Nat) (src : Option Nat) : (s.record pa flags src).mem = s.mem := (quiet_record s pa flags src).mem
@[simp] theorem record_poison (pa flags : Nat) (src : Option Nat) : (s.record pa flags src).poison = s.poison := (quiet_record s pa flags src).poison
@[simp] theorem record_thr (pa flags : Nat) (src : Option Nat) : (s.record pa flags src).thr = s.thr := (quiet_record s pa flags src).thr
@[simp] theorem record_cores (pa flags : Nat) (src : Option Nat) : (s.record pa flags src).cores = s.cores := (quiet_record s pa flags src).cores
@[simp] theorem record_tlbs (pa flags : Nat) (src : Option Nat) : (s.record pa flags src).tlbs = s.tlbs := (quiet_record s pa flags src).tlbs
@[simp] theorem record_tlbis (pa flags : Nat) (src : Option Nat) : (s.record pa flags src).tlbis = s.tlbis := (quiet_record s pa flags src).tlbis
@[simp] theorem record_walks (pa flags : Nat) (src : Option Nat) : (s.record pa flags src).walks = s.walks := (quiet_record s pa flags src).walks
@[simp] theorem record_ioctx (pa flags : Nat) (src : Option Nat) : (s.record pa flags src).ioctx = s.ioctx := (quiet_record s pa flags src).ioctx
@[simp] theorem record_coh (pa flags : Nat) (src : Option Nat) : (s.record pa flags src).coh = s.coh := (quiet_record s pa flags src).coh
@[simp] theorem record_pat (pa flags : Nat) (src : Option Nat) : (s.record pa flags src).pat = s.pat := (quiet_record s pa flags src).pat
@[simp] theorem record_routeBad (pa flags : Nat) (src : Option Nat) : (s.record pa flags src).routeBad = s.routeBad := (quiet_record s pa flags src).routeBad
@[simp] theorem record_routeFlips (pa flags : Nat) (src : Option Nat) : (s.record pa flags src).routeFlips = s.routeFlips := (quiet_record s pa flags src).routeFlips
@[simp] theorem record_cand (pa flags : Nat) (src : Option Nat) : (s.record pa flags src).cand = s.cand := (quiet_record s pa flags src).cand
@[simp] theorem record_errCnt (pa flags : Nat) (src : Option Nat) : (s.record pa flags src).errCnt = s.errCnt := (quiet_record s pa flags src).errCnt
@[simp] theorem record_fabTimeoutEvr (pa flags : Nat) (src : Option Nat) : (s.record pa flags src).fabTimeoutEvr = s.fabTimeoutEvr := (quiet_record s pa flags src).fabTimeoutEvr
@[simp] theorem record_log (pa flags : Nat) (src : Option Nat) : (s.record pa flags src).log = s.log := (quiet_record s pa flags src).log
@[simp] theorem record_logSeq (pa flags : Nat) (src : Option Nat) : (s.record pa flags src).logSeq = s.logSeq := (quiet_record s pa flags src).logSeq
@[simp] theorem record_dom (pa flags : Nat) (src : Option Nat) : (s.record pa flags src).dom = s.dom := (quiet_record s pa flags src).dom
@[simp] theorem record_domReq (pa flags : Nat) (src : Option Nat) : (s.record pa flags src).domReq = s.domReq := (quiet_record s pa flags src).domReq
@[simp] theorem record_frozen (pa flags : Nat) (src : Option Nat) : (s.record pa flags src).frozen = s.frozen := (quiet_record s pa flags src).frozen
@[simp] theorem record_frzReq (pa flags : Nat) (src : Option Nat) : (s.record pa flags src).frzReq = s.frzReq := (quiet_record s pa flags src).frzReq
@[simp] theorem record_dramCap (pa flags : Nat) (src : Option Nat) : (s.record pa flags src).dramCap = s.dramCap := (quiet_record s pa flags src).dramCap
@[simp] theorem record_dram (pa flags : Nat) (src : Option Nat) : (s.record pa flags src).dram = s.dram := (quiet_record s pa flags src).dram
@[simp] theorem record_checkers (pa flags : Nat) (src : Option Nat) : (s.record pa flags src).checkers = s.checkers := (quiet_record s pa flags src).checkers
@[simp] theorem record_memOff (pa flags : Nat) (src : Option Nat) : (s.record pa flags src).memOff = s.memOff := (quiet_record s pa flags src).memOff
@[simp] theorem record_flashCap (pa flags : Nat) (src : Option Nat) : (s.record pa flags src).flashCap = s.flashCap := (quiet_record s pa flags src).flashCap
@[simp] theorem record_prot (pa flags : Nat) (src : Option Nat) : (s.record pa flags src).prot = s.prot := (quiet_record s pa flags src).prot
@[simp] theorem record_dbgLevel (pa flags : Nat) (src : Option Nat) : (s.record pa flags src).dbgLevel = s.dbgLevel := (quiet_record s pa flags src).dbgLevel
@[simp] theorem record_paired (pa flags : Nat) (src : Option Nat) : (s.record pa flags src).paired = s.paired := (quiet_record s pa flags src).paired
@[simp] theorem record_hm (pa flags : Nat) (src : Option Nat) : (s.record pa flags src).hm = s.hm := (quiet_record s pa flags src).hm
@[simp] theorem record_order (pa flags : Nat) (src : Option Nat) : (s.record pa flags src).order = s.order := (quiet_record s pa flags src).order
@[simp] theorem record_pwr (pa flags : Nat) (src : Option Nat) : (s.record pa flags src).pwr = s.pwr := (quiet_record s pa flags src).pwr
@[simp] theorem record_sec (pa flags : Nat) (src : Option Nat) : (s.record pa flags src).sec = s.sec := (quiet_record s pa flags src).sec
@[simp] theorem record_dbg (pa flags : Nat) (src : Option Nat) : (s.record pa flags src).dbg = s.dbg := (quiet_record s pa flags src).dbg
@[simp] theorem record_trc (pa flags : Nat) (src : Option Nat) : (s.record pa flags src).trc = s.trc := (quiet_record s pa flags src).trc
@[simp] theorem record_gtbFrac (pa flags : Nat) (src : Option Nat) : (s.record pa flags src).gtbFrac = s.gtbFrac := (quiet_record s pa flags src).gtbFrac
@[simp] theorem record_lockLow (pa flags : Nat) (src : Option Nat) : (s.record pa flags src).lockLow = s.lockLow := (quiet_record s pa flags src).lockLow
@[simp] theorem record_lockMin (pa flags : Nat) (src : Option Nat) : (s.record pa flags src).lockMin = s.lockMin := (quiet_record s pa flags src).lockMin
@[simp] theorem record_eth (pa flags : Nat) (src : Option Nat) : (s.record pa flags src).eth = s.eth := (quiet_record s pa flags src).eth
@[simp] theorem record_pcie (pa flags : Nat) (src : Option Nat) : (s.record pa flags src).pcie = s.pcie := (quiet_record s pa flags src).pcie
@[simp] theorem record_can (pa flags : Nat) (src : Option Nat) : (s.record pa flags src).can = s.can := (quiet_record s pa flags src).can
@[simp] theorem record_csh (pa flags : Nat) (src : Option Nat) : (s.record pa flags src).csh = s.csh := (quiet_record s pa flags src).csh
@[simp] theorem record_bus (pa flags : Nat) (src : Option Nat) : (s.record pa flags src).bus = s.bus := (quiet_record s pa flags src).bus
@[simp] theorem record_gw (pa flags : Nat) (src : Option Nat) : (s.record pa flags src).gw = s.gw := (quiet_record s pa flags src).gw
@[simp] theorem record_tgp (pa flags : Nat) (src : Option Nat) : (s.record pa flags src).tgp = s.tgp := (quiet_record s pa flags src).tgp
@[simp] theorem record_alarms (pa flags : Nat) (src : Option Nat) : (s.record pa flags src).alarms = s.alarms := (quiet_record s pa flags src).alarms
@[simp] theorem record_rstReq (pa flags : Nat) (src : Option Nat) : (s.record pa flags src).rstReq = s.rstReq := (quiet_record s pa flags src).rstReq
@[simp] theorem record_waits (pa flags : Nat) (src : Option Nat) : (s.record pa flags src).waits = s.waits := (quiet_record s pa flags src).waits
@[simp] theorem record_rdata (pa flags : Nat) (src : Option Nat) : (s.record pa flags src).rdata = s.rdata := (quiet_record s pa flags src).rdata
@[simp] theorem record_sspOut (pa flags : Nat) (src : Option Nat) : (s.record pa flags src).sspOut = s.sspOut := (quiet_record s pa flags src).sspOut
@[simp] theorem record_pending (pa flags : Nat) (src : Option Nat) : (s.record pa flags src).pending = s.pending := (quiet_record s pa flags src).pending

/-! ## Fields after `recordCap` -/

@[simp] theorem recordCap_time (pa flags : Nat) (src : Option Nat) (caps : List (Nat × W32)) : (s.recordCap pa flags src caps).time = s.time := (quiet_recordCap s pa flags src caps).time
@[simp] theorem recordCap_gtb (pa flags : Nat) (src : Option Nat) (caps : List (Nat × W32)) : (s.recordCap pa flags src caps).gtb = s.gtb := (quiet_recordCap s pa flags src caps).gtb
@[simp] theorem recordCap_free (pa flags : Nat) (src : Option Nat) (caps : List (Nat × W32)) : (s.recordCap pa flags src caps).free = s.free := (quiet_recordCap s pa flags src caps).free
@[simp] theorem recordCap_mem (pa flags : Nat) (src : Option Nat) (caps : List (Nat × W32)) : (s.recordCap pa flags src caps).mem = s.mem := (quiet_recordCap s pa flags src caps).mem
@[simp] theorem recordCap_poison (pa flags : Nat) (src : Option Nat) (caps : List (Nat × W32)) : (s.recordCap pa flags src caps).poison = s.poison := (quiet_recordCap s pa flags src caps).poison
@[simp] theorem recordCap_thr (pa flags : Nat) (src : Option Nat) (caps : List (Nat × W32)) : (s.recordCap pa flags src caps).thr = s.thr := (quiet_recordCap s pa flags src caps).thr
@[simp] theorem recordCap_cores (pa flags : Nat) (src : Option Nat) (caps : List (Nat × W32)) : (s.recordCap pa flags src caps).cores = s.cores := (quiet_recordCap s pa flags src caps).cores
@[simp] theorem recordCap_tlbs (pa flags : Nat) (src : Option Nat) (caps : List (Nat × W32)) : (s.recordCap pa flags src caps).tlbs = s.tlbs := (quiet_recordCap s pa flags src caps).tlbs
@[simp] theorem recordCap_tlbis (pa flags : Nat) (src : Option Nat) (caps : List (Nat × W32)) : (s.recordCap pa flags src caps).tlbis = s.tlbis := (quiet_recordCap s pa flags src caps).tlbis
@[simp] theorem recordCap_walks (pa flags : Nat) (src : Option Nat) (caps : List (Nat × W32)) : (s.recordCap pa flags src caps).walks = s.walks := (quiet_recordCap s pa flags src caps).walks
@[simp] theorem recordCap_ioctx (pa flags : Nat) (src : Option Nat) (caps : List (Nat × W32)) : (s.recordCap pa flags src caps).ioctx = s.ioctx := (quiet_recordCap s pa flags src caps).ioctx
@[simp] theorem recordCap_coh (pa flags : Nat) (src : Option Nat) (caps : List (Nat × W32)) : (s.recordCap pa flags src caps).coh = s.coh := (quiet_recordCap s pa flags src caps).coh
@[simp] theorem recordCap_pat (pa flags : Nat) (src : Option Nat) (caps : List (Nat × W32)) : (s.recordCap pa flags src caps).pat = s.pat := (quiet_recordCap s pa flags src caps).pat
@[simp] theorem recordCap_routeBad (pa flags : Nat) (src : Option Nat) (caps : List (Nat × W32)) : (s.recordCap pa flags src caps).routeBad = s.routeBad := (quiet_recordCap s pa flags src caps).routeBad
@[simp] theorem recordCap_routeFlips (pa flags : Nat) (src : Option Nat) (caps : List (Nat × W32)) : (s.recordCap pa flags src caps).routeFlips = s.routeFlips := (quiet_recordCap s pa flags src caps).routeFlips
@[simp] theorem recordCap_cand (pa flags : Nat) (src : Option Nat) (caps : List (Nat × W32)) : (s.recordCap pa flags src caps).cand = s.cand := (quiet_recordCap s pa flags src caps).cand
@[simp] theorem recordCap_errCnt (pa flags : Nat) (src : Option Nat) (caps : List (Nat × W32)) : (s.recordCap pa flags src caps).errCnt = s.errCnt := (quiet_recordCap s pa flags src caps).errCnt
@[simp] theorem recordCap_fabTimeoutEvr (pa flags : Nat) (src : Option Nat) (caps : List (Nat × W32)) : (s.recordCap pa flags src caps).fabTimeoutEvr = s.fabTimeoutEvr := (quiet_recordCap s pa flags src caps).fabTimeoutEvr
@[simp] theorem recordCap_log (pa flags : Nat) (src : Option Nat) (caps : List (Nat × W32)) : (s.recordCap pa flags src caps).log = s.log := (quiet_recordCap s pa flags src caps).log
@[simp] theorem recordCap_logSeq (pa flags : Nat) (src : Option Nat) (caps : List (Nat × W32)) : (s.recordCap pa flags src caps).logSeq = s.logSeq := (quiet_recordCap s pa flags src caps).logSeq
@[simp] theorem recordCap_dom (pa flags : Nat) (src : Option Nat) (caps : List (Nat × W32)) : (s.recordCap pa flags src caps).dom = s.dom := (quiet_recordCap s pa flags src caps).dom
@[simp] theorem recordCap_domReq (pa flags : Nat) (src : Option Nat) (caps : List (Nat × W32)) : (s.recordCap pa flags src caps).domReq = s.domReq := (quiet_recordCap s pa flags src caps).domReq
@[simp] theorem recordCap_frozen (pa flags : Nat) (src : Option Nat) (caps : List (Nat × W32)) : (s.recordCap pa flags src caps).frozen = s.frozen := (quiet_recordCap s pa flags src caps).frozen
@[simp] theorem recordCap_frzReq (pa flags : Nat) (src : Option Nat) (caps : List (Nat × W32)) : (s.recordCap pa flags src caps).frzReq = s.frzReq := (quiet_recordCap s pa flags src caps).frzReq
@[simp] theorem recordCap_dramCap (pa flags : Nat) (src : Option Nat) (caps : List (Nat × W32)) : (s.recordCap pa flags src caps).dramCap = s.dramCap := (quiet_recordCap s pa flags src caps).dramCap
@[simp] theorem recordCap_dram (pa flags : Nat) (src : Option Nat) (caps : List (Nat × W32)) : (s.recordCap pa flags src caps).dram = s.dram := (quiet_recordCap s pa flags src caps).dram
@[simp] theorem recordCap_checkers (pa flags : Nat) (src : Option Nat) (caps : List (Nat × W32)) : (s.recordCap pa flags src caps).checkers = s.checkers := (quiet_recordCap s pa flags src caps).checkers
@[simp] theorem recordCap_memOff (pa flags : Nat) (src : Option Nat) (caps : List (Nat × W32)) : (s.recordCap pa flags src caps).memOff = s.memOff := (quiet_recordCap s pa flags src caps).memOff
@[simp] theorem recordCap_flashCap (pa flags : Nat) (src : Option Nat) (caps : List (Nat × W32)) : (s.recordCap pa flags src caps).flashCap = s.flashCap := (quiet_recordCap s pa flags src caps).flashCap
@[simp] theorem recordCap_prot (pa flags : Nat) (src : Option Nat) (caps : List (Nat × W32)) : (s.recordCap pa flags src caps).prot = s.prot := (quiet_recordCap s pa flags src caps).prot
@[simp] theorem recordCap_dbgLevel (pa flags : Nat) (src : Option Nat) (caps : List (Nat × W32)) : (s.recordCap pa flags src caps).dbgLevel = s.dbgLevel := (quiet_recordCap s pa flags src caps).dbgLevel
@[simp] theorem recordCap_paired (pa flags : Nat) (src : Option Nat) (caps : List (Nat × W32)) : (s.recordCap pa flags src caps).paired = s.paired := (quiet_recordCap s pa flags src caps).paired
@[simp] theorem recordCap_hm (pa flags : Nat) (src : Option Nat) (caps : List (Nat × W32)) : (s.recordCap pa flags src caps).hm = s.hm := (quiet_recordCap s pa flags src caps).hm
@[simp] theorem recordCap_order (pa flags : Nat) (src : Option Nat) (caps : List (Nat × W32)) : (s.recordCap pa flags src caps).order = s.order := (quiet_recordCap s pa flags src caps).order
@[simp] theorem recordCap_pwr (pa flags : Nat) (src : Option Nat) (caps : List (Nat × W32)) : (s.recordCap pa flags src caps).pwr = s.pwr := (quiet_recordCap s pa flags src caps).pwr
@[simp] theorem recordCap_sec (pa flags : Nat) (src : Option Nat) (caps : List (Nat × W32)) : (s.recordCap pa flags src caps).sec = s.sec := (quiet_recordCap s pa flags src caps).sec
@[simp] theorem recordCap_dbg (pa flags : Nat) (src : Option Nat) (caps : List (Nat × W32)) : (s.recordCap pa flags src caps).dbg = s.dbg := (quiet_recordCap s pa flags src caps).dbg
@[simp] theorem recordCap_trc (pa flags : Nat) (src : Option Nat) (caps : List (Nat × W32)) : (s.recordCap pa flags src caps).trc = s.trc := (quiet_recordCap s pa flags src caps).trc
@[simp] theorem recordCap_gtbFrac (pa flags : Nat) (src : Option Nat) (caps : List (Nat × W32)) : (s.recordCap pa flags src caps).gtbFrac = s.gtbFrac := (quiet_recordCap s pa flags src caps).gtbFrac
@[simp] theorem recordCap_lockLow (pa flags : Nat) (src : Option Nat) (caps : List (Nat × W32)) : (s.recordCap pa flags src caps).lockLow = s.lockLow := (quiet_recordCap s pa flags src caps).lockLow
@[simp] theorem recordCap_lockMin (pa flags : Nat) (src : Option Nat) (caps : List (Nat × W32)) : (s.recordCap pa flags src caps).lockMin = s.lockMin := (quiet_recordCap s pa flags src caps).lockMin
@[simp] theorem recordCap_eth (pa flags : Nat) (src : Option Nat) (caps : List (Nat × W32)) : (s.recordCap pa flags src caps).eth = s.eth := (quiet_recordCap s pa flags src caps).eth
@[simp] theorem recordCap_pcie (pa flags : Nat) (src : Option Nat) (caps : List (Nat × W32)) : (s.recordCap pa flags src caps).pcie = s.pcie := (quiet_recordCap s pa flags src caps).pcie
@[simp] theorem recordCap_can (pa flags : Nat) (src : Option Nat) (caps : List (Nat × W32)) : (s.recordCap pa flags src caps).can = s.can := (quiet_recordCap s pa flags src caps).can
@[simp] theorem recordCap_csh (pa flags : Nat) (src : Option Nat) (caps : List (Nat × W32)) : (s.recordCap pa flags src caps).csh = s.csh := (quiet_recordCap s pa flags src caps).csh
@[simp] theorem recordCap_bus (pa flags : Nat) (src : Option Nat) (caps : List (Nat × W32)) : (s.recordCap pa flags src caps).bus = s.bus := (quiet_recordCap s pa flags src caps).bus
@[simp] theorem recordCap_gw (pa flags : Nat) (src : Option Nat) (caps : List (Nat × W32)) : (s.recordCap pa flags src caps).gw = s.gw := (quiet_recordCap s pa flags src caps).gw
@[simp] theorem recordCap_tgp (pa flags : Nat) (src : Option Nat) (caps : List (Nat × W32)) : (s.recordCap pa flags src caps).tgp = s.tgp := (quiet_recordCap s pa flags src caps).tgp
@[simp] theorem recordCap_alarms (pa flags : Nat) (src : Option Nat) (caps : List (Nat × W32)) : (s.recordCap pa flags src caps).alarms = s.alarms := (quiet_recordCap s pa flags src caps).alarms
@[simp] theorem recordCap_rstReq (pa flags : Nat) (src : Option Nat) (caps : List (Nat × W32)) : (s.recordCap pa flags src caps).rstReq = s.rstReq := (quiet_recordCap s pa flags src caps).rstReq
@[simp] theorem recordCap_waits (pa flags : Nat) (src : Option Nat) (caps : List (Nat × W32)) : (s.recordCap pa flags src caps).waits = s.waits := (quiet_recordCap s pa flags src caps).waits
@[simp] theorem recordCap_rdata (pa flags : Nat) (src : Option Nat) (caps : List (Nat × W32)) : (s.recordCap pa flags src caps).rdata = s.rdata := (quiet_recordCap s pa flags src caps).rdata
@[simp] theorem recordCap_sspOut (pa flags : Nat) (src : Option Nat) (caps : List (Nat × W32)) : (s.recordCap pa flags src caps).sspOut = s.sspOut := (quiet_recordCap s pa flags src caps).sspOut
@[simp] theorem recordCap_pending (pa flags : Nat) (src : Option Nat) (caps : List (Nat × W32)) : (s.recordCap pa flags src caps).pending = s.pending := (quiet_recordCap s pa flags src caps).pending

/-! ## Fields after `count` -/

@[simp] theorem count_time (g r : Nat) : (s.count g r).time = s.time := (count_frame s g r).time
@[simp] theorem count_gtb (g r : Nat) : (s.count g r).gtb = s.gtb := (count_frame s g r).gtb
@[simp] theorem count_free (g r : Nat) : (s.count g r).free = s.free := (count_frame s g r).free
@[simp] theorem count_mem (g r : Nat) : (s.count g r).mem = s.mem := (count_frame s g r).mem
@[simp] theorem count_poison (g r : Nat) : (s.count g r).poison = s.poison := (count_frame s g r).poison
@[simp] theorem count_thr (g r : Nat) : (s.count g r).thr = s.thr := (count_frame s g r).thr
@[simp] theorem count_cores (g r : Nat) : (s.count g r).cores = s.cores := (count_frame s g r).cores
@[simp] theorem count_tlbs (g r : Nat) : (s.count g r).tlbs = s.tlbs := (count_frame s g r).tlbs
@[simp] theorem count_tlbis (g r : Nat) : (s.count g r).tlbis = s.tlbis := (count_frame s g r).tlbis
@[simp] theorem count_walks (g r : Nat) : (s.count g r).walks = s.walks := (count_frame s g r).walks
@[simp] theorem count_ioctx (g r : Nat) : (s.count g r).ioctx = s.ioctx := (count_frame s g r).ioctx
@[simp] theorem count_coh (g r : Nat) : (s.count g r).coh = s.coh := (count_frame s g r).coh
@[simp] theorem count_pat (g r : Nat) : (s.count g r).pat = s.pat := (count_frame s g r).pat
@[simp] theorem count_routeBad (g r : Nat) : (s.count g r).routeBad = s.routeBad := (count_frame s g r).routeBad
@[simp] theorem count_routeFlips (g r : Nat) : (s.count g r).routeFlips = s.routeFlips := (count_frame s g r).routeFlips
@[simp] theorem count_cand (g r : Nat) : (s.count g r).cand = s.cand := (count_frame s g r).cand
@[simp] theorem count_fabTimeoutEvr (g r : Nat) : (s.count g r).fabTimeoutEvr = s.fabTimeoutEvr := (count_frame s g r).fabTimeoutEvr
@[simp] theorem count_log (g r : Nat) : (s.count g r).log = s.log := (count_frame s g r).log
@[simp] theorem count_logSeq (g r : Nat) : (s.count g r).logSeq = s.logSeq := (count_frame s g r).logSeq
@[simp] theorem count_dom (g r : Nat) : (s.count g r).dom = s.dom := (count_frame s g r).dom
@[simp] theorem count_domReq (g r : Nat) : (s.count g r).domReq = s.domReq := (count_frame s g r).domReq
@[simp] theorem count_frozen (g r : Nat) : (s.count g r).frozen = s.frozen := (count_frame s g r).frozen
@[simp] theorem count_frzReq (g r : Nat) : (s.count g r).frzReq = s.frzReq := (count_frame s g r).frzReq
@[simp] theorem count_dramCap (g r : Nat) : (s.count g r).dramCap = s.dramCap := (count_frame s g r).dramCap
@[simp] theorem count_dram (g r : Nat) : (s.count g r).dram = s.dram := (count_frame s g r).dram
@[simp] theorem count_checkers (g r : Nat) : (s.count g r).checkers = s.checkers := (count_frame s g r).checkers
@[simp] theorem count_memOff (g r : Nat) : (s.count g r).memOff = s.memOff := (count_frame s g r).memOff
@[simp] theorem count_flashCap (g r : Nat) : (s.count g r).flashCap = s.flashCap := (count_frame s g r).flashCap
@[simp] theorem count_prot (g r : Nat) : (s.count g r).prot = s.prot := (count_frame s g r).prot
@[simp] theorem count_dbgLevel (g r : Nat) : (s.count g r).dbgLevel = s.dbgLevel := (count_frame s g r).dbgLevel
@[simp] theorem count_paired (g r : Nat) : (s.count g r).paired = s.paired := (count_frame s g r).paired
@[simp] theorem count_hm (g r : Nat) : (s.count g r).hm = s.hm := (count_frame s g r).hm
@[simp] theorem count_order (g r : Nat) : (s.count g r).order = s.order := (count_frame s g r).order
@[simp] theorem count_pwr (g r : Nat) : (s.count g r).pwr = s.pwr := (count_frame s g r).pwr
@[simp] theorem count_sec (g r : Nat) : (s.count g r).sec = s.sec := (count_frame s g r).sec
@[simp] theorem count_dbg (g r : Nat) : (s.count g r).dbg = s.dbg := (count_frame s g r).dbg
@[simp] theorem count_trc (g r : Nat) : (s.count g r).trc = s.trc := (count_frame s g r).trc
@[simp] theorem count_gtbFrac (g r : Nat) : (s.count g r).gtbFrac = s.gtbFrac := (count_frame s g r).gtbFrac
@[simp] theorem count_lockLow (g r : Nat) : (s.count g r).lockLow = s.lockLow := (count_frame s g r).lockLow
@[simp] theorem count_lockMin (g r : Nat) : (s.count g r).lockMin = s.lockMin := (count_frame s g r).lockMin
@[simp] theorem count_eth (g r : Nat) : (s.count g r).eth = s.eth := (count_frame s g r).eth
@[simp] theorem count_pcie (g r : Nat) : (s.count g r).pcie = s.pcie := (count_frame s g r).pcie
@[simp] theorem count_can (g r : Nat) : (s.count g r).can = s.can := (count_frame s g r).can
@[simp] theorem count_csh (g r : Nat) : (s.count g r).csh = s.csh := (count_frame s g r).csh
@[simp] theorem count_bus (g r : Nat) : (s.count g r).bus = s.bus := (count_frame s g r).bus
@[simp] theorem count_gw (g r : Nat) : (s.count g r).gw = s.gw := (count_frame s g r).gw
@[simp] theorem count_tgp (g r : Nat) : (s.count g r).tgp = s.tgp := (count_frame s g r).tgp
@[simp] theorem count_alarms (g r : Nat) : (s.count g r).alarms = s.alarms := (count_frame s g r).alarms
@[simp] theorem count_rstReq (g r : Nat) : (s.count g r).rstReq = s.rstReq := (count_frame s g r).rstReq
@[simp] theorem count_waits (g r : Nat) : (s.count g r).waits = s.waits := (count_frame s g r).waits
@[simp] theorem count_rdata (g r : Nat) : (s.count g r).rdata = s.rdata := (count_frame s g r).rdata
@[simp] theorem count_sspOut (g r : Nat) : (s.count g r).sspOut = s.sspOut := (count_frame s g r).sspOut
@[simp] theorem count_pending (g r : Nat) : (s.count g r).pending = s.pending := (count_frame s g r).pending

/-! ## What a signal leaves of the registers -/

/-- The registers that signals and counts write: the STAT of the route entries, the records of the counter units. -/
def signalsTo (a : Nat) : Prop := (∃ e, a = routeAddr e + 4) ∨ ∃ u, a = cntPage u + 8

theorem reg_cntAdd {a : Nat} (h : ¬ signalsTo a) (u i n : Nat) : (s.cntAdd u i n).reg a = s.reg a := by
  unfold State.cntAdd
  simp only
  split
  · simp only [State.reg, State.setReg, Tbl.get_set]
    rw [if_neg (fun e => h (.inr ⟨u, e⟩))]
  · rfl

theorem reg_perfEvent {a : Nat} (h : ¬ signalsTo a) (u code n : Nat) (who : Option (Nat × Nat)) :
    (s.perfEvent u code n who).reg a = s.reg a := by
  unfold State.perfEvent
  split
  · rename_i hc
    clear hc
    generalize List.range (cntCount u) = l
    induction l generalizing s with
    | nil => rfl
    | cons i r ih =>
      rw [List.foldl_cons, ih]
      split
      · exact reg_cntAdd s h u i n
      · rfl
  · rfl

theorem reg_signalEntry {a : Nat} (h : ¬ signalsTo a) (e n : Nat) : (s.signalEntry e n).reg a = s.reg a := by
  have ne : a ≠ routeAddr e + 4 := fun q => h (.inl ⟨e, q⟩)
  unfold State.signalEntry
  simp only
  split <;> split
  · rw [reg_perfEvent _ h, reg_setReg_ne _ _ ne]; rfl
  · rfl
  · rw [reg_perfEvent _ h, reg_setReg_ne _ _ ne]
  · rfl

theorem reg_signal {a : Nat} (h : ¬ signalsTo a) (n : Nat) : (s.signal n).reg a = s.reg a := by
  unfold State.signal
  split
  · rfl
  · exact reg_signalEntry s h n n

theorem reg_evtCount {a : Nat} (h : ¬ signalsTo a) (pa : Nat) : (s.evtCount pa).reg a = s.reg a := by
  unfold State.evtCount
  split
  · exact reg_perfEvent _ h _ _ _ _
  · rfl

/-- R29: a register after a record: the record counts and holds the flags, every other is as before. -/
theorem reg_record {a : Nat} (h : ¬ signalsTo a) (pa flags : Nat) (src : Option Nat) :
    (s.record pa flags src).reg a = if a = pa then recorded (s.reg pa) flags else s.reg a := by
  unfold State.record
  cases src with
  | none => simp only [reg_evtCount _ h, reg_setReg]
  | some n => simp only [reg_signal _ h, reg_evtCount _ h, reg_setReg]

end Sys2Proof.Laws
end

