-- ==== Sys2Proof/Laws/Memory.lean ====
section
/-! SUPPORT. Memory: what a byte reads as after a write, and that every operation on memory keeps the canonical form. -/

namespace Sys2Proof.Laws

open Sys2Proof.Machine

variable (s : State)

/-! ## Reads after writes -/

theorem rdByte_wrByte (a x : Nat) (b : Byte) : (s.wrByte a b).rdByte x = if x = a then b else s.rdByte x := by
  simp [State.wrByte, State.rdByte, Tbl.get_set]

theorem get_memWrite (bs : List Byte) : ∀ (m : List Host.Cell) (a x : Nat),
    Tbl.get memInit (memWrite m a bs) x = if a ≤ x ∧ x < a + bs.length then bs.getD (x - a) 0 else Tbl.get memInit m x := by
  induction bs with
  | nil =>
    intro m a x
    simp [memWrite] <;> omega
  | cons b r ih =>
    intro m a x
    simp only [memWrite, ih, Tbl.get_set, List.length_cons]
    by_cases h : x = a
    · subst h; simp <;> omega
    · by_cases h2 : a + 1 ≤ x ∧ x < a + 1 + r.length
      · rw [if_pos h2, if_pos (by omega), show x - a = (x - (a + 1)) + 1 by omega]
        simp
      · rw [if_neg h2, if_neg h, if_neg (by omega)]

/-- A byte after a write of bytes from `a` on (R7, R14). -/
theorem rdByte_wrBytes (a x : Nat) (bs : List Byte) :
    (s.wrBytes a bs).rdByte x = if a ≤ x ∧ x < a + bs.length then bs.getD (x - a) 0 else s.rdByte x :=
  get_memWrite bs s.mem a x

theorem bytesKept_wrBytes (a : Nat) (bs : List Byte) : BytesKept a bs.length s (s.wrBytes a bs) := by
  intro x h
  rw [rdByte_wrBytes, if_neg (by omega)]

theorem rdBytes_length (n : Nat) : ∀ a, (s.rdBytes a n).length = n := by
  induction n with
  | zero => intro a; rfl
  | succ n ih => intro a; simp [State.rdBytes, ih]

theorem rdBytes_getD (n i : Nat) (h : i < n) : ∀ a, (s.rdBytes a n).getD i 0 = s.rdByte (a + i) := by
  induction n generalizing i with
  | zero => omega
  | succ n ih =>
    intro a
    cases i with
    | zero => simp [State.rdBytes]
    | succ i =>
      have := ih i (by omega) (a + 1)
      simp only [State.rdBytes, List.getD_cons_succ, this]
      congr 1; omega

/-! ## Poison does not touch the bytes -/

@[simp] theorem poisonWords_mem (a : Nat) (b : Bool) (n : Nat) : (s.poisonWords a b n).mem = s.mem := by
  induction n generalizing s a with
  | zero => rfl
  | succ n ih => simp [State.poisonWords, ih]

@[simp] theorem clearCovered_mem (a n : Nat) : (s.clearCovered a n).mem = s.mem := by
  unfold State.clearCovered
  simp only
  split
  · simp
  · rfl

/-- What a store can do to memory: the bytes it writes. -/
@[simp] theorem store_mem (a : Nat) (bs : List Byte) : (s.store a bs).mem = memWrite s.mem a bs := by
  simp [State.store, State.wrBytes]

theorem rdByte_store (a x : Nat) (bs : List Byte) :
    (s.store a bs).rdByte x = if a ≤ x ∧ x < a + bs.length then bs.getD (x - a) 0 else s.rdByte x := by
  simp only [State.rdByte, store_mem]
  exact get_memWrite bs s.mem a x

/-! ## The canonical form -/

theorem wf_memWrite (bs : List Byte) : ∀ (m : List Host.Cell) (a : Nat), Memory.wf m = true → Memory.wf (memWrite m a bs) = true := by
  induction bs with
  | nil => intro m a h; exact h
  | cons b r ih => intro m a h; exact ih _ _ (Tbl.wf_set memInit m a b h)

variable {s}

/-- A state with the same memory keeps the invariant. -/
theorem inv_of_mem {s' : State} (h : s.Inv) (e : s'.mem = s.mem) : s'.Inv := by
  unfold State.Inv at *
  rw [e]; exact h

theorem inv_wrByte (h : s.Inv) (a : Nat) (b : Byte) : (s.wrByte a b).Inv := Tbl.wf_set memInit s.mem a b h

theorem inv_wrBytes (h : s.Inv) (a : Nat) (bs : List Byte) : (s.wrBytes a bs).Inv := wf_memWrite bs s.mem a h

theorem inv_setPoison (h : s.Inv) (a : Nat) (b : Bool) : (s.setPoison a b).Inv := h

theorem inv_store (h : s.Inv) (a : Nat) (bs : List Byte) : (s.store a bs).Inv := by
  unfold State.Inv at *
  rw [store_mem]
  exact wf_memWrite bs s.mem a h

/-- A fold whose every turn keeps the invariant keeps it. -/
theorem inv_foldl {β : Type} (f : State → β → State) (hf : ∀ s b, s.Inv → (f s b).Inv) (l : List β) : s.Inv → (l.foldl f s).Inv := by
  induction l generalizing s with
  | nil => exact id
  | cons b r ih => intro h; exact ih (hf s b h)

theorem inv_cellLost (dram quay : Bool) (c : Host.Cell) (h : s.Inv) : (State.cellLost dram quay s c).Inv := by
  unfold State.cellLost
  split
  · split
    · exact h
    · exact inv_wrByte h _ _
  · split
    · exact inv_wrByte h _ _
    · exact h

theorem inv_loseMem (dram quay : Bool) (h : s.Inv) : (s.loseMem dram quay).Inv :=
  inv_foldl _ (fun _ c h => inv_cellLost dram quay c h) _ h

theorem inv_sbWritten (l : List SbEntry) (h : s.Inv) : (s.sbWritten l).Inv := by
  refine inv_foldl _ (fun s e h => ?_) l h
  split
  · exact inv_store h _ _
  · exact inv_store h _ _
  · exact h

theorem inv_sbAllWritten (h : s.Inv) : s.sbAllWritten.Inv := inv_foldl _ (fun _ _ h => inv_sbWritten _ h) _ h

end Sys2Proof.Laws
end

