-- ==== Sys2Proof/Laws/Syllable.lean ====
section
/-! SUPPORT. Syllables (R67, R73, R75): what a syllable that runs, and one that does not, does to its thread, said once for the
writes of registers, predicates and ST.SOV. -/

namespace Sys2Proof.Laws

open Sys2Proof.Machine

/-! ## Frames -/

theorem onlyThread_setTh (s : State) (t : Nat) (x : Thread) : OnlyThread t s (s.setTh t x) :=
  ⟨rfl, fun u h => by simp [th_setTh, h]⟩

theorem onlyThread_modTh (s : State) (t : Nat) (f : Thread → Thread) : OnlyThread t s (s.modTh t f) := onlyThread_setTh s t _

theorem onlyThread_trans {t : Nat} {a b c : State} (h : OnlyThread t a b) (k : OnlyThread t b c) : OnlyThread t a c := by
  refine ⟨?_, fun u hu => (k.2 u hu).trans (h.2 u hu)⟩
  have e := congrArg (fun x : State => { x with thr := a.thr }) k.1
  exact Eq.trans (show { c with thr := a.thr } = _ from e) h.1

/-! ## Contexts (R75) -/

theorem rd_wr (c : Ctx) (r k : Nat) (v : Word) : (c.wr r v).rd k = if k = r then (if r = 0 then 0 else v) else c.rd k := by
  unfold Ctx.wr Ctx.rd
  by_cases h : k = 0
  · by_cases h2 : r = 0
    · simp [h, h2]
    · simp [h, h2, Ne.symm h2]
  · by_cases h2 : r = 0
    · subst h2
      simp [h]
    · by_cases h3 : k = r
      · simp [h, h2, h3, Tbl.get_set]
      · simp [h, h2, h3, Tbl.get_set]

theorem rdP_wr (c : Ctx) (r p : Nat) (v : Word) : (c.wr r v).rdP p = c.rdP p := by
  have e : (c.wr r v).p = c.p := by unfold Ctx.wr; split <;> rfl
  simp only [Ctx.rdP, e]

theorem rdP_wrP (c : Ctx) (r k : Nat) (v : Bool) : (c.wrP r v).rdP k = if k = r then (if r = 0 then true else v) else c.rdP k := by
  unfold Ctx.wrP Ctx.rdP
  by_cases h : k = 0
  · by_cases h2 : r = 0
    · simp [h, h2]
    · simp [h, h2, Ne.symm h2]
  · by_cases h2 : r = 0
    · subst h2
      simp [h]
    · by_cases h3 : k = r
      · simp [h, h2, h3, Tbl.get_set]
      · simp [h, h2, h3, Tbl.get_set]

theorem rd_wrP (c : Ctx) (r p : Nat) (v : Bool) : (c.wrP r v).rd p = c.rd p := by
  have e : (c.wrP r v).g = c.g := by unfold Ctx.wrP; split <;> rfl
  simp only [Ctx.rd, e]

/-! ## Syllables -/

/-- The thread of a syllable that runs with interval `iv`, before the syllable's own writes. -/
theorem syl_runs {s : State} {t : Gtn} {q : Pred} {b : Bundle} (h : Runs s t q b) (iv : Nat) (f : State → State) :
    s.syl t q iv f = f (s.modTh t (fun x => { x with bun := some { b with pos := b.pos + 1, ready := Nat.max b.ready (b.issued + iv) } })) := by
  simp [State.syl, h.1, h.2]

/-- A syllable whose predicate does not hold (R67). -/
theorem syl_skips {s : State} {t : Gtn} {q : Pred} {b : Bundle} (h : s.openSyl t.val = some b) (hq : b.holds q = false) (iv : Nat)
    (f : State → State) : SkipDone t b s (s.syl t q iv f) := by
  have e : s.syl t q iv f =
      s.modTh t (fun x => { x with bun := some { b with pos := b.pos + 1, ready := Nat.max b.ready (b.issued + 4) } }) := by
    simp [State.syl, h, hq]
  rw [e]
  exact ⟨onlyThread_modTh .., by simp [Nat.max_def]⟩

/-- The bundle of a thread that runs a syllable. -/
theorem bunOf_modTh (s : State) (t : Nat) (b : Bundle) (f : Thread → Thread) (h : (f (s.th t)).bun = some b) :
    (s.modTh t f).bunOf t = b := by
  unfold State.bunOf
  simp only [th_modTh_self, h]

/-! ## Register writes -/

/-- What a register write of a syllable of unit `u` does to its thread (R73, R75, R144). -/
theorem wrReg_rd (x : Thread) (b : Bundle) (h : x.bun = some b) (u r k : Nat) (v : Word) :
    (x.wrReg u r v).ctx.rd k = if k = r ∧ r ≠ 0 ∧ b.keeps u r = false then v else x.ctx.rd k := by
  have e : x.wrReg u r v = if b.keeps u r = true then x else { x with ctx := x.ctx.wr r v, par := Tbl.del x.par r } := by
    simp only [Thread.wrReg, h, Bundle.keeps]
  rw [e]
  by_cases hk : b.keeps u r = true
  · simp [hk]
  · simp only [hk, Bool.false_eq_true, if_false, rd_wr]
    by_cases h1 : k = r
    · subst h1
      by_cases h2 : k = 0
      · simp [h2, Ctx.rd]
      · simp [h2]
    · simp [h1]

/-- A register write changes only the register and the stored parity. -/
theorem wrReg_frame (x : Thread) (u r : Nat) (v : Word) :
    { x.wrReg u r v with ctx := x.ctx, par := x.par } = x ∧ { (x.wrReg u r v).ctx with g := x.ctx.g } = x.ctx := by
  have e : x.wrReg u r v = x ∨ x.wrReg u r v = { x with ctx := x.ctx.wr r v, par := Tbl.del x.par r } := by
    simp only [Thread.wrReg]
    split
    · split
      · exact .inl rfl
      · exact .inr rfl
    · exact .inr rfl
  rcases e with e | e
  · rw [e]; exact ⟨rfl, rfl⟩
  · rw [e]
    refine ⟨rfl, ?_⟩
    simp only [Ctx.wr]
    split <;> rfl

end Sys2Proof.Laws
end

