-- ==== Sys2Proof/WellFormed.lean ====
section
/-! DEFINITION. Well-formed commands: what the types of the operands do not say. A line is a line of the 40-bit physical
address space (R14), a request has the attributes of its class (R18), a register address is an aligned word (R19), POS has six bits
(R68), a word offset of the SPI service port two bytes (R278), a station address six bytes (R357); there is one temperature for each
of the twelve sensors (R415); a frame holds at least its header, an element its four header words (R371), and the data of a PCIe write
are as long as the request says (R363). -/

namespace Sys2Proof

/-- The bytes of a write are as many as the request says, and no request crosses the largest read (R362, R363). -/
def PcieReq.wf : PcieReq → Bool
  | .bar0 _ _ n (some bs) _ => decide (bs.length = n) && decide (n ≤ 4096)
  | .bar0 _ _ n none _ => decide (n ≤ 4096)
  | .bar2 off n (some bs) => decide (off + n ≤ 4096) && decide (bs.length = n)
  | .bar2 off n none => decide (off + n ≤ 4096)
  | .bar4 _ off _ => decide (off < 8192)
  | .root a n (some bs) _ => decide (bs.length = n) && decide (n ≤ 4096) && decide (a < 2 ^ 64)
  | .root a n none _ => decide (n ≤ 4096) && decide (a < 2 ^ 64)
  | .config .. => true

/-- The attributes of a request by its class (R18): a privilege above 0 and a thread number are a thread's, the harbourmaster, the
security subsystem and the debug port act for berth 0, and only the debug port sets Peek. -/
def Req.wf (rq : Req) : Bool :=
  (rq.cls == .thread || rq.priv.val == 0) && (rq.cls == .debug || !rq.peek) &&
  (!(rq.cls == .harbour || rq.cls == .security || rq.cls == .debug) || rq.berth.val == 0) &&
  (rq.cls != .thread || decide (rq.src < 1024))

/-- Is a command well formed. -/
def Instr.wf : Instr → Bool
  | .bfx _ _ _ _ pos _ => decide (pos < 64)
  | .bfi _ _ _ _ pos _ => decide (pos < 64)
  | .gets _ line => decide (line < 2 ^ 34)
  | .getm _ line => decide (line < 2 ^ 34)
  | .getmz _ line => decide (line < 2 ^ 34)
  | .rdonce _ line => decide (line < 2 ^ 34)
  | .clean _ line => decide (line < 2 ^ 34)
  | .flush _ line => decide (line < 2 ^ 34)
  | .busyQueueTake line => decide (line < 2 ^ 34)
  | .homeMemoryReadDone line => decide (line < 2 ^ 34)
  | .puts _ line => decide (line < 2 ^ 34)
  | .pute _ line => decide (line < 2 ^ 34)
  | .putm _ line => decide (line < 2 ^ 34)
  | .puto _ line => decide (line < 2 ^ 34)
  | .unblock _ line => decide (line < 2 ^ 34)
  | .fwdGets _ line => decide (line < 2 ^ 34)
  | .fwdRdonce _ line => decide (line < 2 ^ 34)
  | .fwdGetm _ line => decide (line < 2 ^ 34)
  | .fwdGetmz _ line => decide (line < 2 ^ 34)
  | .inv _ line => decide (line < 2 ^ 34)
  | .recall _ line => decide (line < 2 ^ 34)
  | .downgrade _ line => decide (line < 2 ^ 34)
  | .data _ line => decide (line < 2 ^ 34)
  | .grant _ line => decide (line < 2 ^ 34)
  | .invAck _ line _ => decide (line < 2 ^ 34)
  | .recallData _ line => decide (line < 2 ^ 34)
  | .putAck _ line => decide (line < 2 ^ 34)
  | .putStale _ line => decide (line < 2 ^ 34)
  | .done _ line => decide (line < 2 ^ 34)
  | .coherenceTimeout _ line => decide (line < 2 ^ 34)
  | .eventRecordWrite rq pa _ => rq.wf && decide (pa < 2 ^ 40) && decide (pa % 4 = 0)
  | .registerWrite rq pa _ => rq.wf && decide (pa < 2 ^ 40) && decide (pa % 4 = 0)
  | .rsqRead rq pa => rq.wf && decide (pa < 2 ^ 40) && decide (pa % 4 = 0)
  | .dmcInjWrite rq _ _ => rq.wf
  | .ertRteCfgWrite rq _ _ => rq.wf
  | .ertRteStatWrite rq _ _ => rq.wf
  | .ertDbRing rq _ _ => rq.wf
  | .mbxReqWrite rq _ _ _ => rq.wf
  | .go rq _ => rq.wf
  | .cack rq _ => rq.wf
  | .watchdogServiceWrite rq _ _ => rq.wf
  | .pcrWkpCfgWrite rq _ => rq.wf
  | .shiQCancel rq _ => rq.wf
  | .aesGcmEncrypt rq _ => rq.wf
  | .aesGcmDecrypt rq _ => rq.wf
  | .aesCtr rq _ => rq.wf
  | .aesCmac rq _ => rq.wf
  | .sha256 rq _ => rq.wf
  | .sha384 rq _ => rq.wf
  | .sha512 rq _ => rq.wf
  | .sha3256 rq _ => rq.wf
  | .sha3384 rq _ => rq.wf
  | .sha3512 rq _ => rq.wf
  | .hmacSha256 rq _ => rq.wf
  | .ecdsaP256Sign rq _ => rq.wf
  | .ecdsaP384Sign rq _ => rq.wf
  | .ecdsaP256Verify rq _ => rq.wf
  | .ecdsaP384Verify rq _ => rq.wf
  | .mlDsa65Verify rq _ => rq.wf
  | .randomBytes rq _ => rq.wf
  | .derive rq _ => rq.wf
  | .unwrap rq _ => rq.wf
  | .shiLcReqWrite rq _ => rq.wf
  | .shiOtpCmdWrite rq _ => rq.wf
  | .dbtCtxHiWrite rq _ => rq.wf
  | .cntClr rq _ => rq.wf
  | .cntLoRead rq _ _ => rq.wf
  | .smpAck rq _ _ => rq.wf
  | .smpCfgWrite rq _ _ => rq.wf
  | .histClr rq _ => rq.wf
  | .tblRead rq _ _ _ => rq.wf
  | .tblWrite rq _ _ _ => rq.wf
  | .hqTxTailWrite rq _ _ => rq.wf
  | .hqRxTailWrite rq _ _ => rq.wf
  | .eswTdOffsWrite rq _ => rq.wf
  | .pceFnMsiWrite rq _ _ => rq.wf
  | .canTxReq rq _ _ => rq.wf
  | .canTxCancel rq _ _ => rq.wf
  | .canRxfAck rq _ _ => rq.wf
  | .canRxfCfgWrite rq _ _ => rq.wf
  | .canTimingWrite rq _ _ _ => rq.wf
  | .cshTxReq rq _ _ => rq.wf
  | .cshTxCancel rq _ _ => rq.wf
  | .cshRxfAck rq _ _ => rq.wf
  | .busTxdWrite rq _ _ => rq.wf
  | .busRxdRead rq _ => rq.wf
  | .xspCmd rq _ _ => rq.wf
  | .gpioSet rq _ _ => rq.wf
  | .gpioClr rq _ _ => rq.wf
  | .tmrCmpHiWrite rq _ _ => rq.wf
  | .dmaChTailWrite rq _ _ _ => rq.wf
  | .gwqTxTailWrite rq _ _ => rq.wf
  | .sspWriteWords off _ => decide (off < 2 ^ 16)
  | .sspReadWords off _ => decide (off < 2 ^ 16)
  | .managementFrameRx _ _ src _ => decide (src.length = 6)
  | .thermalSample tj => decide (tj.length = 12)
  | .ethernetFrameRx _ frame _ => decide (14 ≤ frame.length)
  | .pcieInboundRequest r => r.wf
  | .canFrameRx _ el => decide (16 ≤ el.length)
  | .issueSelect .. | .bundleBoundary .. | .interruptAccept .. | .waitChannelWake .. | .resumeBundleLoaded ..
  | .lineFillArrive .. | .loadDataReturn .. | .deviceAccessResponse .. | .registerAccessTimeout .. | .pairMismatch ..
  | .threadHoldArrival .. | .threadContextResetDone .. | .add .. | .sub .. | .and .. | .or .. | .xor .. | .andn ..
  | .shl .. | .shr .. | .sra .. | .min .. | .max .. | .minu .. | .maxu .. | .sxB .. | .sxH .. | .sxW .. | .zxB ..
  | .zxH .. | .zxW .. | .addP .. | .subP .. | .addPu .. | .subPu .. | .satB .. | .satBu .. | .satH .. | .satHu ..
  | .satW .. | .satWu .. | .satP .. | .clz .. | .clzW .. | .cls .. | .bperm .. | .mul .. | .mulWp .. | .mulWpu ..
  | .macH .. | .macHu .. | .macP .. | .div .. | .divu .. | .rem .. | .remu .. | .faddS .. | .fsubS .. | .fmulS ..
  | .fmaS .. | .fminS .. | .fmaxS .. | .fabsS .. | .fnegS .. | .faddH .. | .fsubH .. | .fmulH .. | .fmaH ..
  | .fminH .. | .fmaxH .. | .fabsH .. | .fnegH .. | .fcvtSH .. | .fcvtHS .. | .fcvtSW .. | .fcvtSWu .. | .fcvtWS ..
  | .fcvtWSN .. | .fcvtWuS .. | .fclassS .. | .fclassH .. | .addi .. | .andi .. | .ori .. | .xori .. | .shli ..
  | .shri .. | .srai .. | .rsubi .. | .mini .. | .maxi .. | .minui .. | .maxui .. | .muli .. | .eq .. | .ne ..
  | .lt .. | .ge .. | .le .. | .gt .. | .ltu .. | .geu .. | .leu .. | .gtu .. | .tst .. | .ntst .. | .feqS ..
  | .fltS .. | .fleS .. | .funS .. | .feqH .. | .fltH .. | .fleH .. | .funH .. | .reservedEncoding .. | .ldB ..
  | .ldH .. | .ldW .. | .ldX .. | .ldBu .. | .ldHu .. | .ldWu .. | .ldD .. | .stB .. | .stH .. | .stW .. | .stX ..
  | .stD .. | .ssB .. | .ssBu .. | .ssH .. | .ssHu .. | .ssW .. | .ssWu .. | .ldAqW .. | .ldAqX .. | .stRlW ..
  | .stRlX .. | .fence .. | .fenceSs .. | .ldlW .. | .ldlX .. | .stcW .. | .stcX .. | .sunpk .. | .spack .. | .copy ..
  | .fill .. | .cmpb .. | .crc32c .. | .crc16 .. | .crc8 .. | .crc8h .. | .amoSwapW .. | .amoAddW .. | .amoAndW ..
  | .amoOrW .. | .amoXorW .. | .amoMinW .. | .amoMaxW .. | .amoMinuW .. | .amoMaxuW .. | .amoCasW .. | .amoSwapX ..
  | .amoAddX .. | .amoCasX .. | .clClean .. | .clFlush .. | .clInv .. | .clZero .. | .clPref .. | .clPrefw ..
  | .tlbiVa .. | .tlbiVaa .. | .tlbiAsid .. | .tlbiOwn .. | .tlbiIpa .. | .tlbiB .. | .tlbiAll ..
  | .tlbMaintenanceComplete | .tableWalkDone .. | .mfsr .. | .mtsr .. | .jmp .. | .jmpl .. | .bra .. | .iflush ..
  | .iflushComplete .. | .tnote .. | .wait .. | .sysc .. | .hypc .. | .rfx .. | .syncC .. | .pflush .. | .pbar ..
  | .ucall .. | .patternMicroWord .. | .patternWordRewrite .. | .storeBufferDrain .. | .linkDelayExpiry ..
  | .agentFatalError .. | .reclaimComplete | .scrubRead .. | .dramTemperatureRead .. | .wckTracking ..
  | .eventSignal .. | .routeDelivery .. | .requestTaken .. | .completionPost .. | .harbourmasterMismatch | .sysInfo ..
  | .sysReset .. | .sysEcho .. | .pwrLevel .. | .pwrCeil .. | .pwrBudget .. | .pwrSleep .. | .pwrStatus ..
  | .berthCreate .. | .berthDestroy .. | .berthReset .. | .berthStatus .. | .berthWdog .. | .clusterRestart ..
  | .threadAssign .. | .threadStart .. | .threadHold .. | .threadReset .. | .threadRelease .. | .instCreate ..
  | .instDestroy .. | .instReset .. | .instQuery .. | .routeGive .. | .routeReturn .. | .dbShare .. | .routeQuery ..
  | .memMap .. | .memUnmap .. | .logRead .. | .cntRead .. | .cntClear .. | .agentReclaim .. | .scrubStatus ..
  | .secStatus .. | .keyGive .. | .keyRevoke .. | .attest .. | .dbgChallenge .. | .dbgOpen .. | .dbgClose ..
  | .dbgStatus .. | .nonceLapse | .manWrite .. | .manCommit .. | .manStatus .. | .timeGet .. | .timeStep ..
  | .timeSource .. | .alarmGive .. | .snap .. | .cntGive .. | .traceBuf .. | .traceCtl .. | .sspReadStat
  | .berthResetQuiesced .. | .berthResetComplete .. | .watchdogWarning .. | .watchdogExpiry .. | .instResetTimeout ..
  | .instanceResetComplete .. | .functionLevelReset .. | .clusterGate .. | .domainReady .. | .domainIdleOff ..
  | .pllLock .. | .arbiterEpoch | .pmicVgoodRise | .voltageStepTimeout | .supplyDip .. | .dipRecovery | .dipEnd
  | .thermalStage2Check | .sleepEntryDone | .wakeSourceAssert .. | .wakeTimerExpiry | .wakePortMatch ..
  | .sleepExitComplete | .pwrGoodRise | .por .. | .bor .. | .railMonitorTrip .. | .pinReset | .resetRelease
  | .earlySegmentAccept | .islandStart | .islandRouteForward | .manifestCommit | .dramTrainingDone ..
  | .clusterBringUpDone .. | .dramZeroingDone .. | .fullServiceDeclare | .securityAlarm .. | .serviceSegmentDone ..
  | .idcode | .samplePreload | .extest | .clamp | .highz | .dbgacc | .bypass | .scanExitReset | .debugRequest ..
  | .sdpLineReset | .daeDataRead | .daeDataWrite .. | .daeAccessDone | .clrerr | .freeze | .release | .step ..
  | .stepTimeout | .freezeAck | .dbgResetRequest | .dbgResetFreezeRequest | .flowAtomTimeout .. | .tsInterval ..
  | .traceOverflowRecover .. | .traceUnitTimeout .. | .traceSinkLineWrite | .align | .snapshotCapture
  | .snapshotTableDone | .ethernetFrameTxDone .. | .gateControlAdvance .. | .tableAccessDone .. | .fdbAgeing
  | .frerResetTimer .. | .linkChange .. | .preemptionVerifyDone .. | .t1sWakeSleepRx .. | .txDescriptorDone ..
  | .rxDescriptorDone .. | .coalesceTimerExpiry .. | .slewComplete | .pcieCompletionTimeout .. | .pcieLinkDown ..
  | .pcieLinkUp .. | .msiPendingSend .. | .canTxEnd .. | .canBusError .. | .canBusoffRecovery .. | .canWake ..
  | .linScheduleSlot .. | .busFrameRx .. | .busTransferDone .. | .gpioEdge .. | .timerMatch .. | .dmaDescriptorDone ..
  | .gatewayFrameIn | .pduBufferPeriod .. | .acfWindowExpiry .. | .acfAvtpduRx .. | .tapReset | .gtbAlarmMatch ..
  | .gtbPps | .counterWrap .. | .lockupNMinLowExpiry | .domainIdleGate .. | .domainPowerLoss .. | .wakePortStop
  | .canBusIntegrated .. => true

end Sys2Proof
end

