-- ==== Sys2Proof/Tests/Slice0.lean ====
section
/-! SUPPORT. Tests: ill-formed commands, the spec's worked examples, and for every statement with hypotheses states and operands that
meet them. -/



namespace Sys2Proof.Tests

set_option maxRecDepth 100000
set_option Elab.async false

open Sys2Proof.Machine Sys2Proof.Rules

/-- Every domain on and the harbourmaster ready. -/
def up : State := { dom := (List.range 23).map (fun d => (d + 1, Dom.on)), hm := { ready := true } }

/-- A context with registers, predicates and ST. -/
def ctxOf (g : List (Nat × Word)) (p : List (Nat × Bool)) (st : Word) : Ctx := { g := g, p := p, st := st }

/-- Thread 0 at place `pos` of a bundle of `len` syllables. -/
def inBundle (c old : Ctx) (pos len : Nat) : State :=
  up.setTh 0 { state := .run, ctx := c, bun := some {
    addr := 0x1000, len := len, old := old, next := 0x1000 + 4 * BitVec.ofNat 36 len, issued := 10, ready := 14, pos := pos } }

/-- A supervisor's and a user's request. -/
def hReq : Req := { cls := .thread, berth := 0, priv := 2 }
def uReq (b : BerthId) : Req := { cls := .thread, berth := b, priv := 1 }

/-- Mailbox `m` in state `st`, with words in its request buffer. -/
def mbxIn (s : State) (m st : Nat) (ws : List W32) (x : Mbox) : State :=
  let l := ws.zipIdx.filterMap (fun (e : W32 × Nat) => if e.1 = 0 then none else some (mbxBase m + 4 * e.2, e.1))
  { s with
      regs := l ++ s.regs,
      hm := { s.hm with committed := true, mbx := [(m, { x with st := st, go := some hReq })] } }

/-- A request of opcode `op` for berth `b`, and the same executed for mailbox 0. -/
def msg (op b : Nat) (pay : List W32) : List W32 := message (BitVec.ofNat 32 (pay.length * 2 ^ 24 + op)) 7 (BitVec.ofNat 32 b) pay
def sub (op b : Nat) (pay : List W32) (s : State) : State := mbxIn s 0 2 (msg op b pay) {}

/-- The request `op` of berth `b` that the harbourmaster executes for mailbox 0. -/
def S (op b : Nat) (pay : List W32) : State := sub op b pay up

/-- As `S`, with more done to the state. -/
def B (op b : Nat) (pay : List W32) (f : State → State) : State := f (sub op b pay up)

/-- A change of the harbourmaster. -/
def hm (f : Harbour → Harbour) (s : State) : State := { s with hm := f s.hm }

/-- A berth. -/
def bt (b : Nat) (x : Berth) : State → State := hm (fun h => { h with berths := (b, x) :: h.berths })

/-- A stage-2 table pool. -/
def pool : State → State := hm (fun h => { h with man := { h.man with poolPage := 0x100, poolPages := 64 } })

/-- A change of the power state. -/
def pw (f : Power → Power) (s : State) : State := { s with pwr := f s.pwr }

/-- A thread. -/
def ths (t : Nat) (x : Thread) (s : State) : State := s.setTh t x

/-- An instance. -/
def ins (i : Nat) (x : Inst) : State → State := hm (fun h => { h with insts := [(i, x)] })

/-- Registers in front of those there. -/
def rg (l : List (Nat × W32)) (s : State) : State := { s with regs := l ++ s.regs }

/-- The device up, with registers. -/
def rgs (l : List (Nat × W32)) : State := { up with regs := l }

/-! ## Ill-formed commands -/

/-- One command that each check refuses. -/
theorem test_ill_formed : ∀ i ∈ ([
  .bfx 0 {} 1 2 64 0, .bfi 0 {} 1 2 64 0, .gets 0 (2 ^ 34), .getm 0 (2 ^ 34), .getmz 0 (2 ^ 34), .rdonce 0 (2 ^ 34), .clean 0 (2 ^ 34),
  .flush 0 (2 ^ 34), .busyQueueTake (2 ^ 34), .homeMemoryReadDone (2 ^ 34), .puts 0 (2 ^ 34), .pute 0 (2 ^ 34), .putm 0 (2 ^ 34),
  .puto 0 (2 ^ 34), .unblock 0 (2 ^ 34), .fwdGets 0 (2 ^ 34), .fwdRdonce 0 (2 ^ 34), .fwdGetm 0 (2 ^ 34), .fwdGetmz 0 (2 ^ 34),
  .inv 0 (2 ^ 34), .recall 0 (2 ^ 34), .downgrade 0 (2 ^ 34), .data 0 (2 ^ 34), .grant 0 (2 ^ 34), .invAck 0 (2 ^ 34) true,
  .recallData 0 (2 ^ 34), .putAck 0 (2 ^ 34), .putStale 0 (2 ^ 34), .done 0 (2 ^ 34), .coherenceTimeout 0 (2 ^ 34),
  .eventRecordWrite hReq 0x104A004002 0, .registerWrite hReq (2 ^ 40) 0, .rsqRead hReq 0x104A004001, .sspWriteWords (2 ^ 16) [],
  .sspReadWords (2 ^ 16) 1, .managementFrameRx 0 0 [1, 2, 3] [], .thermalSample [], .ethernetFrameRx 0 [1, 2, 3] true,
  .canFrameRx 0 [1, 2, 3], .pcieInboundRequest (.bar0 0 0 2 (some [1]) false), .pcieInboundRequest (.bar0 0 0 4097 none false),
  .pcieInboundRequest (.bar2 4095 2 none), .pcieInboundRequest (.bar2 0 4 (some [1])), .pcieInboundRequest (.bar4 0 8192 none), .pcieInboundRequest (.root 0 1 (some []) false),
  .pcieInboundRequest (.root (2 ^ 64) 4 none false),
  .gpioSet { cls := .dma, berth := 3, priv := 2 } 0 1, .registerWrite { cls := .pcie, peek := true } 0 1,
  .rsqRead { cls := .debug, berth := 3 } 0x104A001000, .eventRecordWrite { cls := .thread, src := 1024 } 0x104A004000 0] : List Instr), i.wf = false := by decide

/-- The same commands with operands in range. -/
theorem test_well_formed : ∀ i ∈ ([
  .bfx 0 {} 1 2 63 0, .gets 0 (2 ^ 34 - 1), .eventRecordWrite hReq 0x104A004000 0, .sspWriteWords 0xFFFF [], .managementFrameRx 0 0 [1, 2, 3, 4, 5, 6] [],
  .thermalSample (List.replicate 12 25), .rsqRead { cls := .debug, peek := true } 0x104A001000, .pcieInboundRequest (.bar0 0 0 1 (some [1]) false), .add 0 {} 1 2 3] : List Instr), i.wf = true := by
  decide

/-- No row of the command table gives bits. -/
theorem test_no_word_is_a_command : decodeTableWord 32 0x80C533C5 = none := by decide

/-! ## Worked examples of the spec -/

/-- The state that a command answers. -/
def after (i : Instr) (s : State) : State :=
  match exec i s with
  | .next s => s
  | _ => .reset

/-- Thread 0 at the first of two syllables, with the registers of an example. -/
def withRegs (g : List (Nat × Word)) : State := { inBundle (ctxOf g [] 0xBC) (ctxOf g [] 0xBC) 0 2 with dramCap := 0x10000000 }

/-- R98: SAT.W of the sum of three samples. -/
theorem test_sat_w_clamps_the_sum :
    ((after (.satW 0 {} 11 10) (withRegs [(10, 0x0EFFFFFF0)])).th 0).ctx.rd 11 = 0x07FFFFFFF ∧
    bit ((after (.satW 0 {} 11 10) (withRegs [(10, 0x0EFFFFFF0)])).th 0).ctx.st 9 = true := by decide +kernel

/-- R99: ADD.P with a carry out of the low half. -/
theorem test_add_p_carries :
    let c := ((after (.addP 0 {} 2 4 6) (withRegs [(4, 0x0FFFFFFFF), (5, 1), (6, 1)])).th 0).ctx
    c.rd 2 = 0x100000000 ∧ c.rd 3 = 2 := by decide +kernel

/-- R105: BFX g5, g6, POS 30, W 6. -/
theorem test_bfx_of_the_top_bits :
    ((after (.bfx 0 {} 5 6 30 5) (withRegs [(6, 0x9C0000000)])).th 0).ctx.rd 5 = 0x27 := by decide +kernel

/-- R107: BPERM swaps the bytes of a word, and sign-extends it. -/
theorem test_bperm_swaps_bytes :
    ((after (.bperm 0 {} 2 4 6) (withRegs [(4, 0x0112233F4), (6, 0x123)])).th 0).ctx.rd 2 = 0x0F4332211 ∧
    ((after (.bperm 0 {} 2 4 6) (withRegs [(4, 0x0112233F4), (6, 0x10123)])).th 0).ctx.rd 2 = 0xFF4332211 := by decide +kernel

/-- R80: the slot of an extended word. -/
theorem test_st_x_stores_a_sign_extended_slot :
    ((after (.stX 0 {} 5 (.imm 1 0)) (withRegs [(1, 0x2000010), (5, 0x912345678)])).core 0).sb.map (fun e => (e.pa, e.data)) =
      [(0x2000010, [0x78, 0x56, 0x34, 0x12, 0xF9, 0xFF, 0xFF, 0xFF])] := by decide +kernel

/-- R34: a refused read, then a refused write, then the write back that clears the record. -/
theorem test_guard_refusals :
    let s := after (.rsqRead (uReq 5) 0x104A000100) { up with regs := [(0x104A00000C, 0x00700000)] }
    let s' := after (.registerWrite (uReq 5) 0x104A000100 0) s
    (s.rdata, s.reg 0x104A00000C, s.reg 0x104A000008, s.reg 0x104A000010) = (0, 0x00820000, 1, 0x01500040) ∧
    (s'.reg 0x104A00000C, s'.reg 0x104A000010) = (0x009E0000, 0x01500040) ∧
    (after (.eventRecordWrite hReq 0x104A00000C 0x009E0000) s').reg 0x104A00000C = 0x00900000 := by decide +kernel

/-- R153, R156: GTN 677 takes a Translation cause to S. -/
theorem test_translation_fault_enters_s :
    let c := ((after (.bundleBoundary 677) (up.setTh 677 {
      state := .run, berth := 7, ctx := { st := 0x12100, pc := 0x600040 }, srNow := [(0x14, 0x700000)],
      pend := some { cls := 5, detail := 0x10, target := 1, level := some 14, xra := 0x600040, xfa := 0x10 },
      bun := some { addr := 0x600040, len := 1, old := { st := 0x12100 }, next := 0x600044, pos := 1 } })).th 677).ctx
    (c.sysr 0x10, c.sysr 0x11, c.sysr 0x13, c.sysr 0x12) = (0x600040, 0x12100, 0x10, 0x10000005) ∧ c.st = 0x12141 ∧ c.pc = 0x700140 := by
  decide +kernel

/-- R257, R260: CAN 5 receives for berth 7, and a thread of berth 5 may not write the route. -/
theorem test_can_5_route :
    let s : State := { up with regs := [(routeAddr 404, 0xA9001D2C), (routeAddr 404 + 4, 0x04100000)] }
    (after (.eventSignal 404 0) s).reg 0x10410034A4 = 0x04240000 ∧
    (after (.ertRteCfgWrite (uReq 5) 404 0) s).reg 0x1041001010 = 0x01500194 ∧
    (after (.ertRteCfgWrite (uReq 5) 404 0) s).rteCfg 404 = 0xA9001D2C := by decide +kernel

/-- R190: the slice of a line. -/
theorem test_slice_of_a_line : sliceOf (0x0080000240 / 64) = 11 := by decide +kernel

/-! ## States that meet the hypotheses of the statements -/

/-- EmptyQueueTicks, MemoryStaysCanonical, QueueUntouched: the machine at reset, and a command in front. -/
theorem test_reset_idles : State.reset.pending = [] ∧ State.reset.rstReq = none ∧ State.reset.waits = [] ∧ State.reset.Inv :=
  ⟨rfl, rfl, rfl, rfl⟩
theorem test_a_step_from_reset_answers :
    ∃ s', step { State.reset with pending := [.gpioSet hReq 0 1] } = .next s' ∧ s'.pending = [] :=
  ⟨_, rfl, rfl⟩

/-- EventRecords: the guard's record is reached by a supervisor. -/
theorem test_a_record_is_reached :
    (match reaches up hReq 0x104A00000C with
     | some (p, r, off) => r.acc == .wsq && plain up hReq p off 0x00100000
     | none => false) = true := by decide +kernel

/-- RoundsToNearest: one, the smallest subnormal, and the greatest negative number are finite. -/
theorem test_finite_operands : isFinite fmtS 0x3F800000 ∧ isFinite fmtS 1 ∧ isFinite fmtS 0xFF7FFFFF ∧ isFinite fmtH 0xFBFF := by
  refine ⟨⟨?_, ?_⟩, ⟨?_, ?_⟩, ⟨?_, ?_⟩, ⟨?_, ?_⟩⟩ <;> decide +kernel

/-- A bundle with operands for every unit. -/
def opsCtx (st : Word) : Ctx := ctxOf [(2, 7), (3, 9), (4, 0x0FFFFFFFF), (5, 1), (6, 0x2000), (7, 3)] [(3, true)] st
def ops : State := inBundle (opsCtx 0xBD) (opsCtx 0xBD) 0 2
def opsStrict : State := inBundle (opsCtx 0x1BD) (opsCtx 0x1BD) 1 2

/-- Does a table of effects have an entry for a command whose syllable runs. -/
def runsIn (row : Instr → Option Effect) (i : Instr) (s : State) : Bool :=
  match row i with
  | some e => (s.openSyl e.t).any (fun b => b.holds e.q)
  | none => false

theorem test_wrapping_operations_run : ∀ p ∈ ([
  (.add 0 {} 2 4 6, ops), (.sub 0 {} 2 4 6, ops), (.and 0 {} 2 4 6, ops), (.or 0 {} 2 4 6, ops), (.xor 0 {} 2 4 6, ops),
  (.andn 0 {} 2 4 6, ops), (.shl 0 {} 2 4 6, ops), (.shr 0 {} 2 4 6, ops), (.sra 0 {} 2 4 6, ops), (.min 0 {} 2 4 6, ops),
  (.max 0 {} 2 4 6, ops), (.minu 0 {} 2 4 6, ops), (.maxu 0 {} 2 4 6, ops)] : List (Instr × State)), runsIn wrapRow p.1 p.2 = true := by decide +kernel

theorem test_extensions_and_counts_run : ∀ p ∈ ([
  (.sxB 0 {} 2 4, ops), (.sxH 0 {} 2 4, ops), (.sxW 0 {} 2 4, ops), (.zxB 0 {} 2 4, ops), (.zxH 0 {} 2 4, ops), (.zxW 0 {} 2 4, ops),
  (.clz 0 {} 2 4, ops), (.clzW 0 {} 2 4, ops), (.cls 0 {} 2 4, ops)] : List (Instr × State)), runsIn oneSourceRow p.1 p.2 = true := by decide +kernel

theorem test_saturations_run : ∀ p ∈ ([
  (.satB 0 {} 2 4, ops), (.satBu 0 {} 2 4, ops), (.satH 0 {} 2 4, ops), (.satHu 0 {} 2 4, ops), (.satW 0 {} 2 4, ops),
  (.satWu 0 {} 2 4, ops)] : List (Instr × State)), runsIn saturationRow p.1 p.2 = true := by decide +kernel

theorem test_immediates_and_fields_run : ∀ p ∈ ([
  (.addi 0 {} 2 4 0x12, ops), (.andi 0 {} 2 4 0x12, ops), (.ori 0 {} 2 4 0x12, ops), (.xori 0 {} 2 4 0x12, ops),
  (.shli 0 {} 2 4 0x12, ops), (.shri 0 {} 2 4 0x12, ops), (.srai 0 {} 2 4 0x12, ops), (.rsubi 0 {} 2 4 0x12, ops),
  (.mini 0 {} 2 4 0x12, ops), (.maxi 0 {} 2 4 0x12, ops), (.minui 0 {} 2 4 0x12, ops), (.maxui 0 {} 2 4 0x12, ops),
  (.bfx 0 {} 2 4 35 7, ops), (.bfi 0 {} 2 4 35 7, ops)] : List (Instr × State)), runsIn immediateRow p.1 p.2 = true := by decide +kernel

theorem test_pairs_run : ∀ p ∈ ([
  (.addP 0 {} 2 4 6, ops), (.subP 0 {} 2 4 6, ops), (.addPu 0 {} 2 4 6, ops), (.subPu 0 {} 2 4 6, ops), (.satP 0 {} 2 4, ops)] : List (Instr × State)), runsIn pairRow p.1 p.2 = true := by decide +kernel

theorem test_products_run : ∀ p ∈ ([
  (.mul 0 {} 2 4 6, ops), (.muli 0 {} 2 4 0x12, ops), (.mulWp 0 {} 2 4 6, ops), (.mulWpu 0 {} 2 4 6, ops)] : List (Instr × State)), runsIn productRow p.1 p.2 = true := by decide +kernel

theorem test_accumulations_run : ∀ p ∈ ([
  (.macH 0 {} 2 4 6, ops), (.macHu 0 {} 2 4 6, ops), (.macP 0 {} 2 4 6, ops)] : List (Instr × State)), runsIn accumulateRow p.1 p.2 = true := by decide +kernel

theorem test_byte_permutation_run : ∀ p ∈ ([
  (.bperm 0 {} 2 4 6, ops)] : List (Instr × State)), runsIn permuteRow p.1 p.2 = true := by decide +kernel

theorem test_compares_run : ∀ p ∈ ([
  (.eq 0 {} true 2 4 (.reg 6), ops), (.ne 0 {} true 2 4 (.reg 6), ops), (.lt 0 {} true 2 4 (.reg 6), ops),
  (.ge 0 {} true 2 4 (.reg 6), ops), (.le 0 {} true 2 4 (.reg 6), ops), (.gt 0 {} true 2 4 (.reg 6), ops),
  (.ltu 0 {} true 2 4 (.reg 6), ops), (.geu 0 {} true 2 4 (.reg 6), ops), (.leu 0 {} true 2 4 (.reg 6), ops),
  (.gtu 0 {} true 2 4 (.reg 6), ops), (.tst 0 {} true 2 4 (.reg 6), ops), (.ntst 0 {} true 2 4 (.reg 6), ops)] : List (Instr × State)), runsIn compareRow p.1 p.2 = true := by decide +kernel

theorem test_floating_point_run : ∀ p ∈ ([
  (.faddS 0 {} 2 4 6, ops), (.fsubS 0 {} 2 4 6, ops), (.fmulS 0 {} 2 4 6, ops), (.fminS 0 {} 2 4 6, ops), (.fmaxS 0 {} 2 4 6, ops),
  (.fmaS 0 {} 2 4 6, ops), (.faddH 0 {} 2 4 6, ops), (.fsubH 0 {} 2 4 6, ops), (.fmulH 0 {} 2 4 6, ops), (.fminH 0 {} 2 4 6, ops),
  (.fmaxH 0 {} 2 4 6, ops), (.fmaH 0 {} 2 4 6, ops), (.fabsS 0 {} 2 4, ops), (.fnegS 0 {} 2 4, ops), (.fabsH 0 {} 2 4, ops),
  (.fnegH 0 {} 2 4, ops), (.fcvtSH 0 {} 2 4, ops), (.fcvtHS 0 {} 2 4, ops), (.fcvtSW 0 {} 2 4, ops), (.fcvtSWu 0 {} 2 4, ops),
  (.fcvtWS 0 {} 2 4, ops), (.fcvtWSN 0 {} 2 4, ops), (.fcvtWuS 0 {} 2 4, ops), (.fclassS 0 {} 2 4, ops), (.fclassH 0 {} 2 4, ops)] : List (Instr × State)), runsIn floatRow p.1 p.2 = true := by decide +kernel

theorem test_floating_point_compares_run : ∀ p ∈ ([
  (.feqS 0 {} true 2 4 (.reg 6), ops), (.fltS 0 {} true 2 4 (.reg 6), ops), (.fleS 0 {} true 2 4 (.reg 6), ops),
  (.funS 0 {} true 2 4 (.reg 6), ops), (.feqH 0 {} true 2 4 (.reg 6), ops), (.fltH 0 {} true 2 4 (.reg 6), ops),
  (.fleH 0 {} true 2 4 (.reg 6), ops), (.funH 0 {} true 2 4 (.reg 6), ops)] : List (Instr × State)), runsIn floatCompareRow p.1 p.2 = true := by decide +kernel

/-- ReservedForms: every kind of reserved encoding, with and without ST.STRICT, executing or not. -/
theorem test_reserved_forms_open : ∀ p ∈ ([
  (.addP 0 {} 1 4 6, ops), (.subP 0 {} 2 5 6, opsStrict), (.addPu 0 {} 2 4 7, ops), (.subPu 0 {} 0 4 6, opsStrict), (.satP 0 {} 3 4, ops),
  (.mulWp 0 {} 3 4 6, ops), (.mulWpu 0 {} 31 4 6, opsStrict), (.macP 0 {} 0 4 6, ops), (.bfx 0 {} 2 4 36 5, ops), (.bfi 0 {} 2 4 63 5, opsStrict),
  (.ldD 0 {} 3 (.imm 4 8), ops), (.stD 0 {} 0 (.idx 4 6), opsStrict), (.mfsr 0 {} 2 0x3FF, ops), (.mtsr 0 {} 3 4, opsStrict),
  (.reservedEncoding 0 { reg := 3, neg := true } ⟨3, 0x1FFFFFF⟩, opsStrict), (.reservedEncoding 0 {} ⟨0, 0x1FFFFFF⟩, ops)] : List (Instr × State)),
    ((reservedForm p.1).any (fun r => (p.2.openSyl r.1).isSome)) = true := by decide +kernel

/-- SkippedSyllables: syllables of each unit whose predicate does not hold; NoSyllableWithoutAPlace: a thread that is FREE. -/
theorem test_syllables_skip : ∀ i ∈ ([
  .add 0 { reg := 3, neg := true } 2 4 6, .fmaS 0 { neg := true } 2 4 6, .eq 0 { reg := 2 } true 3 4 (.imm 5), .ldB 0 { reg := 2 } 3 (.imm 4 1),
  .amoCasX 0 { reg := 2 } 2 4 6, .sysc 0 { reg := 2 } 7, .div 0 { reg := 2 } 2 4 6, .ucall 0 { reg := 2 } 5] : List Instr),
    (match syllableOf i with
     | some (t, q, _) => (reservedForm i).isNone && (ops.openSyl t).any (fun b => !b.holds q && b.pos == 0) && (State.reset.openSyl t).isNone
     | none => false) = true := by decide +kernel

/-- ConditionalBranches: taken and not, predicted by the counter and by the hint. -/
theorem test_branches_open : ∀ s ∈ [ops, opsStrict], (s.openSyl 0).isSome = true ∧ (3 : Fin 8) ≠ 0 := by decide +kernel

/-- SecurityServices: GO of every service with its code in SHI_Q_OP. -/
theorem test_every_service_starts : ∀ p ∈ ([
  (.aesGcmEncrypt hReq 3, 0x01), (.aesGcmDecrypt hReq 3, 0x02), (.aesCtr hReq 3, 0x03), (.aesCmac hReq 3, 0x04),
  (.sha256 hReq 3, 0x10), (.sha384 hReq 3, 0x11), (.sha512 hReq 3, 0x12), (.sha3256 hReq 3, 0x18), (.sha3384 hReq 3, 0x19),
  (.sha3512 hReq 3, 0x1A), (.hmacSha256 hReq 3, 0x20), (.ecdsaP256Sign hReq 3, 0x30), (.ecdsaP256Verify hReq 3, 0x31),
  (.ecdsaP384Sign hReq 3, 0x32), (.ecdsaP384Verify hReq 3, 0x33), (.mlDsa65Verify hReq 3, 0x38), (.randomBytes hReq 3, 0x40),
  (.derive hReq 3, 0x48), (.unwrap hReq 3, 0x49)] : List (Instr × Nat)),
    (goRule p.1 { up with regs := [(svcPage 3, BitVec.ofNat 32 (0x30000 + p.2))] }).isSome = true := by decide +kernel

namespace Engine

def c : Ctx := { ctxOf [(1, 0x1234), (2, 0xFFFFFFFFF)] [(3,true)] 0xBC with pc := 0x1000 }
/-- a line of NOP bundles: last bit set? -/
def nops (w : Nat) : List Byte := (List.range 16).flatMap (fun _ => leBytes 4 w)
def rdy (w : Nat) (c : Ctx) : State :=
  up.setTh 0 { state := .run, ctx := c, fetch := .loaded, buf := some { va := 0x1000, pa := 0x1000, bytes := nops w } }
def bun (p : Nat) : State :=
  up.setTh 0 { state := .run, ctx := c, fetch := .loaded, buf := some { va := 0x1000, pa := 0x1000, bytes := nops 0 }, bun := some { addr := 0x1000, len := 2, old := c, next := 0x1008, issued := 0, ready := 0, pos := p } }
def wk (s : State) : State := { s with walks := [{ gtn := 0, berth := 0, asid := 0, page := 2 }] }
def withInt (st : ThState) : State := let s := up.setTh 0 { state := st, ctx := { c with st := 0x80 }, bnd := true, fetch := .loaded }
  { s with cand := [(8, true)], intake := [(8,true)], regs := [(routeAddr 8, 0xA5000000), (routeAddr 8 + 4, 0x40000)] }

theorem test_engineRule_applies : ∀ p ∈ ([
  (.issueSelect 0, up),
  (.bundleBoundary 0, bun 2),
  (.waitChannelWake 0, up.setTh 0 { state := .wait, ctx := {c with wMask := 0x3, wPend := 0x6} }),
  (.resumeBundleLoaded 0, up.setTh 0 { state := .run, resuming := true, fetch := .loaded, ctx := {c with wMask := 0x3, wPend := 0x6} }),
  (.threadHoldArrival 0, up.setTh 0 { state := .wait, holdSent := true, holdReq := true, ctx := c }),
  (.threadContextResetDone 0, up.setTh 0 { resetting := true, ctx := c, par := [(1, 1)] }),
  (.pairMismatch 3 true 5 0, { up with paired := 8 }),
  (.lineFillArrive 0,
    { up.setTh 0 { state := .run, ctx := c, fetch := .line 0x2000 } with mem := [(0x2004, 7)], coh := { up.coh with agents := [(0 * 2^60 + 0x80, { st := .S })] } }),
  (.interruptAccept 0, withInt .run),
  (.tableWalkDone 0,
    wk <| up.setTh 0 { state := .run, ctx := c, mem := .walk { op := .load .w 3, va := 0x2000 } 0x2000, bun := some { addr := 0x1000, len := 2, old := c, next := 0x1008, issued := 0, ready := 0, pos := 1 } }),
  (.issueSelect 0, rdy 0x80000000 c),
  (.resumeBundleLoaded 0, up.setTh 0 { state := .run, resuming := true, fetch := .loaded, ctx := {c with wMask := 0x3, wPend := 0x4} }),
  (.interruptAccept 0, withInt .wait),
  (.issueSelect 0, rdy 0x80000000 {c with cls := 2})] : List (Instr × State)),
    (engineRule p.1 p.2).isSome = true := by decide +kernel

/-- ThreadEngine: states that meet the conditions stated command by command. -/
theorem test_engine_conditions_met :
    let f : State := { up.setTh 0 { state := .run, ctx := c, fetch := .line 0x2000 } with
      coh := { up.coh with agents := [(0x80, { st := .S })] } }
    let w : State := wk (up.setTh 0 { state := .run, ctx := c, mem := .walk { op := .load .w 3, va := 0x2000 } 0x2000 })
    picks (rdy 0x80000000 c) 0 0 0 [0x80000000] = true ∧ acceptsNow (withInt .run) 0 = true ∧ acceptsNow (withInt .wait) 0 = true ∧
    resumes (up.setTh 0 { state := .run, resuming := true, fetch := .loaded, ctx := c }) 0 = true ∧ fills f 0 0x2000 = true ∧
    (bun 2).mayEnd 0 ((bun 2).bunOf 0) = true ∧ (w.walkOf 0).isSome = true ∧ w.alive 0 = true ∧
    (match w.threadWalk 0 0x2000 .read with
     | .ok _ => true
     | .error _ => false) = true := by decide +kernel

end Engine

namespace Exceptions

def co : Ctx :=
  { ctxOf [(1, 0x1234), (2, 0xFFFFFFFFF)] [(3,true)] 0xBC with pc := 0x1000, sr := [(0x10, 0x5000), (0x11, 0xABC), (0x20, 0x6000), (0x21, 0x123BC)] }
def ca (l : Option Nat) (tg : Nat) : Cause :=
  { cls := 7, detail := 0x83, target := tg, level := l, xra := 0x1000, xfa := 0x7777, tfi := some 0x5555 }
def bx (st : Word) (f : Thread → Thread) (g : Bundle → Bundle) : State :=
  { up.setTh 0 (f { state := .run, ctx := { co with st := st }, srNow := [(0x14, 0x8000), (0x24, 0x9000)], link := some { pa := 0x40, ext := false, window := true }, fetch := .loaded, bun := some (g { addr := 0x1000, len := 2, old := { co with st := st }, next := 0x1008, issued := 0, ready := 0, pos := 2 }) }) with dramCap := 0x100000 }
def pe (c : Cause) (x : Thread) : Thread := { x with pend := some c }

theorem test_entryRule_applies : ∀ p ∈ ([
  (.bundleBoundary 0, bx 0x3C0BC (pe (ca (some 15) 2)) id),
  (.bundleBoundary 0, bx 0x3C0BD (pe (ca (some 15) 1)) id),
  (.bundleBoundary 0, bx 0x3C0BE (pe (ca (some 15) 1)) id),
  (.bundleBoundary 0, bx 0x3C8BD (pe (ca (some 14) 1)) id),
  (.bundleBoundary 0, bx 0x3C8BE (pe (ca (some 14) 1)) id),
  (.bundleBoundary 0, bx 0x3C8FD (pe (ca (some 14) 1)) id),
  (.bundleBoundary 0, bx 0x3C0BD id (fun b => { b with call := some { ca none 1 with cls := 0x10, tfi := none } })),
  (.bundleBoundary 0, bx 0x3C0BE id (fun b => { b with call := some { ca none 1 with cls := 0x10, tfi := none } })),
  (.bundleBoundary 0, bx 0x3C0BC id (fun b => { b with call := some { ca none 2 with cls := 0x11, tfi := none } }))] : List (Instr × State)),
    (entryRule p.1 p.2).isSome = true := by decide +kernel

theorem test_returnRule_applies : ∀ p ∈ ([
  (.bundleBoundary 0, bx 0x3C0BD id (fun b => { b with rfx := true })),
  (.bundleBoundary 0, bx 0x3C0FE id (fun b => { b with rfx := true }))] : List (Instr × State)),
    (returnRule p.1 p.2).isSome = true := by decide +kernel

end Exceptions

namespace Ctl

def cU : Ctx := ctxOf [(1, 0x1234), (2, 0xFFFFFFFFF)] [(3,true)] 0xBC
def cS : Ctx := ctxOf [(1, 0x1234), (2, 0xFFFFFFFFF), (4, 0x3FF)] [(3,true)] 0xBD
def cH : Ctx := ctxOf [(1, 0x1234), (2, 0xFFFFFFFFF), (4,0x3FF)] [(3,true)] 0xBE
def b (c : Ctx) : State := inBundle c c 1 2
def pb (c : Ctx) : State := (b c).modTh 0 (fun x => { x with pbar := true, par := [(0, 1), (31, 1), (1, 1)] })
def cD : Ctx := { cU with st := 0x13C }
def bp (n : BitVec 2) (c : Ctx) : State :=
  let s := b c; s.modCore 0 (fun k => { k with pred := (List.range 4096).map (fun i => (i, n)) })

theorem test_privilegeRule_applies : ∀ p ∈ ([
  (.mfsr 0 {} 3 0x10, b cU),
  (.mtsr 0 {} 0x10 1, b cU),
  (.hypc 0 {} 3, b cU),
  (.rfx 0 {}, b cU),
  (.pflush 0 {}, b cU),
  (.tlbiVa 0 {} 1, b cU),
  (.tlbiVaa 0 {} 1, b cU),
  (.tlbiAsid 0 {} 1, b cU),
  (.tlbiOwn 0 {}, b cU),
  (.tlbiIpa 0 {} 1 2, b cS),
  (.tlbiB 0 {} 1, b cS),
  (.tlbiAll 0 {}, b cS),
  (.mfsr 0 {} 3 0x20, b cS),
  (.mtsr 0 {} 0x20 1, b cS),
  (.mtsr 0 {} 9 1, b cU),
  (.mtsr 0 {} 0x48 1, b cS)] : List (Instr × State)),
    (privilegeRule p.1 p.2).isSome = true := by decide +kernel

theorem test_systemRegisterRule_applies : ∀ p ∈ ([
  (.mfsr 0 {} 3 0, b cU),
  (.mtsr 0 {} 0 2, b cU),
  (.mfsr 0 {} 3 1, b cU),
  (.mtsr 0 {} 0 2, b cS),
  (.mfsr 0 {} 3 2, b cU),
  (.mtsr 0 {} 0 2, b cH),
  (.mfsr 0 {} 3 8, b cU),
  (.mtsr 0 {} 1 2, b cS),
  (.mfsr 0 {} 3 9, b cS),
  (.mtsr 0 {} 2 4, b cS),
  (.mfsr 0 {} 3 0xA, b cS),
  (.mtsr 0 {} 8 2, b cS),
  (.mfsr 0 {} 0 0x10, b cS),
  (.mtsr 0 {} 9 2, b cS),
  (.mfsr 0 {} 3 0x20, b cH),
  (.mtsr 0 {} 0xA 2, b cH),
  (.mfsr 0 {} 3 0x48, b cH),
  (.mtsr 0 {} 0x10 2, b cS),
  (.mfsr 0 {} 3 0x4C, b cH),
  (.mtsr 0 {} 0x11 2, b cS),
  (.mtsr 0 {} 0x21 2, b cH),
  (.mtsr 0 {} 0x12 2, b cS),
  (.mtsr 0 {} 0x14 2, b cS),
  (.mtsr 0 {} 0x24 2, b cH),
  (.mtsr 0 {} 0x40 2, b cS),
  (.mtsr 0 {} 0x41 2, b cS),
  (.mtsr 0 {} 0x4C 2, b cH),
  (.mtsr 0 {} 0x18 2, b cS),
  (.mtsr 0 {} 0x15 2, b cS)] : List (Instr × State)),
    (systemRegisterRule p.1 p.2).isSome = true := by decide +kernel

theorem test_controlRule_applies : ∀ p ∈ ([
  (.jmp 0 {} 1, b cU),
  (.jmpl 0 {} 3 1, b cU),
  (.bra 0 {} false false 0xFFFFF, b cU),
  (.wait 0 {} 0x55, b cU),
  (.sysc 0 {} 0x1234, b cU),
  (.hypc 0 {} 0xFFFF, b cS),
  (.rfx 0 {}, b cS),
  (.syncC 0 {}, b cU),
  (.pflush 0 {}, b cS),
  (.pbar 0 {}, b cU),
  (.tnote 0 {} 1 2, b cU),
  (.jmp 0 {} 2, pb cU),
  (.jmpl 0 {} 31 2, pb cU),
  (.bra 0 {} false true 5, pb cU),
  (.rfx 0 {}, b cH),
  (.tnote 0 {} 1 2, pb cU)] : List (Instr × State)),
    (controlRule p.1 p.2).isSome = true := by decide +kernel

end Ctl

namespace Pat

def c : Ctx := ctxOf [(1, 0x1234), (2, 0xFFFFFFFFF), (3, 0x800000000)] [(3,true)] 0xBC
def b : State := inBundle c c 0 1
def bu : State := { b with pat := { b.pat with loaded := [(0,2)], entries := [(5, 2^95 + 2^83*7 + 1 + 2^78*3+2^73*4+2^68*5)] } }
def pd (n : Nat) (k : PatKind) : State :=
  up.setTh 0 { state := .run, ctx := c, pat := some { kind := k, rd := 3, ra := 1, rb := 2, issued := n}, bun := some { addr := 0x1000, len := 1, old := c, next := 0x1004, issued := 10, ready := 14, pos := 1, grant := true } }
def wd (next nmode sp c1 c0 aop adst sa sb mop imm cn sov : Nat) : BitVec 96 :=
  BitVec.ofNat 96 (next*2^83 + nmode*2^81+sp*2^80+c1*2^68+c0*2^64+aop*2^58+adst*2^54+sa*2^50+sb*2^46+mop*2^42+cn*2^32+sov*2^31+imm)
def pu (n : Nat) (w : BitVec 96) : State :=
  let s := up.setTh 0 { state := .run, ctx := c, pat := some { kind := .user 5, rd := 3, ra := 1, rb := 2, issued := n, maddr := 0x1805, mdr := 9, cnt := 1}, bun := some { addr := 0x1000, len := 1, old := c, next := 0x1004, issued := 10, ready := 14, pos := 1, grant := true } }
  { s with pat := { s.pat with loaded := [(0,2)], words := [(0x1805, w)] } }

theorem test_patternRule_applies : ∀ p ∈ ([
  (.div 0 {} 4 1 2, b),
  (.divu 0 {} 4 2 1, b),
  (.rem 0 {} 4 3 1, b),
  (.remu 0 {} 4 2 1, b),
  (.copy 0 {} 4 1 2, b),
  (.fill 0 {} 4 1 2, b),
  (.cmpb 0 {} 4 1 2, b),
  (.crc32c 0 {} 4 1 2, b),
  (.crc16 0 {} 4 1 2, b),
  (.crc8 0 {} 4 1 2, b),
  (.crc8h 0 {} 4 1 2, b),
  (.sunpk 0 {} 4 1 2, b),
  (.spack 0 {} 4 1 2, b),
  (.ucall 0 {} 5, bu),
  (.patternMicroWord 0, pd 19 (.div 4 77 true)),
  (.patternWordRewrite 1 0x2010, { up with pat := { up.pat with bad := [(patKey 1 0x2010, true)], words := [(patKey 1 0x2010, 77)] } }),
  (.div 0 {} 4 3 2, b),
  (.divu 0 {} 4 2 0, b),
  (.rem 0 {} 4 3 2, b),
  (.remu 0 {} 4 2 0, b),
  (.patternMicroWord 0, pd 19 (.div 0 77 false)),
  (.patternWordRewrite 1 0x2010, { up with pat := { up.pat with bad := [(patKey 1 0x2010, true)], words := [(77, 77)] } }),
  (.div 0 {} 4 1 0, b),
  (.rem 0 {} 4 2 0, b),
  (.patternMicroWord 0, pd 19 (.div 4 77 true)),
  (.patternWordRewrite 1 0x1805, { (pu 3 5) with pat := { (pu 3 5).pat with bad := [(patKey 1 0x1805, true)] } }),
  (.patternMicroWord 0, pd 5 (.div 4 77 true)),
  (.patternMicroWord 0, pd 19 (.div 0 77 false)),
  (.patternMicroWord 0, pu 3 (wd 0x1802 2 0 5 1 2 3 3 13 0 1 2 1)),
  (.patternMicroWord 0, pu 3 (wd 0x1802 3 0 5 1 1 1 2 3 0 1 0 0))] : List (Instr × State)),
    (patternRule p.1 p.2).isSome = true := by decide +kernel

end Pat

namespace Mem

def cm : Ctx :=
  { ctxOf [(1, 0x2000), (2, 0x3A), (4, 0xFFFFFFFF8), (5, 0x123456789), (6, 0x12345), (7, 3), (8, 0x2038)] [(3,true)] 0xBC with pc := 0x1000 }
def ln (st : LSt) : List (Nat × ALine) := [(0x80, { st := st }), (0x81, { st := st })]
def bytes0 : List (Nat × Byte) := (List.range 72).map (fun i => (0x2000 + i, BitVec.ofNat 8 (0x81 + 3 * i)))
def ms (st : LSt) (x : Thread → Thread) (f : State → State) : State :=
  f ({ (inBundle cm cm 0 2).modTh 0 x with dramCap := 0x100000, mem := bytes0, coh := { agents := ln st, l1d := [(0x80, true), (0x81, true)] } })
def m1 : State := ms .M id id
def mS : State := ms .S id id
def e1 (op : SbOp) (o pa : Nat) (d : List Byte) : SbEntry := { gtn := 0, order := o, op := op, pa := pa, data := d }
def mB (l : List SbEntry) (x : Thread → Thread): State :=
  ms .M (fun t => x { t with sbOrder := 6 }) (fun s => s.modCore 0 (fun k => { k with sb := l }))
def lk (ext : Bool) (pa : Nat) (x : Thread) : Thread := { x with link := some { pa := pa, ext := ext, window := true } }
def amoS (op : AmoOp) (ext : Bool) (va : Word) : State :=
  ms .M (fun x => { x with mem := .line { op := .amo op ext 3 7 0x91979497, va := va, found := [⟨va.toNat, va.toNat, if ext then 8 else 4, none⟩] } }) id
def tl (pa : Nat) : TlbEntry :=
  { loc := .dtlb 0, berth := 0, asid := none, va := 2, ipa := 2, pa := pa / 0x1000, size := 12, ur := true, uw := true, ux := true, pr := true, pw := true, px := true, s2r := true, s2w := true, s2x := true, lvl1 := 2, lvl2 := 2 }

theorem test_loadRule_applies : ∀ p ∈ ([
  (.ldB 0 {} 3 (.imm 1 5), m1),
  (.ldH 0 {} 3 (.imm 1 5), mS),
  (.ldW 0 {} 3 (.idx 1 2), mS),
  (.ldX 0 {} 3 (.imm 1 0x3D), mS),
  (.ldBu 0 {} 3 (.imm 1 0x3D), mS),
  (.ldHu 0 {} 3 (.imm 1 0x3F), mS),
  (.ldWu 0 {} 0 (.imm 1 0x3D), mS),
  (.ldD 0 {} 10 (.imm 1 0x3D), mS),
  (.ldAqW 0 {} 10 1 0, mS),
  (.ldAqX 0 {} 10 1 0, mS),
  (.ldlW 0 {} 10 1, m1),
  (.ldlX 0 {} 10 8, m1),
  (.ldB 0 {} 3 (.imm 1 5), mS),
  (.ldW 0 {} 3 (.imm 1 0x3E), mS)] : List (Instr × State)),
    (loadRule p.1 p.2).isSome = true := by decide +kernel

theorem test_storeRule_applies : ∀ p ∈ ([
  (.stB 0 {} 3 (.imm 1 5), mS),
  (.stH 0 {} 5 (.imm 1 0x3F), ms .S (lk true 0x2010) id),
  (.stW 0 {} 5 (.imm 1 0x3D), ms .S (lk true 0x2070) id),
  (.stX 0 {} 4 (.imm 1 0x3D), mB [e1 .store 4 0x2010 [1,2]] id),
  (.stD 0 {} 4 (.imm 1 0x3D), mB [e1 .store 4 0x2010 [1,2]] (lk true 0x2050)),
  (.ssB 0 {} 4 1 7, m1),
  (.ssBu 0 {} 5 1 7, m1),
  (.ssH 0 {} 4 1 7, m1),
  (.ssHu 0 {} 4 1 7, m1),
  (.ssW 0 {} 4 1 7, m1),
  (.ssWu 0 {} 4 1 7, m1),
  (.stRlW 0 {} 5 1 0, m1),
  (.stRlX 0 {} 5 1 0, m1),
  (.stB 0 {} 5 (.imm 1 5), ms .S (lk true 0x2010) id),
  (.stD 0 {} 4 (.idx 1 0), mB [e1 .store 4 0x2010 [1,2]] (lk true 0x2050)),
  (.ssB 0 {} 5 1 7, m1),
  (.ssH 0 {} 5 1 7, m1),
  (.ssW 0 {} 5 1 7, m1)] : List (Instr × State)),
    (storeRule p.1 p.2).isSome = true := by decide +kernel

theorem test_drainRule_applies : ∀ p ∈ ([
  (.storeBufferDrain 0 4,
    mB [e1 .store 4 0x2010 [1,2], e1 .store 5 0x2010 [3]] (fun x => { x with bun := x.bun.map (fun b => { b with sbMark := 9 }) })),
  (.storeBufferDrain 0 4,
    mB [e1 .store 3 0x2050 [1,2], e1 .store 4 0x2010 [3], e1 .marker 5 0 [], { e1 .store 0 0 [] with gtn := 5 }] (fun x => { lk true 0x2000 x with bun := x.bun.map (fun b => { b with sbMark := 9 }) }))] : List (Instr × State)),
    (drainRule p.1 p.2).isSome = true := by decide +kernel

theorem test_stcRule_applies : ∀ p ∈ ([
  (.stcW 0 {} 5 1 9, m1),
  (.stcX 0 {} 5 1 9, ms .S (lk true 0x2000) id),
  (.stcW 0 {} 5 1 9, ms .S (lk false 0x2000) id),
  (.stcX 0 {} 4 1 0, mB [e1 .store 4 0x2010 [1,2]] (lk true 0x2000))] : List (Instr × State)),
    (stcRule p.1 p.2).isSome = true := by decide +kernel

theorem test_amoRule_applies : ∀ p ∈ ([
  (.amoSwapW 0 {} 5 1 7, m1),
  (.amoAddW 0 {} 5 1 7, m1),
  (.amoAndW 0 {} 5 1 7, mS),
  (.amoOrW 0 {} 5 1 7, mB [e1 .store 4 0x2010 [1,2]] id),
  (.amoXorW 0 {} 5 1 7, m1),
  (.amoMinW 0 {} 5 1 7, m1),
  (.amoMaxW 0 {} 5 1 7, m1),
  (.amoMinuW 0 {} 5 1 7, m1),
  (.amoMaxuW 0 {} 5 1 7, m1),
  (.amoCasW 0 {} 5 1 7, m1),
  (.amoSwapX 0 {} 5 1 7, m1),
  (.amoAddX 0 {} 5 1 7, m1),
  (.amoCasX 0 {} 5 1 7, m1)] : List (Instr × State)),
    (amoRule p.1 p.2).isSome = true := by decide +kernel

theorem test_responseRule_applies : ∀ p ∈ ([
  (.loadDataReturn 0, amoS .add false 0x2000),
  (.deviceAccessResponse 0 0x8000000012345678 false,
    ms .S (fun x => { x with mem := .device { op := .load .w 3, va := 0x2004 } 0x2000000000 none true }) id),
  (.registerAccessTimeout (.thread 0),
    ms .S (fun x => { x with mem := .device { op := .store [1,2,3,4], va := 0x2004 } 0x1048002000 none false }) id),
  (.linkDelayExpiry 0, ms .S (lk true 0x2000) id),
  (.tlbMaintenanceComplete,
    { ms .S (fun x => { x with tlbis := 1}) id with tlbis := [⟨some 0, some 0, none, true, false, some 0x2000, none⟩], tlbs := [tl 0x3000, { tl 0x5000 with berth := 1 }] }),
  (.iflushComplete 0,
    { ms .S (fun x => { x with mem := .iflushAck 0x80, buf := some { va := 0x2000, pa := 0x2000, bytes := [] }}) id with coh := { agents := ln .S, l1i := [(0x80, [1]), (0x81, [2]), (2^34 + 0x80, [3])] } }),
  (.loadDataReturn 0, amoS .min false 0x2000),
  (.deviceAccessResponse 0 0x80000000 false,
    ms .S (fun x => { x with mem := .device { op := .load .w 3, va := 0x2004 } 0x2000000000 none true }) id),
  (.loadDataReturn 0, amoS .max false 0x2004),
  (.deviceAccessResponse 0 0x80000000 true,
    ms .S (fun x => { x with mem := .device { op := .load .w 3, va := 0x2004 } 0x2000000000 none true }) id),
  (.loadDataReturn 0, amoS .minu false 0x2004),
  (.deviceAccessResponse 0 0 false,
    ms .S (fun x => { x with mem := .device { op := .store [1,2,3,4], va := 0x2004 } (routeAddr 8) none false }) id),
  (.loadDataReturn 0, amoS .maxu true 0x2008),
  (.deviceAccessResponse 0 0 false,
    ms .S (fun x => { x with mem := .device { op := .store [1,2,3,4], va := 0x2004 } 0x1048002000 none false }) id),
  (.loadDataReturn 0, amoS .cas false 0x2008),
  (.deviceAccessResponse 0 0 false,
    ms .S (fun x => { x with mem := .device { op := .store [1,2,3,4], va := 0x2004 } 0x1040FFF000 none false }) id),
  (.loadDataReturn 0, amoS .swap true 0x2038),
  (.loadDataReturn 0,
    ms .S (fun x => { x with mem := .line { op := .load .w 3, va := 0x2004, asked := true, found := [⟨0x2004, 0x2004, 4, none⟩] } }) id)] : List (Instr × State)),
    (responseRule p.1 p.2).isSome = true := by decide +kernel

theorem test_maintenanceRule_applies : ∀ p ∈ ([
  (.clClean 0 {} 1, m1),
  (.clFlush 0 {} 8, mB [e1 .store 4 0x2010 [1,2]] id),
  (.clInv 0 {} 8, mS),
  (.clZero 0 {} 8, ms .S (lk true 0x2000) id),
  (.tlbiVa 0 {} 1, ms .S (fun x => { x with bun := x.bun.map (fun b => { b with old := { cm with st := 0xBD } }) }) id),
  (.tlbiVaa 0 {} 1, ms .S (fun x => { x with bun := x.bun.map (fun b => { b with old := { cm with st := 0xBD } }) }) id),
  (.tlbiAsid 0 {} 1, ms .S (fun x => { x with bun := x.bun.map (fun b => { b with old := { cm with st := 0xBD } }) }) id),
  (.tlbiOwn 0 {}, ms .S (fun x => { x with bun := x.bun.map (fun b => { b with old := { cm with st := 0xBD } }) }) id),
  (.tlbiIpa 0 {} 1 5, ms .S (fun x => { x with bun := x.bun.map (fun b => { b with old := { cm with st := 0xBE } }) }) id),
  (.tlbiB 0 {} 5, ms .S (fun x => { x with bun := x.bun.map (fun b => { b with old := { cm with st := 0xBE } }) }) id),
  (.tlbiAll 0 {}, ms .S (fun x => { x with bun := x.bun.map (fun b => { b with old := { cm with st := 0xBE } }) }) id)] : List (Instr × State)),
    (maintenanceRule p.1 p.2).isSome = true := by decide +kernel

theorem test_orderingRule_applies : ∀ p ∈ ([
  (.fence 0 {}, m1),
  (.fenceSs 0 {}, m1),
  (.iflush 0 {} 1, m1),
  (.clPref 0 {} 1, m1),
  (.clPrefw 0 {} 1, ms .I id id),
  (.fence 0 {}, mB [e1 .store 4 0x2010 [1,2]] id),
  (.fenceSs 0 {}, mB [e1 .store 4 0x2010 [1,2]] id),
  (.clPref 0 {} 1, { mS with coh := { agents := ln .S } })] : List (Instr × State)),
    (orderingRule p.1 p.2).isSome = true := by decide +kernel

end Mem

namespace Coh

def ag (st : LSt) : List (Nat × ALine) := [(3 * 2^34 + 0x80, { st := st })]
def M (k : MsgKind) (a : Nat) : Msg := { kind := k, agent := a, line := 0x80, req := a }
def cs (st : LSt) (msgs : List Msg) (h : Home) : State :=
  { up with dramCap := 0x100000, mem := [(0x2000, 5)], coh := { agents := ag st, msgs := msgs, homes := [(0x80, h)] } }
def hX (o : Nat) : Home := { st := .X, owner := o }
def hO (o : Nat) : Home := { st := .O, owner := o, sh := 6 }
def hS : Home := { st := .S, sh := 9 }
def hB : Home := { st := .S, sh := 6, busy := .bm ⟨.getS, 5⟩ .S, queue := [⟨.getS, 6⟩] }
def al (x : ALine) (m : List Msg) : State :=
  { cs .I m {} with coh := { agents := [(3 * 2^34 + 0x80, x)], msgs := m, homes := [(0x80, hX 3)] } }

theorem test_requestRule_applies : ∀ p ∈ ([
  (.gets 3 0x80, cs .I [] {}),
  (.getm 3 0x80, cs .I [] {}),
  (.getmz 3 0x80, cs .I [] {}),
  (.clean 3 0x80, cs .M [] {}),
  (.flush 3 0x80, cs .I [] {}),
  (.gets 3 0x80, cs .ISd [M .getS 3] hB),
  (.getm 3 0x80, cs .S [] hS),
  (.rdonce 3 0x80, cs .ISd [M .rdOnce 3] ({})),
  (.clean 3 0x80, cs .I [M .clean 3] ({})),
  (.flush 3 0x80, cs .I [M .flush 3] (hX 12)),
  (.gets 3 0x80, cs .ISd [M .getS 3] (hX 4)),
  (.getm 3 0x80, cs .O [] {}),
  (.rdonce 3 0x80, cs .ISd [M .rdOnce 3] (hS)),
  (.clean 3 0x80, cs .S [M .clean 3] (hS)),
  (.gets 3 0x80, cs .ISd [M .getS 3] (hO 4)),
  (.getm 3 0x80, cs .IMad [M .getS 4, M .getM 3, M .getM 3] hB),
  (.getmz 3 0x80, cs .IMad [M .getMZ 3] ({})),
  (.rdonce 3 0x80, cs .ISd [M .rdOnce 3] (hX 7)),
  (.clean 3 0x80, cs .I [M .clean 3] (hX 12)),
  (.gets 3 0x80, cs .ISd [M .getS 3] (hS)),
  (.getm 3 0x80, cs .IMad [M .getM 3] ({})),
  (.getmz 3 0x80, cs .IMad [M .getMZ 3] (hX 4)),
  (.rdonce 3 0x80, cs .ISd [M .rdOnce 3] (hO 7)),
  (.gets 3 0x80, cs .ISd [M .getS 3] ({})),
  (.getm 3 0x80, cs .IMad [M .getM 3] (hX 4))] : List (Instr × State)),
    (requestRule p.1 p.2).isSome = true := by decide +kernel

theorem test_forwardRule_applies : ∀ p ∈ ([
  (.fwdGets 3 0x80, cs .E [{ M .fwdGetS 3 with req := 5 }] (hO 3)),
  (.fwdRdonce 3 0x80, cs .E [{ M .fwdRdOnce 3 with req := 5 }] (hO 3)),
  (.fwdGetm 3 0x80, cs .E [{ M .fwdGetM 3 with req := 5, n := 2 }] (hO 3)),
  (.fwdGetmz 3 0x80, cs .M [{ M .fwdGetMZ 3 with req := 5, n := 2 }] (hO 3)),
  (.inv 3 0x80, cs .I [{ M .inv 3 with req := 5, toHome := true }] (hO 3)),
  (.recall 3 0x80, cs .E [M .recall 3] (hO 3)),
  (.downgrade 3 0x80, cs .M [M .downgrade 3] (hO 3)),
  (.puts 3 0x80, cs .S [] hS),
  (.pute 3 0x80, cs .E [] hS),
  (.putm 3 0x80, cs .M [] hS),
  (.puto 3 0x80, cs .O [] hS),
  (.fwdGets 3 0x80, cs .M [{ M .fwdGetS 3 with req := 5 }] (hO 3)),
  (.fwdRdonce 3 0x80, cs .M [{ M .fwdRdOnce 3 with req := 5 }] (hO 3)),
  (.fwdGetm 3 0x80, cs .M [{ M .fwdGetM 3 with req := 5, n := 2 }] (hO 3)),
  (.fwdGetmz 3 0x80, cs .OMa [{ M .fwdGetMZ 3 with req := 5, n := 2 }] (hO 3)),
  (.inv 3 0x80, cs .S [{ M .inv 3 with req := 5, toHome := false }] (hO 3)),
  (.recall 3 0x80, cs .O [M .recall 3] (hO 3)),
  (.downgrade 3 0x80, cs .E [M .downgrade 3] (hO 3)),
  (.puts 3 0x80, cs .SIa [M .putS 3] hS),
  (.pute 3 0x80, cs .EIa [M .putE 3] (hX 3)),
  (.putm 3 0x80, cs .MIa [M .putM 3] (hX 3)),
  (.puto 3 0x80, cs .OIa [M .putO 3] (hX 3)),
  (.fwdGets 3 0x80, cs .O [{ M .fwdGetS 3 with req := 5 }] (hO 3)),
  (.fwdRdonce 3 0x80, cs .OMa [{ M .fwdRdOnce 3 with req := 5 }] (hO 3)),
  (.fwdGetm 3 0x80, cs .O [{ M .fwdGetM 3 with req := 5, n := 2 }] (hO 3)),
  (.inv 3 0x80, cs .SMad [{ M .inv 3 with req := 5, toHome := false }] (hO 3)),
  (.recall 3 0x80, cs .OMa [M .recall 3] (hO 3)),
  (.downgrade 3 0x80, cs .OMa [M .downgrade 3] (hO 3)),
  (.puts 3 0x80, cs .SIa [M .putS 3] { hS with sh := 8 }),
  (.fwdGets 3 0x80, cs .OMa [{ M .fwdGetS 3 with req := 5 }] (hO 3))] : List (Instr × State)),
    (forwardRule p.1 p.2).isSome = true := by decide +kernel

theorem test_responsesRule_applies : ∀ p ∈ ([
  (.data 3 0x80, cs .ISd [{ M .data 3 with grant := .S }] (hO 4)),
  (.grant 3 0x80, al { st := .IMad, acks := 1 } [{ M .grant 3 with grant := .M, n := 2 }]),
  (.invAck 3 0x80 false, al { st := .IMad, acks := 1 } [M .invAck 3]),
  (.putAck 3 0x80, cs .MIa [M .putAck 3] {}),
  (.putStale 3 0x80, cs .IIa [M .putStale 3] {}),
  (.unblock 3 0x80, cs .M [M .unblock 3] { hX 3 with busy := .bw ⟨.getM, 3⟩, queue := [⟨.getS, 4⟩] }),
  (.recallData 3 0x80, cs .I [M .recallData 3] { hX 3 with busy := .br none 0, owed := 2, queue := [⟨.getS, 4⟩] }),
  (.done 3 0x80,
    (cs .I [M .done 3] {}).modCore 12 (fun k => { k with sb := [{ gtn := 384, order := 1, op := .clean, pa := 0x2000, sent := true }, { gtn := 384, order := 2, op := .store, pa := 0x2000 }] })),
  (.homeMemoryReadDone 0x80, cs .I [] { busy := .bm ⟨.getS, 3⟩ .I }),
  (.busyQueueTake 0x80, cs .I [] { st := .S, sh := 6, queue := [⟨.getS, 4⟩, ⟨.getS, 5⟩] }),
  (.data 3 0x80, cs .ISd [{ M .data 3 with grant := .E }] (hO 4)),
  (.grant 3 0x80, al { st := .SMad, acks := 1 } [{ M .grant 3 with grant := .M, n := 1 }]),
  (.invAck 3 0x80 false, al { st := .SMad, acks := 1 } [M .invAck 3]),
  (.putAck 3 0x80, cs .OIa [M .putAck 3] {}),
  (.homeMemoryReadDone 0x80, cs .I [] { st := .S, busy := .bm ⟨.getS, 3⟩ .S }),
  (.data 3 0x80, al { st := .ISd, once := true } [{ M .data 3 with grant := .E }]),
  (.grant 3 0x80, al { st := .OMa, acks := 1 } [{ M .grant 3 with grant := .M, n := 1 }]),
  (.invAck 3 0x80 false, al { st := .IMa, acks := 1, n := some 2 } [M .invAck 3]),
  (.putAck 3 0x80, cs .EIa [M .putAck 3] {}),
  (.homeMemoryReadDone 0x80, cs .I [] { busy := .bm ⟨.rdOnce, 3⟩ .I }),
  (.data 3 0x80, al { st := .IMad, acks := 2 } [{ M .data 3 with grant := .M, n := 2 }]),
  (.grant 3 0x80, al { st := .OMa, acks := 1 } [{ M .grant 3 with grant := .M, n := 3 }]),
  (.invAck 3 0x80 false, al { st := .SMa, acks := 1, n := some 3 } [M .invAck 3]),
  (.putAck 3 0x80, cs .SIa [M .putAck 3] {}),
  (.homeMemoryReadDone 0x80, cs .I [] { busy := .bm ⟨.getM, 3⟩ .I }),
  (.data 3 0x80, al { st := .IMad, acks := 1 } [{ M .data 3 with grant := .M, n := 2 }]),
  (.invAck 3 0x80 false, al { st := .OMa, acks := 1, n := some 2 } [M .invAck 3]),
  (.putAck 3 0x80, cs .IIa [M .putAck 3] {}),
  (.data 3 0x80, al { st := .SMad, acks := 1 } [{ M .data 3 with grant := .M, n := 2 }]),
  (.data 3 0x80, al { st := .SMad, acks := 0 } [{ M .data 3 with grant := .M, n := 0 }])] : List (Instr × State)),
    (responsesRule p.1 p.2).isSome = true := by decide +kernel

theorem test_upkeepRule_applies : ∀ p ∈ ([
  (.coherenceTimeout 3 0x80, cs .M [M .recall 3] (hX 3)),
  (.agentFatalError 3, cs .M [M .recall 3] (hX 3)),
  (.scrubRead 0 2, cs .I [] {}),
  (.dramTemperatureRead 2 3 true, cs .I [] {}),
  (.wckTracking 1, cs .I [] {}),
  (.scrubRead 1 2, cs .I [] {})] : List (Instr × State)),
    (upkeepRule p.1 p.2).isSome = true := by decide +kernel

end Coh

namespace Rtr

def r0s (l : List (Nat × W32)) : State := { up with regs := l }
def on (e : Nat) (cfg stat : W32) : State := r0s [(routeAddr e, cfg), (routeAddr e + 4, stat)]
def q (op : Nat) (b : Nat) (pay : List W32) (f : List W32 → List W32) (x : Mbox) : State := mbxIn up 0 1 (f (msg op b pay)) x

theorem test_routerRule_applies : ∀ p ∈ ([
  (.eventSignal 8 3, on 8 0x80000000 0),
  (.routeDelivery 8, on 8 0x80000000 0x00040000),
  (.ertRteCfgWrite hReq 8 0xA5000001, on 8 0 0),
  (.ertRteStatWrite hReq 8 0x00500000, on 8 0x80000000 0x005C0000),
  (.ertDbRing hReq 5 0x1234, on 1285 0x80000000 0),
  (.eventSignal 8 3, on 8 0x80100000 0xFFF40000),
  (.routeDelivery 8, on 8 0x80A00080 0x00040000),
  (.ertRteCfgWrite hReq 8 0x05000001, on 8 0xA5000000 0x40000),
  (.ertRteStatWrite hReq 8 0x00600000, on 8 0x80000000 0x005C0000),
  (.ertDbRing (uReq 3) 5 0x1234, on 1285 0x80000000 0),
  (.eventSignal 8 3, on 8 0x00100000 0xFFF40000),
  (.routeDelivery 8, on 8 0xA5000000 0x00040000),
  (.ertRteCfgWrite hReq 8 0xB5000001, (on 8 0 0).setTh 1 { state := .wait, berth := 0 }),
  (.ertRteStatWrite (uReq 5) 8 0x00600000, on 8 0x80000000 0x005C0000),
  (.ertDbRing (uReq 0) 20 0x1234, on 1300 0x80000000 0x40000),
  (.eventSignal 1217 3, on (1536+48+1) 0x80100000 0xFFF40000),
  (.routeDelivery 8, (on 8 0x80A00001 0x00040000).setTh 1 { state := .wait, berth := 0 }),
  (.ertRteCfgWrite (uReq 3) 8 0xB5000001, (on 8 0 0).setTh 1 { state := .wait, berth := 0 }),
  (.eventSignal 1222 3, on (1536+48+6) 0x80100000 0xFFF40000),
  (.routeDelivery 8, (on 8 0xA5000001 0x00040000).setTh 1 { state := .wait, berth := 0 }),
  (.ertRteCfgWrite (uReq 3) 8 0xB5000001, (on 8 0x0C00 0).setTh 1 { state := .wait, berth := 3 }),
  (.eventSignal 1400 0, up),
  (.routeDelivery 8, { (on 8 0xA5000001 0x00040000).setTh 1 { state := .wait, berth := 0 } with dom := [] }),
  (.ertRteCfgWrite hReq 8 0xA5000001, on 8 0x80000 0)] : List (Instr × State)),
    (routerRule p.1 p.2).isSome = true := by decide +kernel

theorem test_accessRule_applies : ∀ p ∈ ([
  (.registerWrite hReq 0x1048002001 5, up),
  (.eventRecordWrite hReq 0x1041001004 0x00140000, r0s [(0x1041001004, 0x001C0000)]),
  (.rsqRead hReq 0x1041001004, r0s [(0x1041001004, 0x001C0000)]),
  (.dmcInjWrite hReq 2 0x80000301, up),
  (.registerWrite hReq 0x1048002000 5, { up with dom := [] }),
  (.eventRecordWrite hReq 0x1041001004 0x00240000, r0s [(0x1041001004, 0x001C0000)]),
  (.dmcInjWrite hReq 2 0x80000348, up),
  (.registerWrite hReq 0x1048002000 5, up),
  (.registerWrite hReq 0x1040FFF000 5, up)] : List (Instr × State)),
    (accessRule p.1 p.2).isSome = true := by decide +kernel

theorem test_mailboxRule_applies : ∀ p ∈ ([
  (.mbxReqWrite hReq 0 3 0x1234, up),
  (.go hReq 0, mbxIn up 0 3 [1,2,3] {}),
  (.cack hReq 0, mbxIn up 0 2 [1,2,3] { cpl := some 7 }),
  (.requestTaken 0, q 0x0101 0 [] id {}),
  (.completionPost 3,
    let s := mbxIn up 3 0 [] {}; { s with hm := { s.hm with ended := [{ acc := { mbx := 3, opcode := 0x302, tag := 9, berth := 4, pay := [] }, status := 0x10000001, words := [1,2] }] } }),
  (.mbxReqWrite (uReq 4) 3 3 0x1234, up),
  (.go (uReq 5) 0, mbxIn up 0 3 [1,2,3] {}),
  (.cack hReq 0, mbxIn up 0 2 [1,2,3] { }),
  (.requestTaken 0, q 0x0101 0 [] (fun l => l.set 3 0) {}),
  (.completionPost 3,
    let s := mbxIn up 3 0 [] {}; { s with hm := { s.hm with acc := [{ mbx := 3, opcode := 0x602, tag := 9, berth := 4, pay := [0x100,0x4] }] } }),
  (.mbxReqWrite hReq 0 3 0x1234, mbxIn up 0 1 [1,2,3] {}),
  (.go (uReq 0) 0, mbxIn up 0 2 [1,2,3] {}),
  (.cack (uReq 6) 0, mbxIn up 0 2 [1,2,3] { }),
  (.requestTaken 0, q 0x80101 0 [] id {}),
  (.completionPost 3,
    let s := mbxIn up 3 0 [] {}; { s with hm := { s.hm with acc := [{ mbx := 3, opcode := 0x601, tag := 9, berth := 4, pay := [0x100,0x200, 4,7] }] } }),
  (.requestTaken 0, q 0x30101 0 [] id {}),
  (.requestTaken 0, q 0x0101 0 (List.replicate 60 1) id {}),
  (.requestTaken 0, q 0x0101 0 [5] (fun l => l.set 5 0) {}),
  (.requestTaken 0, q 0x0101 0 [5] (fun _ => message 0x1000101 0 0 [5]) {}),
  (.requestTaken 0, q 0x0101 0 [5] id {lastTag := 7}),
  (.requestTaken 0,
    q 0x0101 0 [] id { lastTag := 7, lastH := (msg 0x101 0 []).getD 3 0, lastP := (msg 0x101 0 []).getD 4 0, lastRsp := [1,2,3] }),
  (.requestTaken 0, q 0x01FF 0 [] id {}),
  (.requestTaken 0, q 0x0101 0 [1,2,3] id {}),
  (.requestTaken 0, q 0x0101 64 [] id {})] : List (Instr × State)),
    (mailboxRule p.1 p.2).isSome = true := by decide +kernel

end Rtr

namespace Harb


theorem test_systemRule_applies : ∀ p ∈ ([
  (.sysInfo 0, S 0x101 0 []),
  (.sysReset 0, S 0x102 0 [3]),
  (.sysEcho 0, S 0x103 0 [5,6,7]),
  (.pwrLevel 0, S 0x201 0 [0x303]),
  (.pwrCeil 0, S 0x202 0 [0x3]),
  (.pwrBudget 0, B 0x203 0 [900] (pw (fun p => { p with limit := 900 }))),
  (.pwrSleep 0, S 0x204 0 [1, 0]),
  (.pwrStatus 0, S 0x205 0 []),
  (.sysReset 0, S 0x102 0 [5]),
  (.pwrLevel 0, B 0x201 0 [0x303] (fun s => { s with order := 0x920 })),
  (.pwrCeil 0, B 0x202 0 [0x3] (pw (fun p => { p with reduced := true }))),
  (.pwrBudget 0, S 0x203 0 [951]),
  (.pwrSleep 0, S 0x204 0 [2, 0x6]),
  (.pwrCeil 0, B 0x202 0 [0x80000003] (pw (fun p => { p with reduced := true, dips := [1,2] }))),
  (.pwrSleep 0, S 0x204 0 [3, 0x6]),
  (.pwrCeil 0, S 0x202 0 [0x13]),
  (.pwrSleep 0, S 0x204 0 [4, 0x6]),
  (.pwrSleep 0, B 0x204 0 [1, 0x6] (ths 5 { state := .run }))] : List (Instr × State)),
    (systemRule p.1 p.2).isSome = true := by decide +kernel

theorem test_berthRule_applies_1 : ∀ p ∈ ([
  (.berthDestroy 0,
    B 0x302 3 [] (fun s => bt 3 { st := .ready, wdEn := true } (ths 7 { state := .run, berth := 3 } (ths 9 { state := .held, berth := 3 } s)))),
  (.berthReset 0,
    B 0x303 3 [1] (fun s => ins 0x103 { on := true, berth := 3 } (bt 3 { st := .ready, wdEn := true } (ths 7 { state := .run, berth := 3 } (ths 9 { state := .held, berth := 3 } s))))),
  (.berthStatus 0,
    B 0x304 3 [] (fun s => bt 3 { st := .ready, strict := true, ceil := 2, maps := [⟨1,2,3,4,false⟩, ⟨1,2,3,4,true⟩] } (ths 7 { state := .locked, berth := 3 } (ths 9 { state := .held, berth := 3 } s)))),
  (.berthWdog 0, B 0x305 3 [1000, 10, 1] (bt 3 { st := .ready, elapsed := 5 })),
  (.clusterRestart 0, B 0x306 0 [3] (fun s => { s with coh := { s.coh with dead := 8 } })),
  (.threadAssign 0, B 0x310 3 [5] (bt 3 { st := .ready, strict := true, ceil := 2, xvbH := 0x5000, xspH := 0x7000 })),
  (.threadStart 0,
    B 0x311 3 [0x10005, 0x2000, 1] (fun s => ths 5 { state := .held, berth := 3 } (bt 3 { st := .ready } { s with pat := { s.pat with loaded := [(0, 2)] } }))),
  (.threadHold 0, B 0x312 3 [5] (fun s => ths 5 { state := .run, berth := 3 } (bt 3 { st := .ready } s))),
  (.threadReset 0, B 0x313 3 [5] (fun s => ths 5 { state := .locked, berth := 3 } (bt 3 { st := .ready } s))),
  (.threadRelease 0,
    B 0x314 3 [5] (fun s => rg [(routeAddr 8, 0xA5000005)] (ths 5 { state := .held, berth := 3 } (bt 3 { st := .ready } s))))] : List (Instr × State)),
    (berthRule p.1 p.2).isSome = true := by decide +kernel

theorem test_berthRule_applies_2 : ∀ p ∈ ([
  (.berthCreate 0, B 0x301 3 [0x13, 0x123, 0x456, 7] pool),
  (.berthDestroy 0, B 0x302 0 [] (bt 0 { st := .ready })),
  (.berthReset 0, B 0x303 3 [2] (bt 3 { st := .ready })),
  (.berthWdog 0, B 0x305 3 [1000, 1000, 1] (bt 3 { st := .ready, elapsed := 5 })),
  (.clusterRestart 0, B 0x306 0 [3] (fun s => { s with coh := { s.coh with dead := 7 } })),
  (.threadAssign 0, B 0x310 3 [5] (fun s => ths 5 { state := .held, berth := 4 } (bt 3 { st := .ready } s))),
  (.threadStart 0,
    B 0x311 3 [0x10005, 0x2000, 1] (fun s => ths 5 { state := .held, berth := 3, ran := true, memo := .wait } (bt 3 { st := .ready } { s with pat := { s.pat with loaded := [(0, 2)] } }))),
  (.threadHold 0, B 0x312 3 [5] (fun s => ths 5 { state := .held, berth := 3 } (bt 3 { st := .ready } s))),
  (.threadReset 0,
    B 0x313 3 [5] (fun s => hm (fun h => { h with outPair := [(0, true)] }) (ths 5 { state := .locked, berth := 3 } (bt 3 { st := .ready } s)))),
  (.threadRelease 0, B 0x314 3 [5] (fun s => ths 5 { state := .run, berth := 3 } (bt 3 { st := .ready } s)))] : List (Instr × State)),
    (berthRule p.1 p.2).isSome = true := by decide +kernel

theorem test_berthRule_applies_3 : ∀ p ∈ ([
  (.berthCreate 0, B 0x301 0 [0x11, 0x123, 0x456, 7] pool),
  (.clusterRestart 0, B 0x306 0 [7] (fun s => { s with order := 0x920 })),
  (.threadStart 0, B 0x311 3 [0x10005, 0x2000, 1] (fun s => ths 5 { state := .held, berth := 3 } (bt 3 { st := .ready } s))),
  (.threadHold 0, B 0x312 3 [5] (fun s => ths 5 { state := .locked, berth := 3 } (bt 3 { st := .ready } s))),
  (.berthCreate 0, B 0x301 3 [0x10, 0x123, 0x456, 7] (hm (fun h => { h with man := { h.man with safety := true } })))] : List (Instr × State)),
    (berthRule p.1 p.2).isSome = true := by decide +kernel

theorem test_resourceRule_applies : ∀ p ∈ ([
  (.instCreate 0, B 0x401 3 [0x1000301, 0x12345, 7, 0x99] (bt 3 { st := .ready })),
  (.instDestroy 0, B 0x402 3 [0x301] (fun s => ins 0x103 { on := true, berth := 3 } (bt 3 { st := .ready } s))),
  (.instReset 0, B 0x403 3 [0x301, 0x50001] (fun s => ins 0x103 { on := true, berth := 3 } (bt 3 { st := .ready } s))),
  (.instQuery 0, B 0x404 3 [0x301] (fun s => ins 0x103 { on := true, berth := 3, ctx := 7, rst := true } (bt 3 { st := .ready } s))),
  (.routeGive 0,
    B 0x501 3 [0x00020100] (fun s => rg [(routeAddr 0x100, 0xA5100005), (routeAddr 0x101 + 4, 0x123c0000)] (bt 3 { st := .ready } s))),
  (.routeReturn 0,
    B 0x502 3 [0x00010100] (fun s => rg [(routeAddr 0x100, 0xA5100C05), (routeAddr 0x101 + 4, 0x123c0000)] (bt 3 { st := .ready } s))),
  (.dbShare 0, B 0x503 3 [0x10405] (fun s => rg [(routeAddr 1285, 0xC00)] (bt 3 { st := .ready } s))),
  (.routeQuery 0, B 0x504 3 [0x105] (fun s => rg [(routeAddr 0x105, 0x100800)] (bt 3 { st := .ready } s))),
  (.memMap 0,
    B 0x601 3 [0x1000, 0x2000, 4, 7] (fun s => hm (fun h => { h with man := { h.man with dramGib := 4 } }) (bt 3 { st := .ready } s))),
  (.memUnmap 0, B 0x602 3 [0x1001, 2] (bt 3 { st := .ready, maps := [⟨0x1000, 0x2000, 8, 7, false⟩] })),
  (.instDestroy 0, B 0x402 3 [0x301] (fun s => ins 0x103 { on := true, berth := 3 } (bt 3 { st := .ready } s))),
  (.instReset 0, B 0x403 3 [0x301, 0x50002] (fun s => ins 0x103 { on := true, berth := 3 } (bt 3 { st := .ready } s))),
  (.instQuery 0, B 0x404 3 [0x306] (fun s => ins 0x103 { on := true, berth := 3, ctx := 7, rst := true } (bt 3 { st := .ready } s))),
  (.routeGive 0,
    B 0x501 3 [0x00020100] (fun s => rg [(routeAddr 0x100, 0xA5100005), (routeAddr 0x101 + 4, 0x123c0000)] (bt 3 { st := .ready } s))),
  (.routeReturn 0,
    B 0x502 3 [0x00010100] (fun s => rg [(routeAddr 0x100, 0xA5100C05), (routeAddr 0x101 + 4, 0x123c0000)] (bt 3 { st := .ready } s))),
  (.dbShare 0, B 0x503 3 [0x10405] (fun s => rg [(routeAddr 1285, 0x800)] (bt 3 { st := .ready } s))),
  (.routeQuery 0, B 0x504 3 [1218] (fun s => rg [(routeAddr (copyEntry 3 2), 0x100800)] (bt 3 { st := .ready } s))),
  (.memMap 0, B 0x601 3 [0x10001000, 0x2000, 4, 7] (bt 3 { st := .ready })),
  (.memUnmap 0, B 0x602 3 [0x1001, 0] (bt 3 { st := .ready, maps := [⟨0x1000, 0x2000, 8, 7, false⟩] })),
  (.instCreate 0, B 0x401 3 [0x020304, 0x12345, 7, 0x99] (bt 3 { st := .ready })),
  (.instReset 0, B 0x403 3 [0x301, 0x50001] (fun s => ins 0x103 { on := true, berth := 3 } (bt 3 { st := .ready } s))),
  (.instQuery 0, B 0x404 3 [0x301] (fun s => ins 0x103 { on := true, berth := 3, ctx := 7, rst := true } (bt 3 { st := .ready } s))),
  (.dbShare 0, B 0x503 3 [0x10405] (fun s => rg [(routeAddr 1285, 0xC00)] (bt 3 { st := .ready } s))),
  (.routeQuery 0, B 0x504 3 [1536] (bt 3 { st := .ready })),
  (.memMap 0, B 0x601 3 [0x1000, 0x2000, 0, 7] (bt 3 { st := .ready })),
  (.memUnmap 0, B 0x602 3 [0x1001, 9] (bt 3 { st := .ready, maps := [⟨0x1000, 0x2000, 8, 7, false⟩] })),
  (.instCreate 0, B 0x401 3 [0x000006, 0x12345, 7, 0x99] (bt 3 { st := .ready })),
  (.instReset 0, B 0x403 3 [0x301, 0x50002] (fun s => ins 0x103 { on := true, berth := 3 } (bt 3 { st := .ready } s))),
  (.instQuery 0, B 0x404 3 [0x306] (fun s => ins 0x103 { on := true, berth := 3, ctx := 7, rst := true } (bt 3 { st := .ready } s))),
  (.dbShare 0, B 0x503 3 [0x10405] (fun s => rg [(routeAddr 1285, 0x800)] (bt 3 { st := .ready } s)))] : List (Instr × State)),
    (resourceRule p.1 p.2).isSome = true := by decide +kernel

theorem test_errorRule_applies : ∀ p ∈ ([
  (.logRead 0, B 0x603 3 [0] (bt 3 { st := .ready })),
  (.cntRead 0, B 0x604 3 [0x103] (bt 3 { st := .ready })),
  (.cntClear 0, S 0x605 0 [0x40]),
  (.agentReclaim 0, S 0x606 0 [3]),
  (.scrubStatus 0, S 0x607 0 [1]),
  (.logRead 0,
    B 0x603 3 [2] (fun s => { bt 3 { st := .ready } s with logSeq := 4, log := [⟨1,2,3,4,none,5,6,7,8⟩, ⟨2,2,3,4,some 9,3,6,7,8⟩, ⟨3,2,3,4,some 9,3,6,7,8⟩] })),
  (.cntRead 0, B 0x604 3 [0x40] (bt 3 { st := .ready })),
  (.cntClear 0, S 0x605 0 [0x7F]),
  (.agentReclaim 0, S 0x606 0 [8]),
  (.scrubStatus 0, S 0x607 0 [4]),
  (.logRead 0,
    B 0x603 3 [9] (fun s => { bt 3 { st := .ready } s with logSeq := 4, log := [⟨1,2,3,4,none,5,6,7,8⟩, ⟨2,2,3,4,some 9,3,6,7,8⟩, ⟨3,2,3,4,some 9,3,6,7,8⟩] })),
  (.cntRead 0, B 0x604 3 [0x7F] (bt 3 { st := .ready })),
  (.cntClear 0, S 0x605 0 [0x40]),
  (.agentReclaim 0, S 0x606 0 [13]),
  (.scrubStatus 0, S 0x607 0 [1]),
  (.logRead 0, B 0x603 3 [0x10009] (bt 3 { st := .ready })),
  (.cntRead 0,
    let s := bt 3 { st := .ready } (sub 0x604 3 [0x40] up); { s with hm := { s.hm with mbx := [(0, { st := 2, go := some (uReq 3) })] } }),
  (.cntClear 0, S 0x605 0 [0x7F]),
  (.agentReclaim 0, S 0x606 0 [3]),
  (.scrubStatus 0, S 0x607 0 [4]),
  (.logRead 0, B 0x603 3 [0] (bt 3 { st := .ready })),
  (.cntRead 0, B 0x604 3 [0x103] (bt 3 { st := .ready })),
  (.agentReclaim 0, S 0x606 0 [8]),
  (.logRead 0,
    B 0x603 3 [2] (fun s => { bt 3 { st := .ready } s with logSeq := 4, log := [⟨1,2,3,4,none,5,6,7,8⟩, ⟨2,2,3,4,some 9,3,6,7,8⟩, ⟨3,2,3,4,some 9,3,6,7,8⟩] })),
  (.cntRead 0, B 0x604 3 [0x40] (bt 3 { st := .ready })),
  (.agentReclaim 0, S 0x606 0 [13]),
  (.logRead 0,
    B 0x603 3 [9] (fun s => { bt 3 { st := .ready } s with logSeq := 4, log := [⟨1,2,3,4,none,5,6,7,8⟩, ⟨2,2,3,4,some 9,3,6,7,8⟩, ⟨3,2,3,4,some 9,3,6,7,8⟩] })),
  (.cntRead 0, B 0x604 3 [0x7F] (bt 3 { st := .ready })),
  (.logRead 0, B 0x603 3 [0x10009] (bt 3 { st := .ready })),
  (.cntRead 0,
    let s := bt 3 { st := .ready } (sub 0x604 3 [0x40] up); { s with hm := { s.hm with mbx := [(0, { st := 2, go := some (uReq 3) })] } })] : List (Instr × State)),
    (errorRule p.1 p.2).isSome = true := by decide +kernel

theorem test_trustRule_applies : ∀ p ∈ ([
  (.secStatus 0, S 0x701 0 []),
  (.keyGive 0, B 0x702 3 [0x205] (bt 3 { st := .ready })),
  (.keyRevoke 0, B 0x703 3 [5] (fun s => let s := bt 3 { st := .ready } s; s.setSlot 5 { s.slot 5 with berth := 3 })),
  (.attest 0, S 0x704 0 [1,2,3,4]),
  (.dbgOpen 68, mbxIn up 68 2 (msg 0x802 0 [3,1,1,1,1,1,1,1,1]) {}),
  (.dbgChallenge 68, mbxIn up 68 2 (msg 0x801 0 []) {}),
  (.dbgClose 68, mbxIn { up with frozen := true } 68 2 (msg 0x803 0 []) {}),
  (.dbgStatus 68, mbxIn { up with frozen := true } 68 2 (msg 0x804 0 []) {}),
  (.secStatus 0, S 0x701 0 []),
  (.keyGive 0, B 0x702 3 [0x240] (bt 3 { st := .ready })),
  (.keyRevoke 0, B 0x703 3 [5] (fun s => let s := bt 3 { st := .ready } s; s.setSlot 5 { s.slot 5 with berth := 4 })),
  (.attest 0, S 0x704 0 [1,2,3,4]),
  (.dbgOpen 68, mbxIn up 68 2 (msg 0x802 0 [1,1,1,1,1,1,1,1,1]) {}),
  (.dbgClose 68, mbxIn { up with frozen := true } 68 2 (msg 0x803 0 []) {}),
  (.dbgStatus 68, mbxIn { up with frozen := true } 68 2 (msg 0x804 0 []) {}),
  (.keyGive 0, B 0x702 3 [0x205] (fun s => let s := bt 3 { st := .ready } s; s.setSlot 5 { s.slot 5 with berth := 4 })),
  (.keyRevoke 0, B 0x703 3 [5] (fun s => let s := bt 3 { st := .ready } s; s.setSlot 5 { s.slot 5 with berth := 3 })),
  (.dbgOpen 68, mbxIn up 68 2 (msg 0x802 0 [2,1,1,1,1,1,1,1,1]) {}),
  (.keyGive 0, B 0x702 3 [0x205] (bt 3 { st := .ready })),
  (.keyRevoke 0, B 0x703 3 [5] (fun s => let s := bt 3 { st := .ready } s; s.setSlot 5 { s.slot 5 with berth := 4 })),
  (.dbgOpen 68, mbxIn { up with dbg := { up.dbg with fails := 4 } } 68 2 (msg 0x802 0 [2,1,1,1,1,1,1,1,1]) {}),
  (.keyGive 0, B 0x702 3 [0x240] (bt 3 { st := .ready })),
  (.dbgOpen 68, mbxIn up 68 2 (msg 0x802 0 [1,0,0,0,0,0,0,0,0]) {}),
  (.keyGive 0, B 0x702 3 [0x205] (fun s => let s := bt 3 { st := .ready } s; s.setSlot 5 { s.slot 5 with berth := 4 })),
  (.dbgOpen 68, mbxIn up 68 2 (msg 0x802 0 [3,1,1,1,1,1,1,1,1]) {}),
  (.dbgOpen 68, mbxIn up 68 2 (msg 0x802 0 [1,1,1,1,1,1,1,1,1]) {}),
  (.dbgOpen 68, mbxIn up 68 2 (msg 0x802 0 [2,1,1,1,1,1,1,1,1]) {}),
  (.dbgOpen 68, mbxIn { up with dbg := { up.dbg with fails := 4 } } 68 2 (msg 0x802 0 [2,1,1,1,1,1,1,1,1]) {})] : List (Instr × State)),
    (trustRule p.1 p.2).isSome = true := by decide +kernel

theorem test_serviceRule_applies : ∀ p ∈ ([
  (.manWrite 0, S 0x901 0 [2, 0x01020304, 0x5060708]),
  (.manCommit 0, B 0x902 0 [4, 1] (hm (fun h => { h with staged := [(0, 5), (2, 7)], stagedAny := true }))),
  (.manStatus 0, S 0x903 0 []),
  (.timeGet 0, B 0xA01 0 [] (fun s => { s with gtb := 0x123456789, gtbFrac := 0x12345678 })),
  (.timeStep 0, S 0xA02 0 [1, 5, 6]),
  (.timeSource 0, S 0xA03 0 [2]),
  (.alarmGive 0, B 0xA04 3 [5] (bt 3 { st := .ready })),
  (.snap 0, B 0xB01 0 [100, 0] (fun s => rg [(0x104B001004, 1)] { s with dramCap := 0x100000 })),
  (.cntGive 0, B 0xB02 3 [5] (fun s => rg [(cntPage 5 + 4, 7)] (bt 3 { st := .ready } s))),
  (.traceBuf 0, B 0xB03 0 [0x10, 4] (hm (fun h => { h with man := { h.man with dramGib := 4 } }))),
  (.traceCtl 0, S 0xB04 0 [0x30, 1]),
  (.manWrite 0, S 0x901 0 [0x10000, 0x01020304, 0x5060708]),
  (.manCommit 0, B 0x902 0 [4, 0] (hm (fun h => { h with staged := [(0, 5), (2, 7)], stagedAny := true }))),
  (.manStatus 0, S 0x903 0 []),
  (.timeGet 0, B 0xA01 0 [] (fun s => { s with gtb := 0x123456789, gtbFrac := 0x12345678 })),
  (.timeStep 0, S 0xA02 0 [0, 5, 6]),
  (.timeSource 0, S 0xA03 0 [3]),
  (.alarmGive 0, B 0xA04 3 [0x105] (fun s => { bt 3 { st := .ready } s with alarms := [(5, 3)] })),
  (.snap 0, S 0xB01 0 [100, 0]),
  (.cntGive 0, B 0xB02 3 [0x105] (bt 3 { st := .ready })),
  (.traceBuf 0, S 0xB03 0 [0x10, 4]),
  (.manWrite 0, S 0x901 0 [0xC000, 0x01020304, 0x5060708]),
  (.manCommit 0, B 0x902 0 [0, 0] (hm (fun h => { h with staged := [(0, 5), (2, 7)], stagedAny := true }))),
  (.timeStep 0, B 0xA02 0 [0, 5, 6] (fun s => { s with eth := { s.eth with source := 1 } })),
  (.timeSource 0, S 0xA03 0 [2]),
  (.alarmGive 0, B 0xA04 3 [0x105] (bt 3 { st := .ready })),
  (.snap 0, B 0xB01 0 [100, 0] (fun s => rg [(0x104B001004, 1)] { s with dramCap := 0x100000 })),
  (.cntGive 0, B 0xB02 3 [40] (bt 3 { st := .ready })),
  (.traceBuf 0, S 0xB03 0 [0x10, 0]),
  (.traceCtl 0, B 0xB04 0 [0x80000000, 1] (fun s => { s with order := 0x920 }))] : List (Instr × State)),
    (serviceRule p.1 p.2).isSome = true := by decide +kernel

end Harb

namespace Upk

def mg (p : Nat) (_ : List W32) : State :=
  hm (fun h => { h with committed := true, man := { h.man with mgmtPorts := p, mgmtVid := 5 } }) up
def slp (x : Sleep) (m : W32) : State := pw (fun p => { p with sleep := x, mask := m }) up

theorem test_resetRule_applies : ∀ p ∈ ([
  (.reclaimComplete, up),
  (.instanceResetComplete 0x103, ins 0x103 { on := true, berth := 3, rst := true, hush := true } up),
  (.instResetTimeout 0x103, ins 0x103 { on := true, berth := 3, rst := true } up),
  (.functionLevelReset 3, ins 0x503 { on := true, berth := 3 } { up with pcie := { up.pcie with bme := 0xFFFF, msix := 0xFFFF } }),
  (.berthResetQuiesced 3, bt 3 { st := .resetting } up),
  (.berthResetComplete 3,
    ths 5 { state := .held, berth := 3, auto := true } (bt 3 { st := .resetting, quiesced := true, auto := true } up)),
  (.reclaimComplete, { up with coh := { up.coh with reclaim := [(3, 1, 2), (4, 1, 2)] } }),
  (.instanceResetComplete 0x503, ins 0x503 { on := true, berth := 3, rst := true, destroy := true } up),
  (.functionLevelReset 3, up)] : List (Instr × State)),
    (resetRule p.1 p.2).isSome = true := by decide +kernel

theorem test_watchdogRule_applies : ∀ p ∈ ([
  (.watchdogServiceWrite (uReq 3) 3 0xA5, bt 3 { st := .ready, wdEn := true } up),
  (.watchdogWarning 3, bt 3 { st := .ready, wdEn := true, wdUb := 100, elapsed := 89000 } up),
  (.watchdogExpiry 3, bt 3 { st := .resetting, wdEn := true, wdUb := 100, elapsed := 100000 } up),
  (.watchdogServiceWrite (uReq 3) 3 0xA5, bt 3 { st := .ready, wdEn := false } up),
  (.watchdogServiceWrite (uReq 3) 3 0x5A, bt 3 { st := .ready, wdEn := true, wdArmed := true, elapsed := 5000, wdLb := 2 } up),
  (.watchdogServiceWrite (uReq 3) 3 0x5A,
    bt 3 { st := .ready, wdEn := true, wdArmed := true, elapsed := 5000, wdLb := 20, wdAct := true } up),
  (.watchdogServiceWrite (uReq 3) 3 0x5B,
    bt 3 { st := .ready, wdEn := true, wdArmed := true, elapsed := 5000, wdLb := 20 } (ths 7 { state := .run, berth := 3 } up)),
  (.watchdogServiceWrite hReq 0 0x5A, bt 0 { st := .ready, wdEn := true } up),
  (.watchdogServiceWrite hReq 0 0x5A, hm (fun h => { h with full := true }) (bt 0 { st := .ready, wdEn := true } up))] : List (Instr × State)),
    (watchdogRule p.1 p.2).isSome = true := by decide +kernel

theorem test_transportRule_applies : ∀ p ∈ ([
  (.sspWriteWords 5 [7], up),
  (.sspReadWords 5 2, up),
  (.sspReadStat, up),
  (.managementFrameRx 3 5 [1,2] [0x00000101, 2, 3, 4, 5], mg 8 []),
  (.managementFrameRx 3 6 [1,2] [0x00000101, 2, 3, 4, 5], mg 8 [])] : List (Instr × State)),
    (transportRule p.1 p.2).isSome = true := by decide +kernel

theorem test_timeRule_applies : ∀ p ∈ ([
  (.nonceLapse, up),
  (.gtbAlarmMatch 5, { up with regs := [(routeAddr 1181, 0x80000000)] }),
  (.gtbPps, up),
  (.slewComplete, { up with eth := { up.eth with slewing := true, slew := 77 } }),
  (.eswTdOffsWrite hReq 5, up),
  (.coalesceTimerExpiry 0x103, { up with regs := [(instPage 0x103 + 0xA0, 0x50000)], eth := { up.eth with unsig := [(0x103, 4)] } }),
  (.eswTdOffsWrite hReq 5, { up with eth := { up.eth with source := 1 } }),
  (.eswTdOffsWrite hReq 0xF0000000, { up with gtb := 0x12345, eth := { up.eth with source := 1 } })] : List (Instr × State)),
    (timeRule p.1 p.2).isSome = true := by decide +kernel

theorem test_domainRule_applies : ∀ p ∈ ([
  (.clusterGate 3, { up with regs := [(0x104A001034, 1)] }),
  (.domainReady 5, { up with dom := [(5, .off)], domReq := [(5, true)] }),
  (.domainIdleGate 13, { up with regs := [(0x104A001020 + 52, 1)] }),
  (.domainIdleOff 13, { up with regs := [(0x104A001020 + 52, 2)] }),
  (.domainPowerLoss 3, up),
  (.pllLock 3,
    pw (fun p => { p with trans := [{ cluster := 3, dest := 2, raise := true }, { cluster := 4, dest := 2, raise := true }] }) up),
  (.pmicVgoodRise, up),
  (.voltageStepTimeout,
    pw (fun p => { p with frame := some (5, false), trans := [{ cluster := 3, dest := 2, raise := true, volt := 2 }] }) up),
  (.domainReady 11, { up with dom := [(11, .gated)], domReq := [(11, true)] }),
  (.domainPowerLoss 1, up),
  (.pmicVgoodRise, pw (fun p => { p with frame := some (5, false), trans := [{ cluster := 3, dest := 2, raise := true, volt := 2 }] }) up),
  (.voltageStepTimeout,
    pw (fun p => { p with frame := some (5, true), trans := [{ cluster := 3, dest := 2, raise := true, volt := 2 }] }) up),
  (.voltageStepTimeout, up)] : List (Instr × State)),
    (domainRule p.1 p.2).isSome = true := by decide +kernel

theorem test_supplyRule_applies : ∀ p ∈ ([
  (.arbiterEpoch, up),
  (.supplyDip true, up),
  (.dipRecovery, pw (fun p => { p with dip := 1 }) { up with time := 77 }),
  (.dipEnd, pw (fun p => { p with dip := 2 }) up),
  (.thermalSample (List.replicate 12 50), up),
  (.thermalStage2Check, pw (fun p => { p with thermal := 3 , tj := 121 }) up),
  (.arbiterEpoch, pw (fun p => { p with dip := 1, grants := [(3, 50)] }) up),
  (.supplyDip false, pw (fun p => { p with dips := List.replicate 8 0 }) up),
  (.thermalSample (List.replicate 12 116), up),
  (.thermalStage2Check, pw (fun p => { p with thermal := 3 , tj := 119 }) up),
  (.arbiterEpoch, pw (fun p => { p with trans := [{ cluster := 3, dest := 2, raise := true, pll := true, volt := 3 }] }) up),
  (.supplyDip false, pw (fun p => { p with dip := 2 }) up),
  (.thermalSample (List.replicate 12 120), pw (fun p => { p with shut := true }) up),
  (.thermalStage2Check, up),
  (.thermalSample (List.replicate 12 111), pw (fun p => { p with thermal := 3 , cool := 7 }) up),
  (.thermalSample (List.replicate 12 11), pw (fun p => { p with thermal := 3 , cool := 7 }) up),
  (.thermalSample (List.replicate 12 11), pw (fun p => { p with thermal := 3 , cool := 999 }) up)] : List (Instr × State)),
    (supplyRule p.1 p.2).isSome = true := by decide +kernel

theorem test_sleepRule_applies : ∀ p ∈ ([
  (.sleepEntryDone, slp (.entering 1) 6),
  (.wakeSourceAssert 3 77, slp (.asleep 2) 0x8),
  (.wakeTimerExpiry, { slp (.asleep 2) 0x2 with regs := [(0x104A003010, 5)] }),
  (.wakePortMatch 0x12 false 0x34, { slp (.asleep 2) 0x4 with regs := [(0x104A003008, 0x92)] }),
  (.wakePortStop, pw (fun p => { p with wkpBusy := true, wkpNew := some 5 }) up),
  (.pcrWkpCfgWrite hReq 0x185, { up with dom := [(0, .on)] }),
  (.sleepExitComplete, pw (fun p => { p with saved := [(3, .off)] }) (slp (.leaving 2) 4)),
  (.t1sWakeSleepRx 3 true, up),
  (.lockupNMinLowExpiry, { up with lockLow := true, lockMin := true }),
  (.sleepEntryDone, slp (.entering 2) 6),
  (.wakeSourceAssert 3 77, slp (.asleep 2) 0x6),
  (.wakePortMatch 0x12 true 0x34, { slp (.asleep 2) 0x4 with regs := [(0x104A003008, 0x92)] }),
  (.pcrWkpCfgWrite hReq 0x185, pw (fun p => { p with wkpBusy := true }) up),
  (.sleepExitComplete, slp (.leaving 3) 4),
  (.t1sWakeSleepRx 3 false, up),
  (.sleepEntryDone, pw (fun p => { p with heldWake := some (3, 7) }) (slp (.entering 2) 6)),
  (.wakeSourceAssert 3 77, slp (.entering 2) 0x8),
  (.wakePortMatch 0x12 false 0x34, { up with regs := [(0x104A003008, 0x92)] }),
  (.sleepExitComplete, up),
  (.sleepEntryDone, up),
  (.wakeSourceAssert 3 77, pw (fun p => { p with heldWake := some (2, 7) }) (slp (.entering 2) 0x8)),
  (.wakePortMatch 0x12 true 0x34, { up with regs := [(0x104A003008, 0x92)] }),
  (.wakeSourceAssert 13 77, slp (.entering 2) 0x8),
  (.wakePortMatch 0x13 false 0x34, { up with regs := [(0x104A003008, 0x92)] })] : List (Instr × State)),
    (sleepRule p.1 p.2).isSome = true := by decide +kernel

theorem test_deviceResetRule_applies : ∀ p ∈ ([
  (.harbourmasterMismatch, up),
  (.por 1 3, up),
  (.bor true, up),
  (.railMonitorTrip 3, up),
  (.pinReset, up),
  (.pwrGoodRise, up),
  (.resetRelease, { up with regs := [(0x104A004000, 0x20000000)] }),
  (.por 2 3, up)] : List (Instr × State)),
    (deviceResetRule p.1 p.2).isSome = true := by decide +kernel

theorem test_startupRule_applies : ∀ p ∈ ([
  (.earlySegmentAccept, up),
  (.islandStart, up),
  (.manifestCommit, up),
  (.dramTrainingDone true, hm (fun h => { h with committed := true }) up),
  (.clusterBringUpDone 3, hm (fun h => { h with committed := true }) up),
  (.dramZeroingDone 3, hm (fun h => { h with trained := true }) { up with prot := 0x1, mem := [(0x1000, 5), (0x10c0,7)] }),
  (.fullServiceDeclare,
    hm (fun h => { h with committed := true, trained := true }) { up with dram := { up.dram with zeroed := 0xFF }, pat := { up.pat with loaded := (List.range 32).map (fun c => (c, 2)) } }),
  (.earlySegmentAccept, hm (fun h => { h with boot := 1, image := some [] }) up),
  (.dramTrainingDone false, hm (fun h => { h with committed := true }) up),
  (.dramTrainingDone false, up)] : List (Instr × State)),
    (startupRule p.1 p.2).isSome = true := by decide +kernel

end Upk

namespace Svc

def lv (n : Nat) (s : State) : State := { s with dbgLevel := n }
def dq : Req := { cls := .debug }
def qs (r : Nat) (q : SvcQ) (f : State → State) : State := f (up.setSvcQ r q)
def dae (d : Dae) : State := { up with dbg := { up.dbg with dae := d } , dramCap := 0x100000, mem := [(0x2000, 5), (0x2001, 6)] }
def enc (c : Nat) (e : Enc) (s : State) : State := { s with trc := { s.trc with encs := [(c, e)] } }
def tdram : State :=
  { up with order := 0x940, dramCap := 0x1000000, regs := [(sinkPage, 5), (sinkPage + 4, 0x10000), (sinkPage + 0xC, 1), (sinkPage + 0x10, 0xFC0)], trc := { up.trc with units := [List.replicate 16 7, List.replicate 16 8] } }

theorem test_goRule_applies : ∀ p ∈ ([
  (.aesGcmEncrypt hReq 3,
    { up with regs := [(svcPage 3, 0x30001 + 5 * 0x40000), (svcPage 3 + 0x400, 0x01020304), (svcPage 3 + 0x404, 5)] }),
  (.sha256 hReq 3, { up with regs := [(svcPage 3, 0x30010)] }),
  (.sha256 hReq 3, qs 3 { st := 1 } (fun s => { s with regs := [(svcPage 3, 0x30010)] }))] : List (Instr × State)),
    (goRule p.1 p.2).isSome = true := by decide +kernel

theorem test_securityRule_applies : ∀ p ∈ ([
  (.serviceSegmentDone 3, qs 3 { st := 0 } id),
  (.shiQCancel hReq 3, qs 3 { st := 1 } id),
  (.securityAlarm 2, qs 3 { st := 1 } id),
  (.shiLcReqWrite hReq 2, up),
  (.shiOtpCmdWrite hReq 1, up),
  (.serviceSegmentDone 3, qs 3 { st := 1, op := 0x30005 } id),
  (.shiQCancel hReq 3, qs 3 { st := 2 } id),
  (.securityAlarm 1, { up with sec := { up.sec with alarm := true } }),
  (.shiLcReqWrite dq 1, lv 2 up),
  (.shiOtpCmdWrite hReq 0, up),
  (.serviceSegmentDone 3, qs 3 { st := 1, op := 0x10 } id),
  (.shiOtpCmdWrite dq 1, lv 2 { up with regs := [(0x104D001014, 0x100), (0x104D001018, 7)] }),
  (.serviceSegmentDone 3, qs 3 { st := 1, op := 0x30001 } id),
  (.serviceSegmentDone 3, qs 3 { st := 1, op := 0x10010, seg := [1,2,3] } id),
  (.serviceSegmentDone 3, qs 3 { st := 1, op := 0x10003 , seg := [1] } (fun s => s.setSlot 0 { kind := 1, queue := some 3 })),
  (.serviceSegmentDone 3, qs 3 { st := 1, op := 0x30010 } (fun s => { s with sec := { s.sec with alarm := true } }))] : List (Instr × State)),
    (securityRule p.1 p.2).isSome = true := by decide +kernel

theorem test_engineRequestRule_applies : ∀ p ∈ ([
  (.debugRequest true 1 0 true 0 true, up),
  (.sdpLineReset, up),
  (.daeDataRead, dae { addr := 0x2000 }),
  (.daeDataWrite 7, lv 2 (dae { addr := 0x2000 })),
  (.daeAccessDone, up),
  (.clrerr, lv 2 (dae { addr := 0x30002000, err := true })),
  (.freeze, up),
  (.release, up),
  (.step 3, lv 1 { up with frozen := true, frzReq := true }),
  (.dbgResetRequest, lv 1 up),
  (.dbgResetFreezeRequest, lv 1 up),
  (.debugRequest true 1 0 true 0 false, up),
  (.daeDataRead, dae { addr := 0x2000, busy := some none }),
  (.daeDataWrite 7, lv 2 (dae { addr := 0x2000, wrFail := true })),
  (.daeAccessDone, lv 2 (dae { addr := 0x2000, inc := true, busy := some none })),
  (.freeze, lv 1 up),
  (.release, lv 1 { up with frozen := true, frzReq := true }),
  (.debugRequest true 1 2 false 0x12345 true, dae { addr := 0x100000000, seq := some 0 }),
  (.daeDataRead, dae { addr := 0x2000, result := some (some 7) }),
  (.daeAccessDone, lv 2 (dae { addr := 0x2000, inc := true, busy := some (some 0x12345678) })),
  (.freeze, lv 1 (up.setTh 3 { state := .run })),
  (.debugRequest true 1 3 false 0x12345 true, dae { addr := 0x100000000 }),
  (.daeDataRead, lv 2 (dae { addr := 0x2000 })),
  (.daeAccessDone, lv 2 (dae { addr := 0x30002000, inc := true, busy := some (some 0x12345678) })),
  (.debugRequest true 1 3 false 0x12345 true, dae { addr := 0x100000000, seq := some 1 }),
  (.daeAccessDone, lv 2 (dae { addr := 0x30002000, inc := true, busy := some none })),
  (.debugRequest true 1 4 true 0 true, dae { addr := 0x2000 }),
  (.debugRequest true 1 5 true 0 true, dae { addr := 0x2000, err := true }),
  (.debugRequest false 1 0 true 0 true, up),
  (.debugRequest false 1 1 true 0 true, { up with dbg := { up.dbg with ir := 0x10 } })] : List (Instr × State)),
    (engineRequestRule p.1 p.2).isSome = true := by decide +kernel

theorem test_debugRule_applies : ∀ p ∈ ([
  (.stepTimeout, { up with dbg := { up.dbg with step := some 3 } }),
  (.freezeAck, { up with frzReq := true }),
  (.dbtCtxHiWrite dq 0x5,
    lv 2 { up with frozen := true, thr := [(3, { state := .wait })], regs := [(0x104C003000, 3 + 5 * 2 ^ 16), (0x104C003004, 0x12345678)] }),
  (.idcode, up),
  (.samplePreload, { up with dbg := { up.dbg with ir := 3, scan := true } }),
  (.extest, up),
  (.clamp, lv 2 up),
  (.highz, lv 2 { up with frozen := true }),
  (.dbgacc, up),
  (.bypass, up),
  (.tapReset, up),
  (.scanExitReset, { up with dbg := { up.dbg with scanExit := true } }),
  (.dbtCtxHiWrite dq 0x5,
    lv 2 { up with frozen := true, thr := [(3, { state := .wait })], regs := [(0x104C003000, 3 + 0x20 * 2 ^ 16), (0x104C003004, 0x12345678)] }),
  (.scanExitReset, up),
  (.dbtCtxHiWrite dq 0x5,
    lv 2 { up with frozen := true, thr := [(3, { state := .wait })], regs := [(0x104C003000, 3 + 0x21 * 2 ^ 16), (0x104C003004, 0x12345678)] }),
  (.dbtCtxHiWrite dq 0x5,
    lv 2 { up with frozen := true, thr := [(3, { state := .wait })], regs := [(0x104C003000, 3 + 0x110 * 2 ^ 16), (0x104C003004, 0x12345678)] }),
  (.dbtCtxHiWrite dq 0x5, up)] : List (Instr × State)),
    (debugRule p.1 p.2).isSome = true := by decide +kernel

theorem test_traceRule_applies : ∀ p ∈ ([
  (.tsInterval 0, enc 0 { armed := true } { up with regs := [(sinkPage, 2)] }),
  (.traceOverflowRecover 0, enc 0 { armed := true, lost := 5 } { up with regs := [(sinkPage, 2)] }),
  (.traceUnitTimeout 0, enc 0 { armed := true, buf := [1,2,3] } { up with regs := [(sinkPage, 2)] }),
  (.traceSinkLineWrite, up),
  (.align, { up with regs := [(sinkPage + 0x20, 0x80000001)] }),
  (.flowAtomTimeout 3, up),
  (.tsInterval 0, up),
  (.traceSinkLineWrite, tdram),
  (.align, up),
  (.flowAtomTimeout 3, enc 0 { armed := true, atoms := [(3, [true, false])] } { up with regs := [(sinkPage, 2)] }),
  (.traceSinkLineWrite, { tdram with regs := [(sinkPage, 1), (sinkPage + 4, 0x10000), (sinkPage + 0xC, 1), (sinkPage + 0x10, 0xFC0)] }),
  (.traceSinkLineWrite, { tdram with regs := [(sinkPage, 1), (sinkPage + 4, 0x10000), (sinkPage + 0xC, 1), (sinkPage + 0x10, 0xC0)] })] : List (Instr × State)),
    (traceRule p.1 p.2).isSome = true := by decide +kernel

theorem test_counterRule_applies : ∀ p ∈ ([
  (.cntClr hReq 5, { up with perf := { up.perf with val := [(80, 7), (100, 8)] } }),
  (.cntLoRead hReq 5 2, { up with perf := { up.perf with val := [(82, 0x123456789ab), (100, 8)] } }),
  (.counterWrap 5 2, { up with perf := { up.perf with val := [(82, 0xFFFFFFFFFFFF), (100, 8)] } }),
  (.snapshotCapture, { up with perf := { up.perf with armed := true, val := [(82, 0xFFFFFFFFFFFF), (100, 8)] } }),
  (.snapshotTableDone, up),
  (.smpAck hReq 3 5, { up with perf := { up.perf with smp := [(3, { put := 7, held := 7 })] } }),
  (.smpCfgWrite hReq 3 0x80000010, up),
  (.histClr hReq 3, { up with regs := [(histPage 3 + 0x84, 5)] }),
  (.cntClr (uReq 5) 5, { up with perf := { up.perf with val := [(80, 7), (100, 8)] } }),
  (.smpAck hReq 3 9, { up with perf := { up.perf with smp := [(3, { put := 7, held := 7 })] } }),
  (.smpCfgWrite hReq 3 0x10, up)] : List (Instr × State)),
    (counterRule p.1 p.2).isSome = true := by decide +kernel

end Svc

namespace Net

def frame (n : Nat) : List Byte := List.replicate 12 1 ++ [8, 0] ++ List.replicate n 7
def iq (f : State → State) : State := f (ins 0x303 { on := true, berth := 3 } up)
def ep : State :=
  hm (fun h => { h with committed := true, man := { h.man with pcie := true, pcieRole0 := 2, pcieBar0 := 16, host := [(3, 1)] } }) { up with pcie := { up.pcie with link := [(0, (3, 4))] } }
def rp : State :=
  hm (fun h => { h with committed := true, man := { h.man with pcie := true, pcieRole0 := 1, pcieBar0 := 16 } }) { up with pcie := { up.pcie with link := [(0, (3, 4))] } }

theorem test_tableRule_applies : ∀ p ∈ ([
  (.tblRead hReq false 2 0x12, up),
  (.tblWrite hReq true 2 0x12, rgs [(tblPage true + 4, 0x80000000)]),
  (.tableAccessDone false, up),
  (.fdbAgeing, up),
  (.frerResetTimer 3, { up with eth := { up.eth with frer := [(3, (4, 5)), (4, (5, 6))] } }),
  (.tblRead (uReq 3) false 2 0x12, up),
  (.tblWrite hReq true 2 0x12, { up with dom := [] }),
  (.tableAccessDone false, rgs [(tblPage false + 4, 0xC1000005), (tblPage false + 8, 7), (tblPage false + 0x24, 9)]),
  (.tableAccessDone true, rgs [(tblPage true + 4, 0xC0000005), (tblPage true + 8, 7), (tblPage true + 0x20, 9)]),
  (.tableAccessDone true, rgs [(tblPage true + 4, 0x80000005)]),
  (.tableAccessDone false, rgs [(tblPage false + 4, 0x8100FFFF)])] : List (Instr × State)),
    (tableRule p.1 p.2).isSome = true := by decide +kernel

theorem test_portRule_applies : ∀ p ∈ ([
  (.ethernetFrameRx 3 (frame 60) true, up),
  (.ethernetFrameTxDone 3, rgs [(portPage 3, 0x80000000)]),
  (.gateControlAdvance 3, up),
  (.linkChange 3 (some 2), up),
  (.preemptionVerifyDone 3 true, rgs [(portPage 3, 0x82000000)]),
  (.ethernetFrameRx 3 (frame 60) false, rgs [(portPage 3, 0x80000000)]),
  (.gateControlAdvance 3, { up with gtb := 1000, eth := { up.eth with sched := [(3, { len := 4, pos := 3 })] } }),
  (.linkChange 3 none, { up with eth := { up.eth with links := [(3, 2)], pver := [(3, true)] } }),
  (.preemptionVerifyDone 3 false, rgs [(portPage 3, 0x82000000)]),
  (.ethernetFrameRx 3 (frame 60) true, rgs [(portPage 3, 0x81800000)]),
  (.preemptionVerifyDone 3 false, up),
  (.ethernetFrameRx 3 (frame 40) true, rgs [(portPage 3, 0x80000000)])] : List (Instr × State)),
    (portRule p.1 p.2).isSome = true := by decide +kernel

theorem test_queueRule_applies : ∀ p ∈ ([
  (.hqTxTailWrite hReq 3 0x1234, iq id),
  (.hqRxTailWrite (uReq 3) 3 0x1234, iq id),
  (.txDescriptorDone 3, iq id),
  (.rxDescriptorDone 3, up),
  (.hqRxTailWrite (uReq 4) 3 0x1234, iq id),
  (.txDescriptorDone 3, iq (rg [(instPage 0x303 + 0x28, 0x80000000), (instPage 0x303 + 0x2C, 2)])),
  (.rxDescriptorDone 3,
    iq (fun s => { rg [(instPage 0x303 + 0x3C, 0x80000000), (instPage 0x303 + 0x40, 2)] s with eth := { s.eth with hostRx := [(3, [{ port := 1, vid := 2, tc := 0, data := frame 60, time := 5 }])] } })),
  (.hqRxTailWrite hReq 3 0x1234, up),
  (.txDescriptorDone 3, iq (fun s => { rg [(instPage 0x303 + 0x28, 0x80000000), (instPage 0x303 + 0x2C, 2)] s with dom := [(14, .on)] })),
  (.rxDescriptorDone 3,
    iq (fun s => { rg [(instPage 0x303 + 0x3C, 0x80020000), (instPage 0x303 + 0x40, 2)] s with eth := { s.eth with hostRx := [(3, [{ port := 1, vid := 2, tc := 0, data := frame 60, time := 5 }])] } }))] : List (Instr × State)),
    (queueRule p.1 p.2).isSome = true := by decide +kernel

theorem test_pcieRule_applies : ∀ p ∈ ([
  (.pcieInboundRequest (.bar0 3 0 4 none false), up),
  (.pcieCompletionTimeout 3, up.setTh 3 { mem := .device { op := .load .w 3, va := 5 } 0x2000000000 none true }),
  (.pcieLinkDown 0, ep),
  (.pcieLinkUp 0 3 4, ep),
  (.pceFnMsiWrite hReq 3 5, ins 0x503 { on := true, berth := 3 } ep),
  (.msiPendingSend 3 5, { ep with pcie := { ep.pcie with bme := 0xFF, msix := 0xFF, vmask := [(3, 0)], pba := [(3, 0x20)] } }),
  (.pcieInboundRequest (.bar0 3 0 4 none true), ep),
  (.pcieCompletionTimeout 3, up),
  (.pcieLinkDown 1, ep),
  (.pcieLinkUp 0 0 4, ep),
  (.pceFnMsiWrite hReq 3 5,
    ins 0x503 { on := true, berth := 3 } { ep with pcie := { ep.pcie with bme := 0xFF, msix := 0xFF, vmask := [(3, 0)] } }),
  (.msiPendingSend 3 5, ep),
  (.pcieInboundRequest (.bar0 3 0 4 (some [1,2,3,4]) true), ep),
  (.pcieLinkUp 0 3 4, { ep with pcie := { up.pcie with link := [] } }),
  (.pceFnMsiWrite (uReq 4) 3 5, ins 0x503 { on := true, berth := 3 } ep),
  (.pcieInboundRequest (.bar0 3 0x10000 4 (some [1,2,3,4]) false), ep),
  (.pcieInboundRequest (.bar0 3 0x1000 4 none false), ep),
  (.pcieInboundRequest (.bar2 0x404 4 (some [7, 0, 0, 0])), ep),
  (.pcieInboundRequest (.bar2 0x404 4 none), ep),
  (.pcieInboundRequest (.bar4 3 0x14 (some 7)), ep),
  (.pcieInboundRequest (.bar4 3 0x10 (some 7)), ep),
  (.pcieInboundRequest (.bar4 3 0x18 (some 7)), ep),
  (.pcieInboundRequest (.bar4 3 0x1C (some 0)), ep),
  (.pcieInboundRequest (.bar4 3 0x18 none), ep),
  (.pcieInboundRequest (.root 0x1000 4 none true), rp),
  (.pcieInboundRequest (.root 0x1000 0 none false), rp),
  (.pcieInboundRequest (.config 3 true true false false), ep)] : List (Instr × State)),
    (pcieRule p.1 p.2).isSome = true := by decide +kernel

end Net

namespace Veh

def rgv (l : List (Nat × W32)) : State := { up with regs := l, hm := { up.hm with island := true } }
def el (id : Nat) (n fmt : Nat) : List Byte := leBytes 4 id ++ leBytes 4 (n * 16 + fmt) ++ List.replicate 8 0 ++ List.replicate n 0xA5
def can (c : Can) (l : List (Nat × W32)) : State :=
  { (rgv ([(canPage 3, 0xB2000000), (canPage 3 + 0x18, 16)] ++ l)) with can := [(3, c)] }
def flt (w2 : W32) : List (Nat × W32) :=
  [(canPage 3 + 0x800, 0x80000000 ||| 0x123), (canPage 3 + 0x804, 0x7FF), (canPage 3 + 0x808, w2)]
def csh (x : Share) (s : State) : State := { ins 0x402 { on := true, berth := 3 } s with csh := [(2, x)] }
def bus (u : Nat) (x : BusCtl) (l : List (Nat × W32)) : State := { (rgv ((busPage u, 0xC0000000) :: l)) with bus := [(u, x)] }
def gwi (x : List (Nat × List Byte × Nat)) (f : Gw → Gw) (l : List (Nat × W32)) : State :=
  { can { st := 0 } l with gw := f { up.gw with inq := x, handover := some 0 } }
def rte (w0 w1 w2 : Nat) : BitVec 256 := BitVec.ofNat 256 (w0 + w1 * 2^32 + w2 * 2 ^ 64)

theorem test_canReceiveRule_applies : ∀ p ∈ ([
  (.canFrameRx 3 (el 0x123 8 0), can { st := 3 } []),
  (.canRxfAck hReq 3 2, can { st := 0 , rxf := { get := 1, put := 3, held := [(1, 1), (2,1)] }} []),
  (.canRxfCfgWrite hReq 3 5, can { st := 0 } []),
  (.cshRxfAck hReq 2 2, csh { can := 3, rxf := { get := 1, put := 3, held := [(1, 1), (2,1)] } } up),
  (.canWake 3, up),
  (.canFrameRx 3 (el 0x123 8 0), can { st := 0 } []),
  (.canRxfAck hReq 3 3, can { st := 0 , rxf := { get := 1, put := 3, held := [(1, 1), (2,1)] }} []),
  (.canRxfCfgWrite hReq 3 0, can { st := 0 } []),
  (.cshRxfAck (uReq 5) 2 2, csh { can := 3, rxf := { get := 1, put := 3, held := [(1, 1), (2,1)] } } up),
  (.canWake 23, { up with order := 0x920 }),
  (.canFrameRx 3 (el 0x123 100 2), can { st := 0 , rxf := { get := 1, put := 3, held := [(1, 1), (2,1)] }} []),
  (.canRxfAck hReq 3 5, can { st := 0 , rxf := { get := 1, put := 3, held := [(1, 1), (2,1)] }} []),
  (.canRxfCfgWrite hReq 3 5, can { st := 0, pend := 4 } []),
  (.canFrameRx 3 (el 0x123 8 0),
    { (can { st := 0 , rxf := { get := 1, put := 3, held := [(1, 1), (2,1)] }} []) with regs := [(canPage 3, 0xB2000000), (canPage 3 + 0x18, 3)] }),
  (.canRxfAck hReq 3 1, can { st := 0 , rxf := { get := 1, put := 3, held := [(1, 1), (2,1)] }} []),
  (.canFrameRx 3 (el 0x123 8 0),
    { (can { st := 0 , rxf := { get := 0, put := 0, held := [(0, 1), (1,1), (2,1)] }} []) with regs := [(canPage 3, 0xB2000000), (canPage 3 + 0x18, 3)] }),
  (.canRxfAck hReq 3 5, can { st := 0 } []),
  (.canFrameRx 3 (el 0x123 8 0), { (can { st := 0 } []) with regs := [(canPage 3, 0xB0000000)] }),
  (.canFrameRx 3 (el 0x123 8 0), can { st := 0 } (flt 0x80000000)),
  (.canFrameRx 3 (el 0x123 8 0), can { st := 0 } (flt 0)),
  (.canFrameRx 3 (el 0x123 8 0), can { st := 0 } (flt 0x40000000)),
  (.canFrameRx 3 (el 0x123 8 0), can { st := 0 } (flt 0x40000022)),
  (.canFrameRx 3 (el 0x123 8 0), csh { can := 3, blk := 1 } (can { st := 0 } (flt 0x40000022))),
  (.canFrameRx 3 (el 0x123 8 0),
    csh { can := 3, blk := 1 } (can { st := 0 } (flt 0x40000022 ++ [(instPage 0x402 + 0x20, 0x80000000), (instPage 0x402 + 0x24, 4)]))),
  (.canFrameRx 3 (el 0x123 8 0),
    csh { can := 3, blk := 1 } (can { st := 0 } (flt 0x40000022 ++ [(instPage 0x402 + 0x20, 0x80000000), (instPage 0x402 + 0x24, 0)])))] : List (Instr × State)),
    (canReceiveRule p.1 p.2).isSome = true := by decide +kernel

theorem test_canSendRule_applies : ∀ p ∈ ([
  (.canTxEnd 3 0, { (can { st := 0, pend := 2, sof := some (.own 1, false) } []) with hm := up.hm }),
  (.canTxReq hReq 3 0x5, can { st := 0, done := 4, cxl := 1 } []),
  (.canTxCancel hReq 3 0x7, can { st := 0, pend := 6, sof := some (.own 1, false) } []),
  (.cshTxReq hReq 2 2, csh { can := 3, done := 2 } up),
  (.cshTxCancel hReq 2 7, csh { can := 3, blk := 1, pend := 6 } (can { st := 0, sof := some (.share 1 2, false) } [])),
  (.canTimingWrite hReq 3 0 0, can { st := 0 } []),
  (.canBusError 3 true 130 5, can { st := 0 } []),
  (.canBusoffRecovery 3, can { st := 2, tec := 256 } []),
  (.canBusIntegrated 3, can { st := 3 } []),
  (.canTxEnd 3 1, { (can { st := 0, pend := 2, sof := some (.own 1, true) } []) with hm := up.hm }),
  (.canTimingWrite hReq 3 0 0xB2000000, can { st := 0 } []),
  (.canBusError 3 false 256 5, can { st := 1, tec := 200, sof := some (.own 1, true) } []),
  (.canBusoffRecovery 3, can { st := 2, tec := 256 } [(canPage 3, 5)]),
  (.canBusIntegrated 3, can { st := 2 } []),
  (.canTxEnd 3 3, can { st := 0, pend := 6 } [(canPage 3 + 0x104, 9), (canRam 3 9, 0x123), (canRam 3 9 + 4, 0x80)]),
  (.canTimingWrite hReq 3 0 0xB2000000, up),
  (.canBusError 3 false 100 97, can { st := 0, tec := 50 } []),
  (.canTxEnd 3 3, can { st := 0 } []),
  (.canTimingWrite hReq 3 0 0x30000000, up),
  (.canTxEnd 3 0, can { st := 0, pend := 6, sof := some (.own 1, false) } [(canPage 3, 0xB0000000)]),
  (.canTimingWrite hReq 3 1 0x12345, can { st := 0 } []),
  (.canTxEnd 3 1, can { st := 0, pend := 6, sof := some (.own 1, true) } []),
  (.canTimingWrite hReq 3 1 0x00124F01, up),
  (.canTxEnd 3 1, can { st := 0, pend := 6, sof := some (.own 1, false) } []),
  (.canTimingWrite hReq 3 1 0x0F3F0F01, up),
  (.canTxEnd 3 1, can { st := 0, gw := [el 1 2 0], sof := some (.gw 0, false) } []),
  (.canTimingWrite hReq 3 2 0x00124F01, up),
  (.canTxEnd 3 0, can { st := 0, gw := [el 1 2 0], sof := some (.gw 0, false) } []),
  (.canTimingWrite hReq 3 3 0x00124F01, up),
  (.canTxEnd 3 0, can { st := 0 } [])] : List (Instr × State)),
    (canSendRule p.1 p.2).isSome = true := by decide +kernel

theorem test_busRule_applies : ∀ p ∈ ([
  (.busFrameRx 20 [1,2,3] 0xF, bus 20 {} []),
  (.busTransferDone 20 0x3, bus 20 { tx := [1,2,3], busy := true } []),
  (.busTxdWrite hReq 20 7, bus 20 { tx := [1,2,3], busy := true } []),
  (.busRxdRead hReq 20, bus 20 { rx := [1,2,3], busy := true } []),
  (.linScheduleSlot 3 5, bus 3 { tx := [1,2,3,4,5,6,7] } [(busPage 3 + 0x40 + 20, 0x1005)]),
  (.xspCmd hReq 1 0x81020000, bus 53 { tx := [1,2] } []),
  (.busFrameRx 20 [1,2,3] 0xF, bus 20 { rx := List.replicate 62 5 } []),
  (.busTransferDone 52 0x3, bus 52 { tx := [1,2,3], busy := true } [(busPage 52 + 0x40, 0x81020000)]),
  (.busTxdWrite hReq 20 7, bus 20 { tx := List.replicate 64 2, busy := true } []),
  (.busRxdRead hReq 20, bus 20 { } []),
  (.linScheduleSlot 3 5, bus 3 { gw := [(5, [1,2])] } [(busPage 3 + 0x40 + 20, 0x5)]),
  (.xspCmd hReq 1 0x01020000, bus 53 { tx := [1,2] } []),
  (.busFrameRx 20 [1,2,3] 0xF, up),
  (.busTransferDone 3 0, bus 3 { tx := [1,2,3], busy := true } []),
  (.busTxdWrite (uReq 3) 20 7, bus 20 { tx := List.replicate 64 2, busy := true } []),
  (.busRxdRead { hReq with peek := true } 20, bus 20 { rx := [1,2,3], busy := true } []),
  (.linScheduleSlot 3 5, bus 3 { busy := true } [(busPage 3 + 0x40 + 20, 0x5)])] : List (Instr × State)),
    (busRule p.1 p.2).isSome = true := by decide +kernel

theorem test_timerRule_applies : ∀ p ∈ ([
  (.gpioSet hReq 2 5, rgv [(gpioPage 2 + 4, 0x30)]),
  (.gpioClr hReq 2 5, rgv [(gpioPage 2 + 4, 0x35)]),
  (.gpioEdge 7 true, rgv [(0x1049007000 + 56, 3), (tmrReg 4 0, 0xA0071800)]),
  (.tmrCmpHiWrite hReq 4 1, rgv [(tmrReg 4 0, 0x80000000), (tmrReg 4 4, 5)]),
  (.timerMatch 4,
    { rgv [(tmrReg 4 0, 0x8007C000), (tmrReg 4 4, 5)] with gtb := 77, tgp := { up.tgp with cmp := [(4, 70)], wait := [(4, true)] } }),
  (.gpioEdge 7 false,
    { rgv [(0x1049007000 + 56, 3), (tmrReg 4 0, 0xA0071800)] with tgp := { up.tgp with inp := [(7, true)] } , gtb := 0x123456789A }),
  (.tmrCmpHiWrite hReq 4 0, { rgv [(tmrReg 4 0, 0x80000000), (tmrReg 4 4, 5)] with gtb := 77 }),
  (.timerMatch 4,
    { rgv [(tmrReg 4 0, 0x9007A000), (tmrReg 4 0xC, 5000)] with gtb := 77, tgp := { up.tgp with cmp := [(4, 70)], wait := [(4, true)] } }),
  (.gpioEdge 7 false, up),
  (.tmrCmpHiWrite hReq 4 0, { rgv [(tmrReg 4 0, 0x90000000), (tmrReg 4 4, 5)] with gtb := 77 }),
  (.timerMatch 4,
    { rgv [(tmrReg 4 0, 0xB007A000), (tmrReg 4 0xC, 5000)] with gtb := 77, tgp := { up.tgp with cmp := [(4, 70)], wait := [(4, true)] } }),
  (.timerMatch 4, up)] : List (Instr × State)),
    (timerRule p.1 p.2).isSome = true := by decide +kernel

theorem test_dmaRule_applies : ∀ p ∈ ([
  (.dmaChTailWrite hReq 3 2 0x1234, ins 0x103 { on := true, berth := 3 } up),
  (.dmaDescriptorDone 3 2, ins 0x103 { on := true, berth := 3 } up),
  (.dmaChTailWrite (uReq 4) 3 2 0x1234, ins 0x103 { on := true, berth := 3 } up),
  (.dmaDescriptorDone 3 2,
    ins 0x103 { on := true, berth := 3 } { rgv [((dmaRing 0x103 2).reg 2, 0x80000004), ((dmaRing 0x103 2).reg 3, 2)] with dom := [(17, .on), (20, .on)] }),
  (.dmaDescriptorDone 3 2,
    ins 0x103 { on := true, berth := 3 } (rgv [((dmaRing 0x103 2).reg 2, 0x80000004), ((dmaRing 0x103 2).reg 3, 2)])),
  (.dmaDescriptorDone 3 2,
    ins 0x103 { on := true, berth := 3 } { rgv [((dmaRing 0x103 2).reg 2, 0x80000004), ((dmaRing 0x103 2).reg 3, 2)] with ioctx := [(255, { berth := 3 })], dramCap := 0x100000 }),
  (.dmaDescriptorDone 3 2,
    ins 0x103 { on := true, berth := 3 } { rgv [((dmaRing 0x103 2).reg 2, 0x80000004), ((dmaRing 0x103 2).reg 3, 2)] with ioctx := [(255, { berth := 3 })], dramCap := 0x100000, mem := [(0, 0xAB), (9, 0x20), (16, 5), (20, 1)] }),
  (.dmaDescriptorDone 3 2,
    ins 0x103 { on := true, berth := 3 } { rgv [((dmaRing 0x103 2).reg 2, 0x80000004), ((dmaRing 0x103 2).reg 3, 2)] with ioctx := [(255, { berth := 3 })], dramCap := 0x100000, mem := [(0, 0xAB), (9, 0x20), (16, 5), (20, 3)] })] : List (Instr × State)),
    (dmaRule p.1 p.2).isSome = true := by decide +kernel

theorem test_gatewayRule_applies : ∀ p ∈ ([
  (.gatewayFrameIn, up),
  (.islandRouteForward, up),
  (.pduBufferPeriod 4, up),
  (.acfWindowExpiry 3, up),
  (.acfAvtpduRx 3, up),
  (.gwqTxTailWrite hReq 3 0x1002, ins 0x203 { on := true, berth := 3 } up),
  (.gatewayFrameIn, { up with dom := [] }),
  (.islandRouteForward,
    hm (fun h => { h with island := true, man := { h.man with iroute := [] } }) (gwi [(5, el 0x123 2 0, 7), (5, el 0x123 2 0, 8)] (fun g => { g with handover := none }) [])),
  (.pduBufferPeriod 4,
    gwi [] (fun g => { g with tbl := [(1 * 2^16 + 4, BitVec.ofNat 256 (0x80000003 + 0x123 * 2 ^ 32 + 0x20 * 2 ^ 64 + 100 * 2 ^ 96))] }) []),
  (.gwqTxTailWrite hReq 3 0x1002, ins 0x203 { on := true, berth := 3 } { up with dom := [(17, .on)] }),
  (.gatewayFrameIn, gwi [(5, el 0x123 2 0, 7)] id []),
  (.islandRouteForward,
    hm (fun h => { h with island := true, man := { h.man with iroute := [(5, 3, 2, 0x123, 0x456)] } }) (gwi [(5, el 0x123 2 0, 7), (5, el 0x123 2 0, 8)] (fun g => { g with handover := none }) [])),
  (.gwqTxTailWrite (uReq 4) 3 0x1002, ins 0x203 { on := true, berth := 3 } { up with dom := [(17, .on)] }),
  (.gatewayFrameIn, gwi [(5, el 0x123 2 0, 7)] (fun g => { g with tbl := [(4, rte 0x80000503 0x123 0x80000456)] }) []),
  (.gatewayFrameIn, gwi [(5, el 0x123 2 0, 7), (5, el 0x123 2 0, 8)] (fun g => { g with tbl := [(4, rte 0x80000503 0x123 0x456)] }) [])] : List (Instr × State)),
    (gatewayRule p.1 p.2).isSome = true := by decide +kernel

end Veh

end Sys2Proof.Tests
end

/-! PROOFS. Memory in little-endian order (R7, R80): bytes and the number they spell, and a write read back. -/

namespace Sys2Proof.Proofs

open Sys2Proof.Machine Sys2Proof.Laws

/-! ## Numbers and their bytes -/

@[simp] theorem leBytes_length (n : Nat) : ∀ v, (leBytes n v).length = n := by
  induction n with
  | zero => intro v; rfl
  | succ n ih => intro v; simp [leBytes, ih]

theorem leNat_leBytes (n : Nat) : ∀ v, leNat (leBytes n v) = v % 2 ^ (8 * n) := by
  induction n with
  | zero => intro v; simp [leBytes, leNat, Nat.mod_one]
  | succ n ih =>
    intro v
    have hp : 2 ^ (8 * (n + 1)) = 256 * 2 ^ (8 * n) := by rw [Nat.mul_succ, Nat.pow_add, Nat.mul_comm]
    simp only [leBytes, leNat, BitVec.toNat_ofNat, ih, hp, Nat.mod_mul]

/-- The byte of weight 256^k. -/
theorem leBytes_getD (n : Nat) : ∀ k v, k < n → (leBytes n v).getD k 0 = BitVec.ofNat 8 (v / 256 ^ k) := by
  induction n with
  | zero => intro k v h; omega
  | succ n ih =>
    intro k v h
    cases k with
    | zero => simp [leBytes]
    | succ k =>
      rw [leBytes, List.getD_cons_succ, ih k _ (by omega), Nat.div_div_eq_div_mul, Nat.pow_succ']

/-! ## A write read back -/

variable (s : State)

theorem rdByte_wrBytes_inside (a k : Nat) (bs : List Byte) (h : k < bs.length) :
    (s.wrBytes a bs).rdByte (a + k) = bs.getD k 0 := by
  rw [rdByte_wrBytes, if_pos (by omega), Nat.add_sub_cancel_left]

theorem rdBytes_wrBytes (a : Nat) (bs : List Byte) : (s.wrBytes a bs).rdBytes a bs.length = bs := by
  refine List.ext_getElem (rdBytes_length _ _ _) fun k _ hb => ?_
  rw [List.getElem_eq_getD 0, List.getElem_eq_getD 0, rdBytes_getD _ _ _ hb, rdByte_wrBytes_inside s a k bs hb]

theorem rdBytes_wrBytes_leBytes (a n v : Nat) : (s.wrBytes a (leBytes n v)).rdBytes a n = leBytes n v := by
  simpa using rdBytes_wrBytes s a (leBytes n v)

theorem rdByte_wrBytes_leBytes (a n v k : Nat) (h : k < n) :
    (s.wrBytes a (leBytes n v)).rdByte (a + k) = BitVec.ofNat 8 (v / 256 ^ k) := by
  rw [rdByte_wrBytes_inside s a k _ (by simpa using h), leBytes_getD n k v h]

/-- Settles O8, by the byte at each place of the range (`rdByte_wrBytes`) and induction on the number of bytes. -/
theorem bytesReadBack : Obligations.BytesReadBack := by
  intro s a n v
  refine ⟨?number, ?byte, ?outside, rfl⟩
  case number => rw [rdBytes_wrBytes_leBytes, leNat_leBytes]
  case byte =>
    intro k hk
    rw [rdByte_wrBytes_leBytes s a n v k hk, BitVec.toNat_ofNat]
  case outside => simpa using bytesKept_wrBytes s a (leBytes n v)

end Sys2Proof.Proofs

/-! PROOFS. A register write that finds its domain asleep (R22), and why none asks for a domain after thermal shutdown (R416). -/

namespace Sys2Proof.Proofs

open Sys2Proof.Machine Sys2Proof.Rules Sys2Proof.Laws

/-! ## A write that stalls -/

/-- What the rule gives a write that finds its domain asleep: the domain is asked for and the write waits (R22). -/
def AsksAndWaits (s : State) (rq : Req) (pa : Nat) (w : W32) (s' : State) : Prop :=
  flag s'.domReq (domainOf pa) = true ∧ s'.waits = s.waits ++ [(domainOf pa, .reg rq pa (some w))] ∧
  { s' with domReq := s.domReq, waits := s.waits } = s

section

variable {s : State} {pa : Nat} {p : PageRef} (rq : Req) (w : W32) (aligned : pa % 4 = 0) (page : pageAt pa = some p)
  (present : s.pageFused p = false) (asleep : s.domain (domainOf pa) ≠ .on)
include aligned page present asleep

theorem accessRule_registerWrite_asleep : accessRule (.registerWrite rq pa w) s = some (AsksAndWaits s rq pa w) := by
  have hno : noRegister s rq pa w = some (AsksAndWaits s rq pa w) := by
    simp [noRegister, given, aligned, page, present, asleep]
    rfl
  simp only [accessRule, hno, Option.some_or]

theorem exec_registerWrite_asleep :
    exec (.registerWrite rq pa w) s = .next (s.waitOn (domainOf pa) (.reg rq pa (some w))) := by
  have hstall : s.regAccess rq pa (some w) = (.stall, s) := by simp [State.regAccess, aligned, page, present, asleep]
  change ok (s.regServe rq pa (some w)) = _
  rw [State.regServe, hstall, ok]

end

/-! ## After thermal shutdown -/

theorem wakeDomain_of_shut {s : State} (shut : s.pwr.shut = true) (d : Nat) : s.wakeDomain d = s := by
  simp [State.wakeDomain, shut]

/-- R416: once the device is shut down a stalled write waits and asks for no domain. -/
theorem waitOn_reg_domReq_of_shut {s : State} (shut : s.pwr.shut = true) (d : Nat) (rq : Req) (pa : Nat) (w : Option W32) :
    (s.waitOn d (.reg rq pa w)).domReq = s.domReq := by
  simp [State.waitOn, wakeDomain_of_shut shut]

@[simp] theorem thermalShut_shut (s : State) : s.thermalShut.pwr.shut = true := rfl
@[simp] theorem thermalShut_domReq (s : State) : s.thermalShut.domReq = [] := rfl

/-- A debugger's write of the first word of the PCI Express windows' page. -/
def windowWrite : Instr := .registerWrite { cls := .debug } 0x1048002000 5

/-- Refutes O41: thermal shutdown leaves PD18 off and the device does not wake it again (R416), so a write to a register of its block
waits and does not ask for the domain, while the statement says of every domain that is not on that the write asks for it. -/
theorem not_registerAccesses : ¬ Obligations.RegisterAccesses := by
  intro h
  let s := State.reset.thermalShut
  have page : pageAt 0x1048002000 = some ⟨.pceWin, 0, 0x1048002000, 0x0FC⟩ := by decide
  have asleep : s.domain (domainOf 0x1048002000) ≠ .on := by decide
  obtain ⟨s', hexec, hasked, -⟩ := h windowWrite s _ (accessRule_registerWrite_asleep _ _ rfl page rfl asleep) rfl
  rw [windowWrite, exec_registerWrite_asleep _ _ rfl page rfl asleep, Host.Outcome.next.injEq] at hexec
  rw [← hexec, waitOn_reg_domReq_of_shut (thermalShut_shut _), thermalShut_domReq] at hasked
  exact absurd hasked (by decide)

end Sys2Proof.Proofs

/-! PROOFS. A step takes the front of its queue (log 6), and a syllable that the thread cannot execute changes nothing (R40, R66). -/

namespace Sys2Proof.Proofs

open Sys2Proof.Machine Sys2Proof.Rules

/-! ## A step -/

theorem step_of_pending_cons {s : State} {c : Instr} {rest : List Instr} (h : s.pending = c :: rest) :
    step s = exec c { s with pending := rest } := by
  rw [step, h]

/-- Settles O1: the front is taken off the queue that it was put before. -/
theorem stepTakesTheFront : Obligations.StepTakesTheFront :=
  fun _ _ => step_of_pending_cons rfl

/-! ## What every syllable asks (R66) -/

theorem ask_of_not_spelled {s : State} {i : Instr} (h : s.spells i = false) (o : Out) : s.ask i o = .next s := by
  simp [State.ask, h, ok]

theorem ask_of_next {s : State} (i : Instr) {o : Out} (h : o = .next s) : s.ask i o = .next s := by
  simp [State.ask, h, ok]

theorem sylCode_isSome_of_not_spelled {s : State} {i : Instr} (h : s.spells i = false) : (sylCode i).isSome = true := by
  cases hc : sylCode i with
  | none => simp [State.spells, hc] at h
  | some _ => rfl

/-- A command that is encoded as a syllable has its effect only where the thread's bundle holds it next. The split of `h` leaves those
commands. -/
theorem exec_asks {i : Instr} (h : (sylCode i).isSome = true) (s : State) : ∃ o, exec i s = s.ask i o := by
  cases i
  all_goals cases h
  all_goals exact ⟨_, rfl⟩

theorem exec_of_not_spelled {s : State} {i : Instr} (h : s.spells i = false) : exec i s = .next s := by
  obtain ⟨o, ho⟩ := exec_asks (sylCode_isSome_of_not_spelled h) s
  rw [ho, ask_of_not_spelled h]

/-! ## A thread that can execute no syllable (R40) -/

section

variable {s : State} {t : Nat} (noPlace : s.openSyl t = none) (q : Pred)
include noPlace

@[simp] theorem syl_of_noPlace (iv : Nat) (f : State → State) : s.syl t q iv f = s := by
  simp [State.syl, noPlace]

@[simp] theorem reserved_of_noPlace (u body : Nat) : s.reserved t q u body = s := by
  simp [State.reserved, noPlace]

@[simp] theorem sylPair_of_noPlace (iv opc : Nat) (rd ra rb : Reg) (good : Bool) (f : State → State) :
    s.sylPair t q iv opc rd ra rb good f = s := by
  simp [State.sylPair, noPlace]

@[simp] theorem memSyl_of_noPlace (op : State → MOp) (va : State → Word) : s.memSyl t q op va = s :=
  syl_of_noPlace noPlace ..

@[simp] theorem startPat_of_noPlace (p : PatRun) : s.startPat t q p = s := by
  simp [State.startPat, noPlace]

@[simp] theorem startDiv_of_noPlace (rd ra rb : Reg) (rem signed : Bool) : s.startDiv t q rd ra rb rem signed = s := by
  simp [State.startDiv, noPlace]

end

/-- Each syllable is one of the shared operations above, under the name of its unit's family: arithmetic (A, B), floating point,
memory and maintenance. -/
theorem exec_of_noPlace {i : Instr} {t : Gtn} {q : Pred} {first : Bool} {s : State}
    (syllable : syllableOf i = some (t, q, first)) (noPlace : s.openSyl t = none) : exec i s = .next s := by
  cases i
  all_goals cases syllable
  all_goals
    refine ask_of_next _ ?_
    simp [ok, noPlace, State.alu3, State.alu1, State.alu1s, State.aluI, State.pair3, State.cmp, State.fp, State.fcmp,
      State.fToReg, State.ld, State.st, State.ss, State.amo, State.clSyl, State.tlbiSyl]

/-- Settles O11: what is not spelled is not asked for, and every shared operation of a syllable leaves a thread without a place alone. -/
theorem noSyllableWithoutAPlace : Obligations.NoSyllableWithoutAPlace :=
  fun _ _ _ _ _ => ⟨exec_of_noPlace, exec_of_not_spelled⟩

end Sys2Proof.Proofs


/-! PROOFS. A conditional branch (R53, R54, R59, R133): what it leaves in the predictor, in its bundle and in its thread. -/

namespace Sys2Proof.Proofs

open Sys2Proof.Machine Sys2Proof.Rules Sys2Proof.Laws

/-! ## The parts of a branch -/

/-- The counter that predicts the branch of a bundle (R54). -/
def counterOf (s : State) (t : Nat) (b : Bundle) : BitVec 2 :=
  Tbl.get (fun _ => (1 : BitVec 2)) (s.core (coreOf t)).pred (predIndex b.addr (s.th t).hist t)

/-- The prediction of a conditional branch: the counter under ST.DYN = 1, else the hint (R53, R54). -/
def predicts (s : State) (t : Nat) (hint : Bool) (b : Bundle) : Bool :=
  if bit b.old.st 7 then decide (2 ≤ (counterOf s t b).toNat) else hint

/-- One step of a counter toward an outcome, saturating (R54). -/
def towards (taken : Bool) (n : BitVec 2) : BitVec 2 :=
  if taken then (if n = 3 then 3 else n + 1) else (if n = 0 then 0 else n - 1)

/-- The state with the counter of a conditional branch trained under ST.DYN = 1 (R54). -/
def trained (s : State) (t : Nat) (taken : Bool) (b : Bundle) : State :=
  if bit b.old.st 7 then
    s.modCore (coreOf t) (fun k => { k with
      pred := Tbl.set (fun _ => (1 : BitVec 2)) k.pred (predIndex b.addr (s.th t).hist t) (towards taken (counterOf s t b)) })
  else s

/-- A state in which a mispredicted branch of a thread is counted. -/
def missCounted (s : State) (t berth : Nat) (miss : Bool) : State :=
  if miss then s.perfEvent (coreOf t) 0x014 1 (some (t, berth)) else s

/-- A thread after a conditional branch, but for the link: its bundle goes on at the target or at the following bundle. -/
def branched (x : Thread) (b : Bundle) (guess taken : Bool) (disp : BitVec 20) : Thread :=
  { x with
    bun := some { b with
      pos := b.pos + 1
      ready := max b.ready (b.issued + if guess = taken ∧ !x.pbar then 4 else 10)
      branch := true
      next := if taken then b.addr + BitVec.ofInt 36 (disp.toInt * 4) else b.next
      tev := b.tev ++ [.atom taken]
      seen := Nat.lor b.seen (b2n (decide (guess ≠ taken)) * 2 ^ 22) }
    hist := if bit b.old.st 7 then x.hist * 2 + (if taken then 1 else 0) else x.hist
    pbar := false }

/-- A thread with the address of the following bundle in g31, where a branch links (R133). -/
def linkedIf (c : Prop) [Decidable c] (b : Bundle) (x : Thread) : Thread := if c then x.wrReg 3 31 (following b) else x

theorem branch_conditional {s : State} {t : Nat} {q : Pred} {b : Bundle} (open_b : s.openSyl t = some b)
    (cond : q.reg ≠ 0 ∨ q.neg = true) (link hint : Bool) (disp : BitVec 20) :
    let guess := predicts s t hint b
    let taken := b.holds q
    s.branch t q link hint disp =
      (missCounted (trained s t taken b) t (s.th t).berth (decide (guess ≠ taken))).setTh t
        (linkedIf (taken ∧ link) b (branched (s.th t) b guess taken disp)) := by
  have hc : (q.reg != 0 || q.neg) = true := by simpa using cond
  simp only [State.branch, open_b, hc, true_and, if_true]
  rfl

theorem exec_bra {t : Gtn} {q : Pred} {link hint : Bool} {disp : BitVec 20} {s : State}
    (spelled : s.spells (.bra t q link hint disp) = true) :
    exec (.bra t q link hint disp) s = .next (s.branch t q link hint disp) :=
  if_pos spelled

/-! ## What the outcome changes -/

/-- R41, R53, R59: a branch predicted right and behind no barrier has the interval 4, any other 10. -/
theorem branched_ready (x : Thread) (b : Bundle) (guess taken : Bool) (disp : BitVec 20) :
    (branched x b guess taken disp).bun.map Bundle.ready =
      some (max b.ready (b.issued + if guess = taken ∧ x.pbar = false then 4 else 10)) := by
  simp [branched]

section

variable (s : State) (t : Nat) (taken : Bool) (b : Bundle)

@[simp] theorem trained_mem : (trained s t taken b).mem = s.mem := by
  unfold trained; split <;> rfl

theorem trained_pred (dyn : bit b.old.st 7 = true) :
    Tbl.get (fun _ => (1 : BitVec 2)) ((trained s t taken b).core (coreOf t)).pred (predIndex b.addr (s.th t).hist t) =
      towards taken (counterOf s t b) := by
  simp [trained, dyn, State.modCore, core_setCore]

@[simp] theorem missCounted_mem (berth : Nat) (miss : Bool) : (missCounted s t berth miss).mem = s.mem := by
  cases miss <;> simp [missCounted]

@[simp] theorem missCounted_core (berth c : Nat) (miss : Bool) : (missCounted s t berth miss).core c = s.core c := by
  cases miss <;> simp [missCounted, State.core]

end

theorem setTh_core (s : State) (t c : Nat) (x : Thread) : (s.setTh t x).core c = s.core c := rfl

/-! ## What the link changes -/

@[simp] theorem wrReg_bun (x : Thread) (u r : Nat) (v : Word) : (x.wrReg u r v).bun = x.bun :=
  (congrArg Thread.bun (wrReg_frame x u r v).1 :)

@[simp] theorem wrReg_hist (x : Thread) (u r : Nat) (v : Word) : (x.wrReg u r v).hist = x.hist :=
  (congrArg Thread.hist (wrReg_frame x u r v).1 :)

section

variable (c : Prop) [Decidable c] (b : Bundle) (x : Thread)

@[simp] theorem linkedIf_bun : (linkedIf c b x).bun = x.bun := by
  by_cases hc : c <;> simp [linkedIf, hc]

@[simp] theorem linkedIf_hist : (linkedIf c b x).hist = x.hist := by
  by_cases hc : c <;> simp [linkedIf, hc]

theorem linkedIf_g31 {b' : Bundle} (hb : x.bun = some b') :
    (linkedIf c b x).ctx.rd 31 = if c ∧ b'.keeps 3 31 = false then following b else x.ctx.rd 31 := by
  by_cases hc : c <;> simp [linkedIf, hc, wrReg_rd x b' hb]

end

/-- Settles O26, by `branch_conditional`: the bundle and the history are those of `branched`, g31 comes from the link, the counter from
`trained`, and counting a misprediction touches none of them. -/
theorem conditionalBranches : Obligations.ConditionalBranches := by
  intro t q link hint disp s b open_b cond spelled
  refine ⟨_, exec_bra spelled, ?_⟩
  rw [branch_conditional open_b cond]
  refine ⟨?next, ?ready, ?hist, ?g31, ?counter, ?memory⟩
  case next => simp [branched]
  case ready =>
    rw [th_setTh_self, linkedIf_bun]
    exact branched_ready ..
  case hist => simp [branched]
  case g31 =>
    rw [th_setTh_self, linkedIf_g31 _ _ _ rfl]
    simp [branched, Bundle.keeps, and_assoc]
  case counter =>
    intro dyn
    rw [← coreOf, setTh_core, missCounted_core]
    exact trained_pred s t _ b dyn
  case memory => simp

end Sys2Proof.Proofs

/-! PROOFS. What reset leaves (R43, R54, R83, R164, R178, R221, R223): the tables of the reset state list no key. -/

namespace Sys2Proof.Proofs

open Sys2Proof.Machine

/-- Settles O3: every table of the reset state is empty, so each of its entries reads as the default that the rules give it. -/
theorem resetValues : Obligations.ResetValues := by
  refine ⟨fun t => ?thread, fun c => ?core, fun _ _ => rfl, fun _ => ⟨rfl, rfl⟩, rfl, rfl, rfl, rfl, fun _ => rfl, fun _ => rfl,
    rfl, rfl, rfl⟩
  case thread =>
    refine ⟨rfl, rfl, rfl, rfl, rfl, rfl, rfl, rfl, rfl, fun _ => rfl, ?general, ?predicates⟩
    case general => exact fun r => ite_self 0
    case predicates => exact fun p => by cases p <;> rfl
  case core => exact ⟨rfl, rfl, fun _ => rfl⟩

end Sys2Proof.Proofs

/-! PROOFS. A syllable takes its place in the bundle (R41, R67), and does no more where its predicate does not hold. -/

namespace Sys2Proof.Proofs

open Sys2Proof.Machine Sys2Proof.Rules Sys2Proof.Laws

/-! ## The place that a syllable takes (R41) -/

theorem ask_of_spelled {s : State} {i : Instr} (spelled : s.spells i = true) (o : Out) : s.ask i o = o := if_pos spelled

/-- The state in which a syllable of interval `iv` has taken its place in the bundle of thread `t`, before its own effect. -/
def placed (s : State) (t : Nat) (b : Bundle) (iv : Nat) : State := s.setTh t (afterSyl (s.th t) b iv id)

section

variable (s : State) (t : Nat) (b : Bundle) (iv : Nat)

@[simp] theorem placed_th : (placed s t b iv).th t = afterSyl (s.th t) b iv id := th_setTh_self ..

theorem onlyThread_placed : OnlyThread t s (placed s t b iv) := onlyThread_setTh ..

@[simp] theorem placed_bunOf :
    (placed s t b iv).bunOf t = { b with pos := b.pos + 1, ready := max b.ready (b.issued + iv) } := by
  simp [State.bunOf, afterSyl]

end

theorem syl_of_runs {s : State} {t : Gtn} {q : Pred} {b : Bundle} (runs : Runs s t q b) (iv : Nat) (f : State → State) :
    s.syl t q iv f = f (placed s t b iv) :=
  syl_runs runs iv f

/-! ## A syllable whose predicate does not hold (R67) -/

theorem skipDone_placed (s : State) (t : Gtn) (b : Bundle) : SkipDone t b s (placed s t b 4) :=
  ⟨onlyThread_placed .., placed_th ..⟩

section

variable {s : State} {t : Nat} {q : Pred} {b : Bundle} (place : s.openSyl t = some b) (skips : b.holds q = false)
include place skips

theorem syl_of_skips (iv : Nat) (f : State → State) : s.syl t q iv f = placed s t b 4 := by
  simp [State.syl, place, skips, placed, State.modTh, afterSyl, Nat.max_def]

theorem sylPair_of_skips (iv opc : Nat) (rd ra rb : Reg) (f : State → State) :
    s.sylPair t q iv opc rd ra rb true f = placed s t b 4 :=
  syl_of_skips place skips iv f

theorem memSyl_of_skips (op : State → MOp) (va : State → Word) : s.memSyl t q op va = placed s t b 4 :=
  syl_of_skips place skips ..

theorem startPat_of_skips (front : b.pos = 0) (p : PatRun) : s.startPat t q p = placed s t b 4 := by
  simp [State.startPat, place, front, syl_of_skips place skips]

theorem startDiv_of_skips (front : b.pos = 0) (rd ra rb : Reg) (rem signed : Bool) :
    s.startDiv t q rd ra rb rem signed = placed s t b 4 := by
  simp [State.startDiv, place, startPat_of_skips place skips front]

end

theorem isPair_eq_namesPair (r : Reg) : isPair r.val = namesPair r := rfl

/-- Each syllable is one of the shared operations above, under the name of its unit's family; a command that can be reserved is one where
its fields are not reserved. -/
theorem exec_of_skips {i : Instr} {t : Gtn} {q : Pred} {first : Bool} {s : State} {b : Bundle}
    (syllable : syllableOf i = some (t, q, first)) (assigned : reservedForm i = none) (place : s.openSyl t = some b)
    (skips : b.holds q = false) (front : first = true → b.pos = 0) (spelled : s.spells i = true) :
    exec i s = .next (placed s t b 4) := by
  cases i
  all_goals cases syllable
  all_goals
    refine (ask_of_spelled spelled _).trans ?_
    simp [reservedForm] at assigned front
    simp [ok, State.alu3, State.alu1, State.alu1s, State.aluI, State.pair3, State.cmp, State.fp, State.fcmp, State.fToReg,
      State.ld, State.st, State.ss, State.amo, State.clSyl, State.tlbiSyl, isPair_eq_namesPair, assigned, front, place, skips,
      syl_of_skips place skips, sylPair_of_skips place skips, memSyl_of_skips place skips, startPat_of_skips place skips,
      startDiv_of_skips place skips]

/-- Settles O10: a syllable that skips only takes its place (`exec_of_skips`). -/
theorem skippedSyllables : Obligations.SkippedSyllables :=
  fun _ _ _ _ _ _ syllable assigned place skips front spelled =>
    ⟨_, exec_of_skips syllable assigned place skips front spelled, skipDone_placed ..⟩

end Sys2Proof.Proofs

/-! PROOFS. Reserved encodings (R78, R88 to R90): the bundle that a fault undoes, and the confined result. -/

namespace Sys2Proof.Proofs

open Sys2Proof.Machine Sys2Proof.Rules Sys2Proof.Laws

/-! ## A bundle undone (R74) -/

theorem undo_th (s : State) (t u : Nat) (b : Bundle) :
    (s.undo t b).th u = if u = t then { s.th t with ctx := b.old } else s.th u :=
  th_modTh s t u (fun x => { x with ctx := b.old })

/-- A fault undoes the bundle of a thread, whatever of the thread its syllables have changed. -/
theorem undone_fault {s s' : State} {t : Gtn} {b b' : Bundle} (only : OnlyThread t s s') (bun : (s'.th t).bun = some b')
    (old : b'.old = b.old) (c : Cause) : Undone t b c s (s'.fault t c) := by
  obtain ⟨same, others⟩ := only
  have mem : s'.mem = s.mem := show { s' with thr := s.thr }.mem = s.mem from congrArg State.mem same
  have regs : s'.regs = s.regs := show { s' with thr := s.thr }.regs = s.regs from congrArg State.regs same
  simp only [State.fault, State.faultAt, bun]
  refine ⟨?pend, ?ctx, mem, regs, fun u hu => ?others⟩
  case pend => simp [undo_th]
  case ctx => simp [undo_th, old]
  case others => simp [undo_th, th_setTh, hu, others u hu]

/-! ## What register and predicate writes leave in a thread (R75) -/

section

variable (x : Thread) (u r : Nat) (v : Word)

theorem wrReg_ctx_but_g : { (x.wrReg u r v).ctx with g := x.ctx.g } = x.ctx := (wrReg_frame x u r v).2

@[simp] theorem wrReg_p : (x.wrReg u r v).ctx.p = x.ctx.p := (congrArg Ctx.p (wrReg_ctx_but_g x u r v) :)
@[simp] theorem wrReg_st : (x.wrReg u r v).ctx.st = x.ctx.st := (congrArg Ctx.st (wrReg_ctx_but_g x u r v) :)

theorem wrP_st (c : Ctx) (p : Nat) (v : Bool) : (c.wrP p v).st = c.st := by
  by_cases h : p = 0 <;> simp [Ctx.wrP, h]

@[simp] theorem wrReg_rdP (p : Nat) : (x.wrReg u r v).ctx.rdP p = x.ctx.rdP p := by simp [Ctx.rdP]

end

/-! ## The effect of a syllable that runs (R67) -/

section

variable (b : Bundle) (unit : Nat) (was : Ctx) (k : Nat)

@[simp] theorem regAfter_nil : regAfter b unit was [] k = was.rd k := rfl
@[simp] theorem predAfter_nil : predAfter was [] k = was.rdP k := rfl

theorem regAfter_cons (r : Nat) (v : Word) (w : List (Nat × Word)) :
    regAfter b unit was ((r, v) :: w) k =
      if k = r then (if k = 0 ∨ b.keeps unit k = true then was.rd k else v) else regAfter b unit was w k := by
  by_cases h : k = r
  · simp [regAfter, List.lookup, h]
  · simp [regAfter, List.lookup, h, beq_false_of_ne h]

theorem predAfter_cons (p : Nat) (v : Bool) (w : List (Nat × Bool)) :
    predAfter was ((p, v) :: w) k = if k = p then (if k = 0 then true else v) else predAfter was w k := by
  by_cases h : k = p
  · simp [predAfter, List.lookup, h]
  · simp [predAfter, List.lookup, h, beq_false_of_ne h]

end

section

variable {x : Thread} {b : Bundle} (bun : x.bun = some b) (u : Nat) (v : Word) (k : Nat)
include bun

theorem rd_wrReg (r : Nat) : (x.wrReg u r v).ctx.rd k = regAfter b u x.ctx [(r, v)] k := by
  rw [wrReg_rd x b bun, regAfter_cons, regAfter_nil]
  by_cases h : k = r
  · by_cases h0 : r = 0 <;> cases hk : b.keeps u r <;> simp [h, h0, hk]
  · simp [h]

/-- Where two registers take one value, it does not matter which write comes first. -/
theorem rd_wrReg_wrReg (r r' : Nat) : ((x.wrReg u r v).wrReg u r' v).ctx.rd k = regAfter b u x.ctx [(r, v), (r', v)] k := by
  rw [rd_wrReg (x := x.wrReg u r v) (by rw [wrReg_bun, bun])]
  simp only [regAfter_cons, regAfter_nil, rd_wrReg bun]
  by_cases kept : k = 0 ∨ b.keeps u k = true
  · simp only [if_pos kept, ite_self]
  · simp only [if_neg kept]
    by_cases h : k = r
    · simp only [if_pos h, ite_self]
    · simp only [if_neg h]

end

/-- Two threads that differ at most in general registers, predicates, ST, bundle and stored parity: what a syllable without memory access
writes. -/
def SameButOperands (x x' : Thread) : Prop :=
  { x'.ctx with g := x.ctx.g, p := x.ctx.p, st := x.ctx.st } = x.ctx ∧ { x' with ctx := x.ctx, bun := x.bun, par := x.par } = x

theorem sameButOperands_trans {x y z : Thread} (h : SameButOperands x y) (k : SameButOperands y z) : SameButOperands x z := by
  obtain ⟨hc, hx⟩ := h
  obtain ⟨kc, kx⟩ := k
  exact ⟨by rw [← hc, ← kc], by rw [← hx, ← kx]⟩

theorem sameButOperands_afterSyl (x : Thread) (b : Bundle) (iv : Nat) : SameButOperands x (afterSyl x b iv id) := ⟨rfl, rfl⟩

theorem sameButOperands_wrReg (x : Thread) (u r : Nat) (v : Word) : SameButOperands x (x.wrReg u r v) := by
  have ctx := wrReg_ctx_but_g x u r v
  have all := (wrReg_frame x u r v).1
  exact ⟨(congrArg (fun c : Ctx => { c with p := x.ctx.p, st := x.ctx.st }) ctx :),
    (congrArg (fun y : Thread => { y with bun := x.bun }) all :)⟩

theorem sameButOperands_wrP (x : Thread) (p : Nat) (v : Bool) (par : Tbl (BitVec 4)) :
    SameButOperands x { x with ctx := x.ctx.wrP p v, par := par } := by
  refine ⟨?_, rfl⟩
  by_cases h : p = 0 <;> simp [Ctx.wrP, h]

/-- An effect is done where a syllable that took its place writes what the effect says, and no ST.SOV. -/
theorem done_of_thread {e : Effect} {b : Bundle} {s s' : State} (only : OnlyThread e.t s s')
    (regs : ∀ r : Reg, (s'.th e.t).ctx.rd r = regAfter b e.unit (s.th e.t).ctx (e.regs b.old) r)
    (preds : ∀ p : PReg, (s'.th e.t).ctx.rdP p = predAfter (s.th e.t).ctx (e.preds b.old) p)
    (noSov : e.sov b.old = false) (st : (s'.th e.t).ctx.st = (s.th e.t).ctx.st)
    (bun : (s'.th e.t).bun = (afterSyl (s.th e.t) b e.iv id).bun) (rest : SameButOperands (s.th e.t) (s'.th e.t)) :
    e.Done b s s' := by
  refine ⟨only, regs, preds, ?_, rest.1, ?_, rest.2⟩
  · simp [st, noSov]
  · simp [bun, noSov, afterSyl]

/-! ## Reserved encodings (R89, R90) -/

/-- A thread with the confined result of a reserved syllable of a unit with bits [24:0] `body`. -/
def confined (x : Thread) (unit body : Nat) : Thread :=
  let y := (x.wrReg unit (body / 2 ^ 10 % 32) 0).wrReg unit (body / 2 ^ 13 % 32) 0
  { y with ctx := y.ctx.wrP (body / 2 ^ 13 % 8) false, par := Tbl.del y.par 32 }

theorem confine_th (s : State) (t unit body : Nat) : (s.confine t unit body).th t = confined (s.th t) unit body :=
  th_modTh_self ..

section

variable (x : Thread) (unit body : Nat)

@[simp] theorem confined_bun : (confined x unit body).bun = x.bun := by simp [confined]

@[simp] theorem confined_st : (confined x unit body).ctx.st = x.ctx.st := by
  simp only [confined, wrP_st, wrReg_st]

theorem confined_rd {b : Bundle} (bun : x.bun = some b) (k : Nat) :
    (confined x unit body).ctx.rd k = regAfter b unit x.ctx [(body / 2 ^ 10 % 32, 0), (body / 2 ^ 13 % 32, 0)] k :=
  (rd_wrP ..).trans (rd_wrReg_wrReg bun ..)

theorem confined_rdP (k : Nat) : (confined x unit body).ctx.rdP k = predAfter x.ctx [(body / 2 ^ 13 % 8, false)] k := by
  simp only [confined, rdP_wrP, wrReg_rdP, predAfter_cons, predAfter_nil]
  by_cases h : k = body / 2 ^ 13 % 8
  · rw [← h]
  · simp only [h, if_false]

theorem sameButOperands_confined : SameButOperands x (confined x unit body) :=
  sameButOperands_trans (sameButOperands_wrReg x ..)
    (sameButOperands_trans (sameButOperands_wrReg ..) (sameButOperands_wrP ..))

end

/-- The confined result in the words of the rules. -/
def confinedEffect (t : Gtn) (q : Pred) (unit body : Nat) : Effect where
  t := t
  q := q
  iv := 4
  unit := unit
  regs := fun _ => [(body / 2 ^ 10 % 32, 0), (body / 2 ^ 13 % 32, 0)]
  preds := fun _ => [(body / 2 ^ 13 % 8, false)]

theorem confine_done (t : Gtn) (q : Pred) (unit body : Nat) (b : Bundle) (s : State) :
    (confinedEffect t q unit body).Done b s ((placed s t b 4).confine t unit body) := by
  have th : ((placed s t b 4).confine t unit body).th t = confined (afterSyl (s.th t) b 4 id) unit body := by
    rw [confine_th, placed_th]
  refine done_of_thread (onlyThread_trans (onlyThread_placed ..) (onlyThread_modTh ..)) ?regs ?preds rfl ?st ?bun ?rest
  all_goals dsimp only [confinedEffect]; rw [th]
  case regs => exact fun r => (confined_rd (afterSyl (s.th t) b 4 id) unit body rfl r :)
  case preds => exact fun p => confined_rdP ..
  case st => exact confined_st ..
  case bun => exact confined_bun ..
  case rest => exact sameButOperands_trans (sameButOperands_afterSyl ..) (sameButOperands_confined ..)

theorem reserved_done {s : State} {t : Gtn} {b : Bundle} (place : s.openSyl t = some b) (q : Pred) (unit body : Nat) :
    reservedDone t q unit body b s (s.reserved t q unit body) := by
  unfold reservedDone
  split
  case isTrue strict =>
    have fault : s.reserved t q unit body = (s.modTh t (fun x => { x with bun := some { b with pos := b.pos + 1 } })).fault t
        (illegalCause b.addr 8 b.pos) := by
      simp [State.reserved, place, stStrict, strict]
    have undone := undone_fault (onlyThread_modTh s t fun x => { x with bun := some { b with pos := b.pos + 1 } })
      (congrArg Thread.bun (th_modTh_self ..)) rfl (illegalCause b.addr 8 b.pos)
    obtain ⟨pend, ctx, mem, regs, -⟩ := undone
    rw [fault]
    exact ⟨pend, ctx, mem, regs⟩
  case isFalse lenient =>
    have syl : s.reserved t q unit body = s.syl t q 4 (fun s => s.confine t unit body) := by
      simp [State.reserved, place, stStrict, lenient]
    rw [syl]
    split
    case isTrue holds =>
      rw [syl_of_runs ⟨place, holds⟩]
      exact confine_done ..
    case isFalse skips => exact syl_skips place (by simpa using skips) ..

@[simp] theorem memBits_eq_memBody (opc : Nat) (rd : Reg) (a : Addr) : reservedForm.memBits opc rd a = memBody opc rd.val a := by
  cases a <;> rfl

/-- A command of the table but RESERVED_ENCODING is reserved by its fields: BFX and BFI from position 36 on, every other where its pairs name no
pair or its system register is not assigned. The model decides by the same fields. -/
theorem exec_of_reservedForm {i : Instr} {t : Gtn} {q : Pred} {unit body : Nat} {s : State}
    (reserved : reservedForm i = some (t, q, unit, body)) (spelled : s.spells i = true) :
    exec i s = .next (s.reserved t q unit body) := by
  unfold reservedForm at reserved
  split at reserved
  -- RESERVED_ENCODING
  case h_15 =>
    cases reserved
    exact ask_of_spelled spelled _
  case h_16 => cases reserved
  all_goals
    simp only [Option.ite_none_left_eq_some, Option.ite_none_right_eq_some, Option.some.injEq, Prod.mk.injEq,
      memBits_eq_memBody] at reserved
    obtain ⟨fields, rfl, rfl, rfl, rfl⟩ := reserved
    refine (ask_of_spelled spelled _).trans (congrArg Host.Outcome.next ?_)
  -- BFX and BFI
  case h_9 | h_10 => exact if_neg (Nat.not_lt.2 fields)
  all_goals exact if_neg fields

/-- Settles O23: a reserved command is the shared operation `State.reserved` (`exec_of_reservedForm`), whose three outcomes are those of
`reserved_done`. -/
theorem reservedForms : Obligations.ReservedForms :=
  fun _ _ _ _ _ _ _ reserved place spelled => ⟨_, exec_of_reservedForm reserved spelled, reserved_done place ..⟩

end Sys2Proof.Proofs

/-! PROOFS. System registers (R81 to R87) and the privilege of the X unit and of TLB maintenance (R84, R119, R181). -/

namespace Sys2Proof.Proofs

open Sys2Proof.Machine Sys2Proof.Rules Sys2Proof.Laws

/-! ## Entries of a rule -/

theorem running_eq_some {s : State} {t : Gtn} {q : Pred} {f : Bundle → Option (State → Prop)} {P : State → Prop}
    (entry : running s t q f = some P) : ∃ b, Runs s t q b ∧ f b = some P := by
  unfold running at entry
  split at entry
  case h_1 b place =>
    obtain ⟨holds, entry⟩ := Option.ite_none_right_eq_some.1 entry
    exact ⟨b, ⟨place, holds⟩, entry⟩
  case h_2 => cases entry

theorem given_eq_some {c : Bool} {Q P : State → Prop} : given c Q = some P ↔ c = true ∧ Q = P := by
  simp [given]

/-! ## What a level does not allow (R84, R119) -/

section

variable {s : State} {t : Gtn} {q : Pred} {b : Bundle}

theorem undone_placed_fault (s : State) (t : Gtn) (b : Bundle) (iv : Nat) (c : Cause) : Undone t b c s ((placed s t b iv).fault t c) :=
  undone_fault (onlyThread_placed ..) (congrArg Thread.bun (placed_th ..)) rfl c

variable (runs : Runs s t q b)
include runs

theorem sysPriv_undone (user : level b = 0) (iv opc : Nat) (f : State → State) :
    Undone t b (privilege b 2 (b.len - 1) opc) s (s.syl t q iv (fun s => s.sysPriv t opc f)) := by
  have fault : (placed s t b iv).sysPriv t opc f = (placed s t b iv).fault t (privilege b 2 (b.len - 1) opc) := by
    simp only [State.sysPriv, State.xPos, placed_bunOf]
    exact if_pos user
  rw [syl_of_runs runs, fault]
  exact undone_placed_fault ..

theorem tlbiSyl_undone {pl : Nat} (low : level b < pl) (opc : Nat) (o : State → Tlbi) :
    Undone t b (privilege b 2 b.pos opc) s (s.tlbiSyl t q opc pl o) := by
  rw [State.tlbiSyl, syl_of_runs runs]
  simp only [State.pos, placed_bunOf]
  rw [if_pos (show stPl b.old.st < pl from low)]
  exact undone_placed_fault ..

theorem exec_mfsr (rd : Reg) {srn : BitVec 10} (assigned : srnAssigned srn.toNat = true)
    (spelled : s.spells (.mfsr t q rd srn) = true) :
    exec (.mfsr t q rd srn) s = .next (
      if level b < srnReadAt srn.toNat then (placed s t b 4).fault t (privilege b 0 (b.len - 1) srn.toNat)
      else (placed s t b 4).wrReg t 3 rd (s.srnRead t b.old srn.toNat)) := by
  refine (ask_of_spelled spelled _).trans (congrArg Host.Outcome.next ((if_pos assigned).trans ?_))
  rw [syl_of_runs runs]
  simp only [State.xPos, placed_bunOf]
  rfl

theorem exec_mtsr {srn : BitVec 10} (rd : Reg) (assigned : srnAssigned srn.toNat = true)
    (spelled : s.spells (.mtsr t q srn rd) = true) :
    exec (.mtsr t q srn rd) s = .next (
      if mtsrFaults srn.toNat (level b) then (placed s t b 4).fault t (privilege b 1 (b.len - 1) srn.toNat)
      else if srnReadOnly srn.toNat then placed s t b 4
      else (placed s t b 4).srnWrite t srn.toNat (b.old.rd rd)) := by
  refine (ask_of_spelled spelled _).trans (congrArg Host.Outcome.next ((if_pos assigned).trans ?_))
  rw [syl_of_runs runs]
  simp only [State.xPos, State.src, placed_bunOf]
  rfl

end

theorem mtsrFaults_eq (n pl : Nat) : mtsrFaults n pl = decide (pl < if srnReadOnly n then srnReadAt n else srnWriteAt n) := by
  unfold mtsrFaults
  split <;> rfl

theorem privilegeRule_holds : privilegeRule.Holds := by
  intro i s P entry spelled
  unfold privilegeRule at entry
  split at entry
  case h_13 => cases entry
  -- MFSR, MTSR, the three SYS operations, TLB maintenance of S and H, and of H only
  all_goals
    obtain ⟨b, runs, entry⟩ := running_eq_some entry
    obtain ⟨low, rfl⟩ := given_eq_some.1 entry
  case h_1 =>
    obtain ⟨assigned, low⟩ := Bool.and_eq_true_iff.1 low
    refine ⟨_, exec_mfsr runs _ assigned spelled, ?_⟩
    rw [if_pos (of_decide_eq_true low)]
    exact undone_placed_fault ..
  case h_2 =>
    obtain ⟨assigned, low⟩ := Bool.and_eq_true_iff.1 low
    refine ⟨_, exec_mtsr runs _ assigned spelled, ?_⟩
    rw [mtsrFaults_eq, if_pos low]
    exact undone_placed_fault ..
  case h_3 | h_4 | h_5 => exact ⟨_, ask_of_spelled spelled _, sysPriv_undone runs (eq_of_beq low) ..⟩
  case h_6 | h_7 | h_8 | h_9 =>
    exact ⟨_, ask_of_spelled spelled _, tlbiSyl_undone runs (Nat.lt_one_iff.2 (eq_of_beq low)) ..⟩
  case h_10 | h_11 | h_12 => exact ⟨_, ask_of_spelled spelled _, tlbiSyl_undone runs (of_decide_eq_true low) ..⟩

/-! ## MTSR (R84 to R87) -/

/-- The context after an MTSR of a value to a register that is neither CORE_SCHED nor read-only. -/
def mtsrCtx (c : Ctx) (sov strict : Bool) (n : Nat) (v : Word) : Ctx :=
  if n = 0 then { c with st := stWritten c.st v (stPl c.st) sov }
  else if n = 1 then { c with cls := min (v.toNat % 4) c.ceil }
  else if n = 2 then { c with wPend := v.setWidth 8 }
  else if n = 0x11 then c.setSysr n (xstWritten 1 strict v)
  else if n = 0x21 then c.setSysr n (xstWritten 2 strict v)
  else c.setSysr n (v &&& BitVec.ofNat 36 (srnMask n))

section

variable (s : State) (t n : Nat) (v : Word)

theorem modCore_th (c u : Nat) (f : Core → Core) : (s.modCore c f).th u = s.th u := rfl

theorem setTh_modCore_frame (x : Thread) (c : Nat) (f : Core → Core) :
    { (s.setTh t x).modCore c f with thr := s.thr, cores := s.cores } = s := by
  simp only [State.modCore, State.setCore, State.setTh]

theorem srnWrite_sched : s.srnWrite t 0xA v = s.modCore (coreOf t) (fun k => { k with
    schedLast := v &&& 0x7F7F7F7F#36
    schedNew := Tbl.set (fun _ => (none : Option Word)) k.schedNew t (some (v &&& 0x7F7F7F7F#36)) }) := rfl

theorem srnWrite_of_ne_sched (h : n ≠ 0xA) : s.srnWrite t n v = s.setTh t { s.th t with
    ctx := mtsrCtx (s.th t).ctx (s.bunOf t).sov (s.strictOf t) n v
    par := Tbl.del (s.th t).par (0x100 + n) } := by
  have low2 : bits v 1 0 = v.toNat % 4 := by simp [bits]
  have low8 : BitVec.ofNat 8 (bits v 7 0) = v.setWidth 8 := BitVec.eq_of_toNat_eq (by simp [bits])
  by_cases is11 : n = 0x11
  · subst is11; rfl
  by_cases is21 : n = 0x21
  · subst is21; rfl
  simp only [State.srnWrite, mtsrCtx, low2, low8, h, is11, is21, or_self, if_false]
  by_cases is0 : n = 0
  · simp only [if_pos is0]
  by_cases is1 : n = 1
  · simp only [if_neg is0, if_pos is1]
  by_cases is2 : n = 2
  · simp only [if_neg is0, if_neg is1, if_pos is2]
  · simp only [if_neg is0, if_neg is1, if_neg is2]

end

/-! ## The registers that a level allows (R81 to R83) -/

section

variable (s : State) (t : Gtn) (b : Bundle)

theorem mfsr_done (q : Pred) (rd : Reg) (n : Nat) :
    (Effect.mk t q 4 3 (fun c => [(rd.val, s.srnRead t c n)]) (fun _ => []) (fun _ => false)).Done b s
      ((placed s t b 4).wrReg t 3 rd (s.srnRead t b.old n)) := by
  have th : ((placed s t b 4).wrReg t 3 rd (s.srnRead t b.old n)).th t =
      (afterSyl (s.th t) b 4 id).wrReg 3 rd (s.srnRead t b.old n) := by simp [State.wrReg]
  refine done_of_thread (onlyThread_trans (onlyThread_placed ..) (onlyThread_modTh ..)) ?regs ?preds rfl ?st ?bun ?rest
  all_goals dsimp only; rw [th]
  case regs => exact fun r => (rd_wrReg (x := afterSyl (s.th t) b 4 id) rfl 3 _ r rd :)
  case preds => exact fun p => wrReg_rdP ..
  case st => exact wrReg_st ..
  case bun => exact wrReg_bun ..
  case rest => exact sameButOperands_trans (sameButOperands_afterSyl ..) (sameButOperands_wrReg ..)

/-- What the rule gives an MTSR that writes a register of the thread: its context becomes `c`, and nothing else changes but its place and the
stored parity. -/
def Puts (c : Ctx) (s' : State) : Prop :=
  OnlyThread t s s' ∧ (s'.th t).ctx = c ∧ { s'.th t with ctx := (s.th t).ctx, bun := (s.th t).bun, par := (s.th t).par } = s.th t

theorem puts_srnWrite {n : Nat} (v : Word) (h : n ≠ 0xA) :
    Puts s t (mtsrCtx (s.th t).ctx b.sov (s.strictOf t) n v) ((placed s t b 4).srnWrite t n v) := by
  have strict : (placed s t b 4).strictOf t = s.strictOf t := by simp only [State.strictOf, placed_th]; rfl
  rw [srnWrite_of_ne_sched _ _ _ _ h, strict, placed_bunOf]
  refine ⟨onlyThread_trans (onlyThread_placed ..) (onlyThread_setTh ..), ?ctx, ?rest⟩
  case ctx => simp [afterSyl]
  case rest => simp [afterSyl]

end

/-- The condition of both entries: the register is assigned, and the level is at least the one that it asks for. -/
theorem assigned_and_level {n lo pl : Nat} (allowed : (srnAssigned n && decide (lo ≤ pl)) = true) :
    srnAssigned n = true ∧ ¬ pl < lo := by
  simpa using allowed

theorem systemRegisterRule_holds : systemRegisterRule.Holds := by
  intro i s P entry spelled
  unfold systemRegisterRule at entry
  split at entry
  case h_1 t q rd srn =>
    obtain ⟨b, runs, entry⟩ := running_eq_some entry
    obtain ⟨allowed, rfl⟩ := given_eq_some.1 entry
    obtain ⟨assigned, high⟩ := assigned_and_level allowed
    refine ⟨_, exec_mfsr runs rd assigned spelled, ?_⟩
    rw [if_neg high]
    exact mfsr_done ..
  case h_2 t q srn rd =>
    obtain ⟨b, runs, entry⟩ := running_eq_some entry
    obtain ⟨allowed, rfl⟩ := given_eq_some.1 entry
    obtain ⟨assigned, high⟩ := assigned_and_level allowed
    have noFault : ¬ mtsrFaults srn.toNat (level b) = true := by rwa [mtsrFaults_eq, decide_eq_true_iff]
    refine ⟨_, exec_mtsr runs rd assigned spelled, ?_⟩
    rw [if_neg noFault]
    by_cases readOnly : srnReadOnly srn.toNat = true
    · rw [if_pos readOnly, if_pos readOnly]
      exact ⟨onlyThread_placed .., placed_th ..⟩
    · rw [if_neg readOnly, if_neg readOnly]
      by_cases sched : srn.toNat = 0xA
      · rw [if_pos sched, sched, srnWrite_sched]
        refine ⟨?last, ?place, ?frame⟩
        case last => simp [State.modCore, core_setCore, coreOf]
        case place => rw [modCore_th, placed_th]
        case frame => exact setTh_modCore_frame ..
      · rw [if_neg sched]
        have puts := puts_srnWrite s t b (b.old.rd rd) sched
        simp only [mtsrCtx, apply_ite (Puts s t)] at puts
        exact puts
  case h_3 => cases entry

/-- Settles O24: the rule of the registers that the level allows, and the rule of what it does not. -/
theorem systemRegisters : Obligations.SystemRegisters :=
  ⟨systemRegisterRule_holds, privilegeRule_holds⟩

end Sys2Proof.Proofs

/-! PROOFS. A sleep entry that finds a store buffer not empty (R198, R405). -/

namespace Sys2Proof.Proofs

open Sys2Proof.Machine Sys2Proof.Rules

section

variable {s : State} {k : Nat} (entering : s.pwr.sleep = .entering k) (light : k ≤ 2)
include entering light

/-- R198: S1 and S2 are entered only with every store buffer empty, so until then the end of entry changes nothing. -/
theorem exec_sleepEntryDone_of_buffered (buffered : s.cores.any (fun c => !c.2.sb.isEmpty) = true) :
    exec .sleepEntryDone s = .next s := by
  change execSleepEntryDone s = .next s
  simp [execSleepEntryDone, entering, if_pos (And.intro light buffered), ok]

/-- With no wake held, the rule has the device asleep after the end of entry, whatever its store buffers hold. -/
theorem sleepRule_sleepEntryDone_asleep (noWake : s.pwr.heldWake = none) :
    ∃ P, sleepRule .sleepEntryDone s = some P ∧ ∀ s', P s' → s'.pwr.sleep = .asleep k := by
  unfold sleepRule
  simp only [entering, noWake, if_pos light]
  refine ⟨_, rfl, ?_⟩
  rintro s' ⟨asleep, -⟩
  exact asleep

end

/-- Thread 0 waits behind a store that its core has buffered, and the device is entering S1. -/
def enteringWithStore : State :=
  { State.reset with
    dom := [(2, .on)]
    thr := [(0, { state := .wait })]
    cores := [(0, { sb := [{ gtn := 0, order := 0, op := .store, pa := 0x1000, data := [1, 2, 3, 4, 5, 6, 7, 8] }] })]
    pwr := { sleep := .entering 1, mask := 0x7FE } }

/-- Refutes O51: while a store is buffered the device stays entering S1 (R198), where the statement has it asleep at every end of entry
that finds no wake held. -/
theorem not_sleep : ¬ Obligations.Sleep := by
  intro holds
  have light : 1 ≤ 2 := by decide
  have stays : exec .sleepEntryDone enteringWithStore = .next enteringWithStore :=
    exec_sleepEntryDone_of_buffered rfl light rfl
  obtain ⟨P, entry, asleep⟩ := sleepRule_sleepEntryDone_asleep (s := enteringWithStore) rfl light rfl
  obtain ⟨s', ran, after⟩ := holds .sleepEntryDone enteringWithStore P entry rfl
  rw [stays, Host.Outcome.next.injEq] at ran
  rw [← ran] at after
  cases asleep _ after

end Sys2Proof.Proofs

/-! PROOFS. What the operations of the coherent fabric leave alone (R192 to R204, R217, R331, R340): events and stored errors move no
line and no message, and an L2 or a slice that gives up a line moves no record of
a home. Then what setting an agent's line or a home's record, sending and taking a message do change. -/

namespace Sys2Proof.Proofs

open Sys2Proof.Machine Sys2Proof.Rules Sys2Proof.Laws

/-! ## Frames -/

theorem movesStates_of_thr {s s' : State} (mem : s'.mem = s.mem) (thr : s'.thr = s.thr) (tlbs : s'.tlbs = s.tlbs) (hm : s'.hm = s.hm) :
    MovesStates s s' :=
  ⟨mem, fun u => by rw [State.th, State.th, thr], tlbs, hm⟩

theorem movesStates_trans {a b c : State} (h : MovesStates a b) (k : MovesStates b c) : MovesStates a c := by
  obtain ⟨mem, ctx, tlbs, hm⟩ := h
  obtain ⟨mem', ctx', tlbs', hm'⟩ := k
  exact ⟨mem'.trans mem, fun u => (ctx' u).trans (ctx u), tlbs'.trans tlbs, hm'.trans hm⟩

theorem movesStates_modCoh (s : State) (f : Coh → Coh) : MovesStates s (s.modCoh f) := ⟨rfl, fun _ => rfl, rfl, rfl⟩

/-- What records, counts, the log, poison marks and stored errors leave alone: the fabric, memory and the threads. -/
structure Aside (s s' : State) : Prop where
  mem : s'.mem = s.mem
  thr : s'.thr = s.thr
  tlbs : s'.tlbs = s.tlbs
  hm : s'.hm = s.hm
  coh : s'.coh = s.coh

/-- What caches leave alone when they take or give up lines: agents' states, homes' records, messages and dead agents, and what every
message leaves alone. -/
structure Calm (s s' : State) : Prop where
  agents : s'.coh.agents = s.coh.agents
  homes : s'.coh.homes = s.coh.homes
  msgs : s'.coh.msgs = s.coh.msgs
  dead : s'.coh.dead = s.coh.dead
  moves : MovesStates s s'

theorem Aside.refl (s : State) : Aside s s := ⟨rfl, rfl, rfl, rfl, rfl⟩

theorem Aside.trans {a b c : State} (h : Aside a b) (k : Aside b c) : Aside a c :=
  ⟨k.mem.trans h.mem, k.thr.trans h.thr, k.tlbs.trans h.tlbs, k.hm.trans h.hm, k.coh.trans h.coh⟩

theorem Aside.ite {s u v : State} {p : Prop} [Decidable p] (hu : Aside s u) (hv : Aside s v) : Aside s (if p then u else v) := by
  split
  · exact hu
  · exact hv

theorem Aside.calm {s s' : State} (h : Aside s s') : Calm s s' where
  agents := by rw [h.coh]
  homes := by rw [h.coh]
  msgs := by rw [h.coh]
  dead := by rw [h.coh]
  moves := movesStates_of_thr h.mem h.thr h.tlbs h.hm

theorem Aside.staleOf {s s' : State} (h : Aside s s') (k line : Nat) : s'.staleOf k line = s.staleOf k line := by
  rw [State.staleOf, State.staleOf, h.coh]

theorem Calm.refl (s : State) : Calm s s := (Aside.refl s).calm

theorem Calm.trans {a b c : State} (h : Calm a b) (k : Calm b c) : Calm a c :=
  ⟨k.agents.trans h.agents, k.homes.trans h.homes, k.msgs.trans h.msgs, k.dead.trans h.dead, movesStates_trans h.moves k.moves⟩

theorem Calm.ite {s u v : State} {p : Prop} [Decidable p] (hu : Calm s u) (hv : Calm s v) : Calm s (if p then u else v) := by
  split
  · exact hu
  · exact hv

theorem Calm.aline {s s' : State} (h : Calm s s') (a line : Nat) : s'.aline a line = s.aline a line := by
  rw [State.aline, State.aline, h.agents]

theorem Calm.home {s s' : State} (h : Calm s s') (line : Nat) : s'.home line = s.home line := by
  rw [State.home, State.home, h.homes]

theorem Calm.agentDead {s s' : State} (h : Calm s s') (a : Nat) : s'.agentDead a = s.agentDead a := by
  rw [State.agentDead, State.agentDead, h.dead]

/-! ## Events, counts and stored errors -/

section

variable (s : State)

theorem aside_of_quiet {s s' : State} (h : Quiet s s') : Aside s s' := ⟨h.mem, h.thr, h.tlbs, h.hm, h.coh⟩

theorem aside_count (g r : Nat) : Aside s (s.count g r) :=
  ⟨count_mem .., count_thr .., count_tlbs .., count_hm .., count_coh ..⟩

theorem aside_setFlips (w : Nat) (f : BitVec 72) : Aside s (s.setFlips w f) := ⟨rfl, rfl, rfl, rfl, rfl⟩

theorem aside_dropFlips (k line : Nat) : Aside s (s.dropFlips k line) := ⟨rfl, rfl, rfl, rfl, rfl⟩

theorem aside_setReg (a : Nat) (v : W32) : Aside s (s.setReg a v) := ⟨rfl, rfl, rfl, rfl, rfl⟩

theorem aside_poisonWords (b : Bool) (n : Nat) : ∀ (s : State) (a : Nat), Aside s (s.poisonWords a b n) := by
  induction n with
  | zero => exact fun s _ => Aside.refl s
  | succ n ih =>
    intro s a
    have mark : Aside s (s.setPoison a b) := ⟨rfl, rfl, rfl, rfl, rfl⟩
    exact mark.trans (ih ..)

theorem aside_logErr (source kind : Nat) (gtn : Option Nat) (berth addr w6 w7 : Nat) :
    Aside s (s.logErr source kind gtn berth addr w6 w7) := by
  unfold State.logErr
  refine Aside.trans ?_ (aside_of_quiet (quiet_signal ..))
  exact ⟨rfl, rfl, rfl, rfl, rfl⟩

theorem aside_eccEvent (served : List Nat) (at_ flags sig src v line : Nat) : Aside s (s.eccEvent served at_ flags sig src v line) := by
  have recorded := aside_of_quiet (quiet_record s at_ flags (some sig))
  exact .ite (recorded.trans (aside_of_quiet (quiet_setRegs ..))) recorded

theorem aside_l2Perf (a code : Nat) : Aside s (s.l2Perf a code) := by
  exact .ite (aside_of_quiet (quiet_perfEvent ..)) (.refl s)

theorem aside_slcPerf (line code : Nat) : Aside s (s.slcPerf line code) := aside_of_quiet (quiet_perfEvent ..)

theorem aside_poisonLine (line agent flag : Nat) : Aside s (s.poisonLine line agent flag) :=
  (aside_poisonWords true 8 s _).trans (aside_of_quiet (quiet_recordCap ..))

/-- R204: an erroneous word is recorded and counted twice, repaired or lost, and poisons the line where the copy is dirty. -/
theorem aside_copyWord (k line core cls : Nat) (scrub dirty : Bool) (e : Nat × Nat × Bool) :
    Aside s (s.copyWord k line core cls scrub dirty e).2 := by
  unfold State.copyWord
  extract_lets how recorded counted kept
  have hrecorded : Aside s recorded :=
    .ite ((aside_eccEvent ..).trans (aside_count ..)) ((aside_eccEvent ..).trans (aside_count ..))
  have hcounted : Aside s counted := hrecorded.trans (aside_count ..)
  have hkept : Aside s kept := .ite hcounted (hcounted.trans (aside_setFlips ..))
  split
  · exact hkept
  · split
    · exact hkept.trans (aside_poisonLine ..)
    · exact hkept

theorem aside_copyRead (k line core cls : Nat) (scrub dirty : Bool) : Aside s (s.copyRead k line core cls scrub dirty).2 :=
  List.foldlRecOn (motive := fun r : Bool × State => Aside s r.2) _ _ (Aside.refl s)
    fun r h e _ => h.trans (aside_copyWord r.2 k line core cls scrub dirty e)

theorem aside_l2Out (a line : Nat) : Aside s (s.l2Out a line) := by
  exact .ite (aside_copyRead ..) (.refl s)

theorem aside_codeLine (line : Nat) : Aside s ((List.range 8).foldl (fun s i => s.setFlips (line * 8 + i) 0) s) :=
  List.foldlRecOn (motive := Aside s) _ _ (Aside.refl s) fun u h _ _ => h.trans (aside_setFlips u ..)

/-- R331, R332, R338: a protected line gets its check bytes and an armed injection, an unprotected one loses its marks. -/
theorem aside_dramWrite (line : Nat) : Aside s (s.dramWrite line) := by
  unfold State.dramWrite
  extract_lets counted coded _ _ _ _ _ unmarked lost
  have hcounted : Aside s counted := .ite (aside_of_quiet (quiet_perfEvent ..)) (.refl s)
  have hcoded : Aside s coded := hcounted.trans (aside_codeLine ..)
  have hlost : Aside s lost :=
    hcounted.trans (((aside_poisonWords ..).trans (aside_eccEvent ..)).trans ((aside_count ..).trans (aside_count ..)))
  refine .ite hcounted (.ite (.ite ?injected hcoded) (.ite ?dropped hcounted))
  case injected => exact hcoded.trans ((aside_setReg ..).trans (aside_setFlips ..))
  case dropped => exact hlost.trans (aside_logErr ..)

end

/-! ## Caches that take and give up lines -/

section

variable (s : State)

theorem calm_setStale (k line : Nat) (bs : List Byte) : Calm s (s.setStale k line bs) :=
  ⟨rfl, rfl, rfl, rfl, movesStates_modCoh ..⟩

theorem calm_setCset (c : CacheId) (line : Nat) (x : CSet) : Calm s (s.setCset c line x) :=
  ⟨rfl, rfl, rfl, rfl, movesStates_modCoh s fun h => { h with sets := Tbl.set _ h.sets (c.key (c.index line)) x }⟩

theorem calm_leaveL1 (core line : Nat) : Calm s (s.leaveL1 core line) := ⟨rfl, rfl, rfl, rfl, movesStates_modCoh ..⟩

theorem unlinkFrom_ctx (x : Thread) (line : Nat) : (x.unlinkFrom line).ctx = x.ctx := by
  unfold Thread.unlinkFrom
  split
  · split <;> rfl
  · rfl

theorem calm_unlinkFrom (t line : Nat) : Calm s (s.modTh t fun x => x.unlinkFrom line) where
  agents := rfl
  homes := rfl
  msgs := rfl
  dead := rfl
  moves := by
    refine ⟨rfl, fun u => ?_, rfl, rfl⟩
    rw [th_modTh]
    split
    · next same => rw [unlinkFrom_ctx, same]
    · rfl

/-- R192, R194, R127: the line leaves the cluster's L1s, and the links of its threads to it are cleared. -/
theorem calm_leaveL2 (a line : Nat) : Calm s (s.leaveL2 a line) := by
  unfold State.leaveL2
  extract_lets old fresh bare
  have hold : Calm s old := calm_setStale ..
  have hfresh : Calm s fresh := hold.trans (aside_dropFlips ..).calm
  have hbare : Calm s bare :=
    List.foldlRecOn (motive := Calm s) _ _ hfresh fun u h c _ => h.trans (calm_leaveL1 u (4 * a + c) line)
  refine .ite ?cluster hold
  exact List.foldlRecOn (motive := Calm s) _ _ hbare fun u h t _ => h.trans (.ite (calm_unlinkFrom ..) (.refl u))

theorem calm_slcMove (line : Nat) (x : Slc) : Calm s (s.slcMove line x) := by
  unfold State.slcMove
  extract_lets _ moved written
  have hmoved : Calm s moved := ⟨rfl, rfl, rfl, rfl, movesStates_modCoh ..⟩
  have hwritten : Calm s written := hmoved.trans (.ite (aside_dramWrite ..).calm (.refl _))
  exact .ite (hwritten.trans ((aside_dropFlips ..).calm.trans (calm_setStale ..))) hwritten

/-- R191, R195: a line moves in its slice, and the one that gives it its way leaves. -/
theorem calm_setSlc (line : Nat) (x : Slc) : Calm s (s.setSlc line x) := by
  unfold State.setSlc
  extract_lets held clear c
  have hclear : Calm s clear := .ite (aside_dropFlips ..).calm (.refl s)
  refine .ite (.ite (aside_codeLine ..).calm (.refl s)) (.ite (hclear.trans (calm_slcMove ..)) ?_)
  have placed {u : State} (h : Calm clear u) (y : CSet) : Calm s ((u.setCset c line y).slcMove line held) :=
    hclear.trans (h.trans ((calm_setCset ..).trans (calm_slcMove ..)))
  split
  · exact placed (.refl _) _
  · exact placed (.refl _) _
  · exact placed (calm_slcMove ..) _
  · exact hclear

end

/-! ## What a slice holds (R191, R195) -/

section

variable (s : State)

theorem slcOf_slcMove (line : Nat) (x : Slc) : (s.slcMove line x).slcOf line = x := by
  unfold State.slcMove
  extract_lets _ moved written
  have hmoved : moved.slcOf line = x := Tbl.get_set_self ..
  have hwritten : written.slcOf line = x := by
    have aside : Aside moved written := .ite (aside_dramWrite ..) (.refl _)
    rw [State.slcOf, aside.coh]
    exact hmoved
  split <;> exact hwritten

/-- A cache that may give up every line has a way for any. -/
theorem touch_ne_full {c : CacheId} (ways : 0 < c.ways) (x : CSet) (line : Nat) (live : Nat → Bool) :
    c.touch x line live (fun _ => true) ≠ .full := by
  intro full
  unfold CacheId.touch at full
  dsimp only at full
  split at full
  · cases full
  · split at full
    · cases full
    · split at full
      · cases full
      · next noVictim =>
        refine List.find?_eq_none.1 noVictim _ (List.mem_map_of_mem (List.mem_range.2 ways)) ?_
        split <;> rfl

/-- R191: the data of a line that is neither quay SRAM nor flash stay in its slice. -/
theorem slcOf_setSlc_dirty {line : Nat} (quay : s.quayLine line = false) (flash : flashLine line = false) :
    (s.setSlc line .dirty).slcOf line = .dirty := by
  unfold State.setSlc
  extract_lets held clear c
  have hheld : held = .dirty := by simp [held, flash]
  rw [if_neg (by simp [quay]), if_neg (by simp [hheld])]
  split
  · rw [slcOf_slcMove, hheld]
  · rw [slcOf_slcMove, hheld]
  · rw [slcOf_slcMove, hheld]
  · next full => exact absurd full (touch_ne_full (c := c) (by decide : 0 < 12) _ _ _)

end

/-! ## Messages, agents and homes (R217, R220, R223) -/

section

variable {s s' u v : State} {a line : Nat} {ms : List Msg}

/-- The agent has its line in `st`, and `ms` are sent. -/
def AgentTo (s : State) (a line : Nat) (st : LSt) (ms : List Msg) (s' : State) : Prop :=
  (s'.aline a line).st = st ∧ s'.coh.msgs = s.coh.msgs ++ ms ∧ MovesStates s s'

/-- The home's record of its line is `h`, and `ms` are sent. -/
def HomeTo (s : State) (line : Nat) (h : Home) (ms : List Msg) (s' : State) : Prop :=
  s'.home line = h ∧ s'.coh.msgs = s.coh.msgs ++ ms ∧ MovesStates s s'

theorem aline_setAline_self (s : State) (a line : Nat) (x : ALine) : (s.setAline a line x).aline a line = x := Tbl.get_set_self ..

theorem home_setHome_self (s : State) (line : Nat) (h : Home) : (s.setHome line h).home line = h := Tbl.get_set_self ..

theorem movesStates_send (s : State) (ms : List Msg) : MovesStates s (s.send ms) := movesStates_modCoh ..

theorem agentTo_send (before : Calm s u) {x : ALine} (after : Calm (u.setAline a line x) v) (ms : List Msg) :
    AgentTo s a line x.st ms (v.send ms) := by
  refine ⟨?state, ?sent, ?moves⟩
  case state => exact congrArg ALine.st ((after.aline a line).trans (aline_setAline_self ..))
  case sent => exact congrArg (· ++ ms) (after.msgs.trans before.msgs)
  case moves =>
    exact movesStates_trans before.moves (movesStates_trans (movesStates_modCoh ..) (movesStates_trans after.moves (movesStates_send ..)))

theorem AgentTo.calm {st : LSt} (h : AgentTo s a line st ms u) (k : Calm u v) : AgentTo s a line st ms v := by
  obtain ⟨state, sent, moves⟩ := h
  exact ⟨by rw [k.aline, state], k.msgs.trans sent, movesStates_trans moves k.moves⟩

theorem homeTo_setHome (before : Calm s u) (h : Home) : HomeTo s line h [] (u.setHome line h) :=
  ⟨home_setHome_self .., by rw [List.append_nil]; exact before.msgs, movesStates_trans before.moves (movesStates_modCoh ..)⟩

theorem HomeTo.calm {h : Home} (kept : HomeTo s line h ms u) (k : Calm u v) : HomeTo s line h ms v := by
  obtain ⟨record, sent, moves⟩ := kept
  exact ⟨(k.home line).trans record, k.msgs.trans sent, movesStates_trans moves k.moves⟩

theorem HomeTo.send {h : Home} (kept : HomeTo s line h [] u) (ms : List Msg) : HomeTo s line h ms (u.send ms) := by
  obtain ⟨record, sent, moves⟩ := kept
  rw [List.append_nil] at sent
  exact ⟨record, congrArg (· ++ ms) sent, movesStates_trans moves (movesStates_send ..)⟩

end

/-! ## Arrivals (R217) -/

theorem takeFirst_eq_some {f : Msg → Bool} {m : Msg} {r : List Msg} : ∀ {l : List Msg}, takeFirst f l = some (m, r) → f m = true
  | [], h => by cases h
  | x :: l, h => by
    unfold takeFirst at h
    split at h
    · next holds => cases h; exact holds
    · split at h
      · next rest => cases h; exact takeFirst_eq_some rest
      · cases h

/-- `m` is of the kind, agent and line asked for, and `s1` is `s` with other messages on their way. -/
structure Arrived (s : State) (k : MsgKind) (a line : Nat) (m : Msg) (s1 : State) : Prop where
  kind : m.kind = k
  agent : m.agent = a
  onLine : m.line = line
  taken : ∃ r, s1 = s.modCoh fun c => { c with msgs := r }

section

variable {s s1 : State} {k : MsgKind} {a line : Nat} {m : Msg}

theorem arrived_of_arrival {toHome : Bool} (arrives : s.arrival k a line toHome = some (m, s1)) : Arrived s k a line m s1 := by
  unfold State.arrival at arrives
  extract_lets same ready at arrives
  split at arrives
  case isFalse => cases arrives
  case isTrue =>
    split at arrives
    case h_2 => cases arrives
    case h_1 m' r taken =>
      cases arrives
      have asked : m.kind = k ∧ m.agent = a ∧ m.line = line := by
        have found := takeFirst_eq_some taken
        split at found
        · simpa [and_assoc] using found
        · simp only [same, Bool.and_eq_true, beq_iff_eq, and_assoc] at found
          obtain ⟨kind, agent, onLine, -⟩ := found
          exact ⟨kind, agent, onLine⟩
      obtain ⟨kind, agent, onLine⟩ := asked
      exact ⟨kind, agent, onLine, r, rfl⟩

variable (arrived : Arrived s k a line m s1)
include arrived

theorem Arrived.moves : MovesStates s s1 := by
  obtain ⟨r, rfl⟩ := arrived.taken
  exact movesStates_modCoh ..

theorem Arrived.agentDead (b : Nat) : s1.agentDead b = s.agentDead b := by
  obtain ⟨r, rfl⟩ := arrived.taken
  rfl

theorem Arrived.staleOf (b l : Nat) : s1.staleOf b l = s.staleOf b l := by
  obtain ⟨r, rfl⟩ := arrived.taken
  rfl

end

end Sys2Proof.Proofs

/-! PROOFS. Requests (R217, R221, R224, R226): the agent that sends one, the home that queues it and the home that takes it. -/

namespace Sys2Proof.Proofs

open Sys2Proof.Machine Sys2Proof.Rules Sys2Proof.Laws

/-! ## The agent -/

section

variable {s : State} {k : MsgKind} {a line : Nat}

theorem reqState_eq_asks (k : MsgKind) (st : LSt) : reqState st k = asks k st := by
  cases k <;> cases st <;> rfl

theorem agentWay_of_roomFor (room : roomFor s a line = true) :
    ∃ x, s.agentWay a line = some (s.setCset (agentCache a) line x) := by
  unfold roomFor at room
  unfold State.agentWay
  dsimp only at room ⊢
  split at room
  · next hit => exact ⟨_, by rw [hit]⟩
  · next fill => exact ⟨_, by rw [fill]⟩
  · cases room

/-- R217, R221: an agent that takes part, with a request left and room for the line, sends what its state asks for. -/
theorem agentSend_agentTo {st : LSt} (asked : asks k (s.aline a line).st = some st) (part : s.agentOut a = false)
    (may : agentAsks a k = true) (left : s.outstanding a (sliceOf line) < 4) (room : roomFor s a line = true) :
    AgentTo s a line st [{ kind := k, agent := a, line := line, req := a }] (s.agentSend k a line) := by
  obtain ⟨x, way⟩ := agentWay_of_roomFor room
  have sent : s.agentSend k a line =
      (((s.setCset (agentCache a) line x).setAline a line { st := st, once := k == .rdOnce }).send
        [{ kind := k, agent := a, line := line, req := a }]).l2Perf a 0x102 := by
    simp [State.agentSend, part, may, Nat.not_le.2 left, reqState_eq_asks, asked, way]
  rw [sent]
  exact (agentTo_send (calm_setCset ..) (.refl _) _).calm (aside_l2Perf ..).calm

theorem sendMaint_of_allowed (part : s.agentOut a = false) (left : s.outstanding a (sliceOf line) < 4)
    (here : (s.aline a line).st.leaving = false) (own : k = .clean ∨ (s.aline a line).st = .I) :
    (s.sendMaint k a line).2 = s.send [{ kind := k, agent := a, line := line, req := a }] := by
  have keeps : ¬ (k = .flush ∧ (s.aline a line).st ≠ .I) := by
    rintro ⟨rfl, held⟩
    exact held (own.resolve_left nofun)
  simp [State.sendMaint, part, Nat.not_le.2 left, here, keeps]

end

/-! ## The home -/

section

variable {s : State} {line : Nat} {q : HReq}

/-- R226: a home that is busy queues the request. -/
theorem homeArrive_homeTo_of_busy (busy : ((s.home line).busy != .idle || (s.home line).queue != []) = true) :
    HomeTo s line { s.home line with queue := (s.home line).queue ++ [q] } [] (s.homeArrive line q) := by
  have notIdle : ¬ ((s.home line).busy = .idle ∧ (s.home line).queue = []) := by
    rintro ⟨idle, empty⟩
    simp only [Bool.or_eq_true, bne_iff_ne] at busy
    exact busy.elim (· idle) (· empty)
  unfold State.homeArrive
  rw [if_neg notIdle]
  exact (homeTo_setHome (.refl s) _).calm (aside_slcPerf ..).calm

/-- R216, R226: an idle home acts on a request for which it has or needs no new entry, or has room. -/
theorem homeArrive_eq_homeAct (busy : (s.home line).busy = .idle) (queue : (s.home line).queue = [])
    (room : (s.home line).st = .I → q.kind = .getS ∨ q.kind = .getM ∨ q.kind = .getMZ → s.dirNeed line = .room) :
    s.homeArrive line q = s.homeAct line q := by
  have noNeed : (if (s.home line).st == .I && (q.kind == .getS || q.kind == .getM || q.kind == .getMZ) then s.dirNeed line
      else DirNeed.room) = .room := by
    split
    · next needs => exact room (by simp_all) (by simpa [or_assoc] using (Bool.and_eq_true_iff.1 needs).2)
    · rfl
  unfold State.homeArrive
  rw [if_pos ⟨busy, queue⟩]
  unfold State.homeTake
  dsimp only
  rw [noNeed]

/-- What R224's row of an idle home says of the next state. -/
def Leaves (s s1 : State) (line : Nat) (st : HSt) (owner : Nat) (sh : BitVec 13) (busy : HBusy) (sent : List Msg) (s' : State) : Prop :=
  (s'.home line).st = st ∧ (s'.home line).owner = owner ∧ (s'.home line).sh = sh ∧ (s'.home line).busy = busy ∧
  s'.coh.msgs = s1.coh.msgs ++ sent ∧ MovesStates s s'

theorem HomeTo.leaves {s1 s' : State} {h : Home} {ms : List Msg} (kept : HomeTo s1 line h ms s') (before : MovesStates s s1) :
    Leaves s s1 line h.st h.owner h.sh h.busy ms s' := by
  obtain ⟨record, sent, moves⟩ := kept
  simp only [Leaves, record, true_and]
  exact ⟨sent, movesStates_trans before moves⟩

end

section

variable {s u : State} {line : Nat} {h : Home} (before : Calm s u)
include before

theorem HomeTo.after_setHome {v : State} {h' : Home} {ms : List Msg} (kept : HomeTo (u.setHome line h) line h' ms v) :
    HomeTo s line h' ms v := by
  obtain ⟨record, sent, moves⟩ := kept
  exact ⟨record, sent.trans (congrArg (· ++ ms) before.msgs),
    movesStates_trans before.moves (movesStates_trans (movesStates_modCoh ..) moves)⟩

/-- R224: a Clean that waits for no answer is done at once. -/
theorem finishBr_setHome_homeTo {a : Nat} (alive : u.agentDead a = false) (forLine : Nat) :
    HomeTo s line { h with busy := .idle, owed := 0 } [{ kind := .done, agent := a, line := line, req := a }]
      ((u.setHome line h).finishBr line (some ⟨.clean, a⟩) forLine).1 := by
  unfold State.finishBr
  rw [home_setHome_self]
  extract_lets _ ended
  obtain ⟨v, written, calm⟩ : ∃ v, (if ended.slcOf line = .dirty then ended.setSlc line .clean else ended) = v ∧ Calm ended v :=
    ⟨_, rfl, .ite (calm_setSlc ..) (.refl ended)⟩
  have aliveThen : v.agentDead a = false := (calm.agentDead _).trans alive
  have keeps : MsgKind.clean ≠ .flush := by decide
  dsimp only
  rw [if_neg keeps, written, aliveThen]
  exact HomeTo.after_setHome before (((homeTo_setHome (.refl _) _).calm calm).send _)

/-- R224: the owner of a line that is flushed is recalled. -/
theorem startRecall_setHome_homeTo (owned : h.st = .X) (q : Option HReq) (forLine : Nat) :
    HomeTo s line { h with st := .I, busy := .br q forLine, owed := 1 } [{ kind := .recall, agent := h.owner, line := line }]
      ((u.setHome line h).startRecall line q forLine).1 := by
  unfold State.startRecall
  rw [home_setHome_self]
  dsimp only
  rw [owned]
  exact HomeTo.after_setHome before ((homeTo_setHome (.refl _) _).send _)

end

theorem calm_stamp (s : State) : Calm s (s.modCoh fun c => { c with stamp := c.stamp + 1 }) :=
  ⟨rfl, rfl, rfl, rfl, movesStates_modCoh ..⟩

section

variable {s s1 : State} {k : MsgKind} {a line : Nat} {m : Msg} {P : State → Prop}
  (arrives : s.arrival k a line false = some (m, s1)) (entry : homeTakes k a line s = some P)
include arrives entry

theorem idle_of_homeTakes : (s1.home line).busy = .idle ∧ (s1.home line).queue = [] := by
  unfold homeTakes at entry
  rw [arrives] at entry
  simpa using (Option.ite_none_left_eq_some.1 entry).1

theorem room_of_homeTakes (st : (s1.home line).st = .I) (needs : k = .getS ∨ k = .getM ∨ k = .getMZ) : s1.dirNeed line = .room := by
  unfold homeTakes at entry
  rw [arrives] at entry
  have row := (Option.ite_none_left_eq_some.1 entry).2
  rw [st] at row
  rcases needs with rfl | rfl | rfl
  all_goals exact (Option.ite_none_right_eq_some.1 row).1

theorem homeAct_meets_homeTakes : P (s1.homeAct line { kind := k, agent := a }) := by
  have arrived := arrived_of_arrival arrives
  have stays (h : Home) : HomeTo s1 line h [] _ := homeTo_setHome (line := line) (calm_stamp s1) h
  unfold homeTakes at entry
  rw [arrives] at entry
  have row := (Option.ite_none_left_eq_some.1 entry).2
  clear entry arrives
  unfold State.homeAct
  dsimp only at row ⊢
  split at row
  -- rows that send a message
  case h_1 st | h_2 st | h_7 st | h_8 st | h_11 st | h_12 st | h_15 st =>
    cases row
    rw [st]
    exact ((stays _).send _).leaves arrived.moves
  -- rows that read memory first
  case h_3 st | h_9 st | h_10 st =>
    cases row
    rw [st]
    exact (stays _).leaves arrived.moves
  -- rows that take a new entry: with a read of memory, and with a Grant
  case h_4 st | h_5 st =>
    obtain ⟨-, row⟩ := Option.ite_none_right_eq_some.1 row
    cases row
    rw [st]
    exact (stays _).leaves arrived.moves
  case h_6 st =>
    obtain ⟨-, row⟩ := Option.ite_none_right_eq_some.1 row
    cases row
    rw [st]
    exact ((stays _).send _).leaves arrived.moves
  -- a Clean with nothing to write back, and the recall of a Flush
  case h_13 st | h_14 st =>
    obtain ⟨alive, row⟩ := Option.ite_none_left_eq_some.1 row
    cases row
    rw [st]
    exact (finishBr_setHome_homeTo (calm_stamp s1) ((arrived.agentDead a).trans (eq_false_of_ne_true alive)) 0).leaves arrived.moves
  case h_16 st =>
    cases row
    exact (startRecall_setHome_homeTo (calm_stamp s1) (h := { s1.home line with stamp := s1.coh.stamp }) st _ 0).leaves arrived.moves
  case h_17 => cases row

end

/-! ## The commands of requests -/

section

variable {s : State} {k : MsgKind} {a : Fin 13} {line : Nat} {P : State → Prop}

/-- R217, R221: a request that is not on its way is sent. -/
theorem reqCommand_meets_of_none (arrives : s.arrival k a line false = none) (entry : request k a line s = some P) :
    P (s.reqCommand k a line) := by
  unfold request at entry
  unfold State.reqCommand
  rw [arrives] at entry ⊢
  dsimp only at entry ⊢
  split at entry
  case isTrue maint =>
    have isMaint : k.maint = true := by simpa [MsgKind.maint] using maint
    obtain ⟨allowed, rfl⟩ := given_eq_some.1 entry
    simp only [Bool.and_eq_true, Bool.not_eq_true', decide_eq_true_eq, Bool.or_eq_true, beq_iff_eq] at allowed
    obtain ⟨⟨⟨part, left⟩, here⟩, own⟩ := allowed
    rw [if_pos isMaint, sendMaint_of_allowed part left here own]
    exact ⟨rfl, rfl, movesStates_send ..⟩
  case isFalse request =>
    have notMaint : ¬ k.maint = true := by simpa [MsgKind.maint] using request
    split at entry
    case h_2 => cases entry
    case h_1 st asked =>
      obtain ⟨allowed, rfl⟩ := given_eq_some.1 entry
      simp only [Bool.and_eq_true, Bool.not_eq_true', decide_eq_true_eq] at allowed
      obtain ⟨⟨⟨part, may⟩, left⟩, room⟩ := allowed
      rw [if_neg notMaint]
      exact agentSend_agentTo asked part may left room

/-- R224, R226: one that is on its way reaches its home. -/
theorem reqCommand_meets_of_some {m : Msg} {s1 : State} (arrives : s.arrival k a line false = some (m, s1))
    (entry : (request k a line s).or (homeTakes k a line s) = some P) : P (s.reqCommand k a line) := by
  unfold State.reqCommand
  rw [arrives]
  rcases Option.or_eq_some_iff.1 entry with entry | ⟨-, entry⟩
  case inl =>
    unfold request at entry
    rw [arrives] at entry
    obtain ⟨busy, rfl⟩ := given_eq_some.1 entry
    obtain ⟨record, sent, moves⟩ := homeArrive_homeTo_of_busy busy
    exact ⟨record, sent.trans (List.append_nil _), movesStates_trans (arrived_of_arrival arrives).moves moves⟩
  case inr =>
    obtain ⟨busy, queue⟩ := idle_of_homeTakes arrives entry
    have acts := homeArrive_eq_homeAct (q := { kind := k, agent := a }) busy queue (room_of_homeTakes arrives entry)
    dsimp only
    rw [acts]
    exact homeAct_meets_homeTakes arrives entry

theorem reqCommand_meets (entry : (request k a line s).or (homeTakes k a line s) = some P) : P (s.reqCommand k a line) := by
  cases arrives : s.arrival k a line false with
  | some p => exact reqCommand_meets_of_some arrives entry
  | none =>
    have nothing : homeTakes k a line s = none := by
      unfold homeTakes
      rw [arrives]
    rw [nothing, Option.or_none] at entry
    exact reqCommand_meets_of_none arrives entry

end

/-- Settles O37: each of the six commands is `reqCommand` of its kind, whose entry `reqCommand_meets` gives. -/
theorem coherenceRequests : Obligations.CoherenceRequests := by
  intro i s P entry _
  unfold requestRule at entry
  split at entry
  case h_7 => cases entry
  all_goals exact ⟨_, rfl, reqCommand_meets entry⟩

end Sys2Proof.Proofs

/-! PROOFS. Forwards, invalidations and recalls at an agent, and Puts at the agent and at the home (R220 to R222, R224, R225, R228). -/

namespace Sys2Proof.Proofs

open Sys2Proof.Machine Sys2Proof.Rules Sys2Proof.Laws

/-! ## Puts (R221, R225) -/

/-- R221: the Put of a line that is held in a stable state, and the state in which the agent waits for its answer. -/
def putOf : LSt → Option (MsgKind × LSt)
  | .S => some (.putS, .SIa)
  | .E => some (.putE, .EIa)
  | .M => some (.putM, .MIa)
  | .O => some (.putO, .OIa)
  | _ => none

section

variable {s : State} {k : MsgKind} {a line : Nat}

theorem evict_agentTo {wait : LSt} (held : putOf (s.aline a line).st = some (k, wait)) (part : s.agentOut a = false) :
    AgentTo s a line wait [{ kind := k, agent := a, line := line, req := a }] (s.evict a line) := by
  have gone (k : MsgKind) (wait : LSt) := agentTo_send (a := a) (line := line) (aside_l2Out s a line).calm
    (x := { s.aline a line with st := wait, due := false }) (calm_leaveL2 _ a line) [{ kind := k, agent := a, line := line, req := a }]
  unfold State.evict
  rw [part]
  unfold putOf at held
  split at held
  case h_5 => cases held
  case h_1 st | h_2 st =>
    cases held
    simp only [st]
    exact gone ..
  case h_3 st | h_4 st =>
    cases held
    simp only [st]
    exact (gone ..).calm (aside_l2Perf ..).calm

/-- R225: a sharer leaves the record. -/
theorem homePut_putS (st : (s.home line).st = .S) (shares : (s.home line).sh.getLsbD a = true) :
    s.homePut .putS a line = (s.setHome line { s.home line with
        sh := shDel (s.home line).sh a, st := if shDel (s.home line).sh a = 0 then .I else .S }).send
      [{ kind := .putAck, agent := a, line := line, req := a }] := by
  simp [State.homePut, st, shares]

/-- R225: the owner leaves the record of a line that it alone holds, and its data reach the slice. -/
theorem homePut_owner (kind : k ≠ .putS) (st : (s.home line).st = .X) (owner : (s.home line).owner = a) :
    s.homePut k a line = ((if k = .putE then s else s.setSlc line .dirty).setHome line { s.home line with st := .I }).send
      [{ kind := .putAck, agent := a, line := line, req := a }] := by
  simp [State.homePut, kind, st, owner]

end

theorem putCommand_meets {s : State} {k : MsgKind} {st wait : LSt} {a : Fin 13} {line : Nat} {P : State → Prop}
    (row : putOf st = some (k, wait)) (entry : put k st wait a line s = some P) : P (s.putCommand k st a line) := by
  unfold put at entry
  unfold State.putCommand
  split at entry
  case h_1 arrives =>
    obtain ⟨allowed, rfl⟩ := given_eq_some.1 entry
    simp only [Bool.and_eq_true, beq_iff_eq, Bool.not_eq_true'] at allowed
    obtain ⟨held, part⟩ := allowed
    simp only [arrives, held, if_true]
    exact evict_agentTo (held.symm ▸ row) part
  case h_2 m s1 arrives =>
    simp only [arrives]
    dsimp only at entry
    split at entry
    case isTrue isPutS =>
      obtain ⟨allowed, rfl⟩ := given_eq_some.1 entry
      simp only [Bool.and_eq_true, beq_iff_eq] at allowed
      obtain ⟨shared, shares⟩ := allowed
      rw [isPutS, homePut_putS shared shares]
      obtain ⟨record, sent, -⟩ := (homeTo_setHome (.refl s1) _).send _
      exact ⟨congrArg Home.sh record, congrArg Home.st record, sent⟩
    case isFalse notPutS =>
      obtain ⟨allowed, rfl⟩ := given_eq_some.1 entry
      simp only [Bool.and_eq_true, beq_iff_eq] at allowed
      obtain ⟨⟨-, owner⟩, owned⟩ := allowed
      rw [homePut_owner notPutS owned owner]
      have slc : Calm s1 (if k = .putE then s1 else s1.setSlc line .dirty) := .ite (.refl s1) (calm_setSlc ..)
      obtain ⟨record, sent, -⟩ := (homeTo_setHome slc _).send _
      refine ⟨congrArg Home.st record, sent, fun notE quay flash => ?_⟩
      rw [if_neg notE]
      exact slcOf_setSlc_dirty s1 quay flash

/-! ## Forwards, invalidations and recalls (R221) -/

section

variable {s : State} {m : Msg} {st : LSt}

theorem fwdRead_agentTo (next : readForward (m.kind == .fwdGetS) (s.aline m.agent m.line).st = some st) :
    AgentTo s m.agent m.line st [readData s m] (s.fwdRead m) := by
  unfold State.fwdRead
  extract_lets u x data dest share
  have aside : Aside s u := (aside_l2Perf ..).trans (aside_l2Out ..)
  have same : x = s.aline m.agent m.line := aside.calm.aline ..
  have answer (st : LSt) : AgentTo s m.agent m.line st [readData s m] (dest st) := by
    have old : data = [readData s m] := by simp only [data, readData, aside.staleOf]
    exact old ▸ agentTo_send aside.calm (x := { x with st := st }) (.refl _) data
  rw [← same] at next
  generalize x.st = held at next ⊢
  unfold readForward at next
  split at next
  case h_8 => cases next
  all_goals
    cases next
    exact answer _

theorem fwdWrite_agentTo (next : writeForward (s.aline m.agent m.line).st = some st) :
    AgentTo s m.agent m.line st
      [{ kind := if m.kind = .fwdGetMZ then .grant else .data, agent := m.req, line := m.line, req := m.req, n := m.n, grant := .M }]
      (s.fwdWrite m) := by
  unfold State.fwdWrite
  extract_lets u x ans dest
  have aside : Aside s u := (aside_l2Perf ..).trans (aside_l2Out ..)
  have same : x = s.aline m.agent m.line := aside.calm.aline ..
  have answer (st : LSt) : AgentTo s m.agent m.line st ans (dest st) :=
    agentTo_send aside.calm (x := { x with st := st, due := false }) (calm_leaveL2 ..) ans
  rw [← same] at next
  generalize x.st = held at next ⊢
  unfold writeForward at next
  split at next
  case h_8 => cases next
  all_goals
    cases next
    exact answer _

theorem invalidated_agentTo (next : invalidate (s.aline m.agent m.line).st = some st) :
    AgentTo s m.agent m.line st [{ kind := .invAck, agent := m.req, line := m.line, req := m.req, toHome := m.toHome }]
      (s.invalidated m) := by
  unfold State.invalidated
  extract_lets x ans dest
  have answer (st : LSt) : AgentTo s m.agent m.line st ans (dest st) :=
    agentTo_send (.refl s) (x := { x with st := st }) (calm_leaveL2 ..) ans
  unfold invalidate at next
  split at next
  case h_1 none =>
    cases next
    simp only [x, none]
    exact ⟨none, rfl, movesStates_send ..⟩
  case h_6 => cases next
  all_goals
    next held =>
    cases next
    simp only [x, held]
    exact answer _

/-- R221, R228: a downgraded owner keeps the line as a sharer, any other gives it up. -/
theorem recalled_agentTo (next : recallTo (m.kind == .downgrade) (s.aline m.agent m.line).st = some st) :
    AgentTo s m.agent m.line st [{ kind := .recallData, agent := m.agent, line := m.line, req := m.agent }] (s.recalled m) := by
  unfold State.recalled
  extract_lets u x ans dest down
  have aside : Aside s u := aside_l2Out ..
  have same : x = s.aline m.agent m.line := aside.calm.aline ..
  have answer (st : LSt) : AgentTo s m.agent m.line st ans (dest st) := by
    have sent := agentTo_send (a := m.agent) (line := m.line) aside.calm (x := { x with st := st, due := false }) (.refl _) ans
    exact sent.calm (.ite (.refl _) (calm_leaveL2 ..))
  rw [← same] at next
  generalize x.st = held at next ⊢
  unfold recallTo at next
  split at next
  case h_8 => cases next
  all_goals
    cases next
    exact answer _

end

/-! ## The commands of forwards -/

section

variable {s : State} {k : MsgKind} {a : Fin 13} {line : Nat} {next : LSt → Option LSt} {ans : State → Msg → Msg} {P : State → Prop}
  {f : State → Msg → State} (entry : forward k next ans a line s = some P)
include entry

/-- R128, R222: no link's window and no access still to be performed holds the forward back. -/
theorem free_of_forward : (k = .fwdRdOnce ∨ s.linkHolds a line = false) ∧ s.owesAccess a line = false := by
  unfold forward at entry
  split at entry
  · cases entry
  · split at entry
    · cases entry
    · simpa using (given_eq_some.1 entry).1

variable (answers : ∀ {m : Msg} {s1 : State} {st : LSt}, Arrived s k a line m s1 → next (s1.aline m.agent m.line).st = some st →
  AgentTo s1 m.agent m.line st [ans s m] (f s1 m))
include answers

theorem deliver_meets_forward : P (s.deliver k a line false f) := by
  unfold forward at entry
  unfold State.deliver
  split at entry
  case h_1 => cases entry
  case h_2 m s1 arrives =>
    have arrived := arrived_of_arrival arrives
    simp only [arrives]
    split at entry
    case h_1 => cases entry
    case h_2 st held =>
      obtain ⟨-, rfl⟩ := given_eq_some.1 entry
      have answered := answers arrived (by rw [arrived.agent, arrived.onLine]; exact held)
      rw [arrived.agent, arrived.onLine] at answered
      obtain ⟨state, sent, moves⟩ := answered
      exact ⟨state, sent, movesStates_trans arrived.moves moves⟩

theorem deliverHeld_meets_forward (waits : k ≠ .fwdRdOnce) : P (s.deliverHeld k a line f) := by
  obtain ⟨link, access⟩ := free_of_forward entry
  unfold State.deliverHeld
  rw [link.resolve_left waits, access]
  exact deliver_meets_forward entry answers

end

section

variable {s s1 : State} {k : MsgKind} {a line : Nat} {m : Msg} {st : LSt} (arrived : Arrived s k a line m s1)
include arrived

/-- The bytes of a flash line that an owner answers with are those that it had (R211). -/
theorem fwdRead_answers {share : Bool} (kind : (k == .fwdGetS) = share) (held : readForward share (s1.aline m.agent m.line).st = some st) :
    AgentTo s1 m.agent m.line st [readData s m] (s1.fwdRead m) := by
  have answered : AgentTo s1 m.agent m.line st [readData s1 m] (s1.fwdRead m) := fwdRead_agentTo (by rw [arrived.kind, kind, held])
  simp only [readData, arrived.staleOf] at answered ⊢
  exact answered

theorem fwdWrite_answers {ans : MsgKind} (kind : (if k = .fwdGetMZ then .grant else .data) = ans)
    (held : writeForward (s1.aline m.agent m.line).st = some st) :
    AgentTo s1 m.agent m.line st [{ kind := ans, agent := m.req, line := line, req := m.req, n := m.n, grant := .M }]
      (s1.fwdWrite m) := by
  have answered := fwdWrite_agentTo held
  rw [arrived.kind, kind] at answered
  exact arrived.onLine ▸ answered

theorem recalled_answers {down : Bool} (kind : (k == .downgrade) = down)
    (held : recallTo down (s1.aline m.agent m.line).st = some st) :
    AgentTo s1 m.agent m.line st [{ kind := .recallData, agent := a, line := line, req := a }] (s1.recalled m) := by
  rw [← arrived.agent, ← arrived.onLine]
  exact recalled_agentTo (by rw [arrived.kind, kind, held])

end

/-- Settles O38: each forward is a delivery that answers by its table of R221, and each Put goes by `putCommand_meets`. -/
theorem coherenceForwards : Obligations.CoherenceForwards := by
  intro i s P entry _
  unfold forwardRule at entry
  split at entry
  -- Fwd-GetS; Fwd-RdOnce, which no link holds back; Fwd-GetM and Fwd-GetMZ; Inv; Recall and Downgrade; the Puts
  case h_1 => exact ⟨_, rfl, deliverHeld_meets_forward entry (fwdRead_answers · rfl) (by decide)⟩
  case h_2 a line =>
    have free := (free_of_forward entry).2
    refine ⟨_, rfl, ?_⟩
    rw [free]
    exact deliver_meets_forward entry (fwdRead_answers · rfl)
  case h_3 | h_4 => exact ⟨_, rfl, deliverHeld_meets_forward entry (fwdWrite_answers · rfl) (by decide)⟩
  case h_5 =>
    refine ⟨_, rfl, deliverHeld_meets_forward entry (fun arrived held => ?_) (by decide)⟩
    exact arrived.onLine ▸ invalidated_agentTo held
  case h_6 | h_7 => exact ⟨_, rfl, deliverHeld_meets_forward entry (recalled_answers · rfl) (by decide)⟩
  case h_8 | h_9 | h_10 | h_11 => exact ⟨_, rfl, putCommand_meets rfl entry⟩
  case h_12 => cases entry

end Sys2Proof.Proofs

/-! PROOFS. The scrubber of a memory that its checker's test keeps disabled (R335, R337). -/

namespace Sys2Proof.Proofs

open Sys2Proof.Machine Sys2Proof.Rules

/-- R337: a memory whose checker failed stays disabled, and nothing scrubs it. -/
theorem exec_scrubRead_of_disabled {s : State} {kind : Fin 4} {unit : Fin 16}
    (disabled : Tbl.get (fun _ => false) s.memOff ([1, 2, 3, 0].getD kind.val 0 * 256 + unit.val) = true) :
    exec (.scrubRead kind unit) s = .next s := by
  change execScrubRead kind unit s = .next s
  simp only [execScrubRead, whenOk, disabled, Bool.not_true, Bool.and_false, Bool.false_and, Bool.false_eq_true, if_false]

/-- The rule has the scrubber of a slice go to its next line whether or not the slice is disabled. -/
theorem upkeepRule_scrubRead_slice {s : State} (unit : Fin 16) (runs : s.frozen = false) (awake : s.pwr.sleep = .awake)
    (more : (s.scrub 1 unit).pos + 1 < scrubLines 1) (noLimit : s.lapLimit 1 = 0) (clean : s.dram.flips = []) :
    ∃ P, upkeepRule (.scrubRead 1 unit) s = some P ∧ ∀ s', P s' → (s'.scrub 1 unit).pos = (s.scrub 1 unit).pos + 1 := by
  refine ⟨_, given_eq_some.2 ⟨?holds, rfl⟩, fun s' after => after.1⟩
  simp [runs, awake, more, noLimit, clean, State.scrubFused]

/-- The device after the test of SLC slice 0, whose checker fails the first case. -/
def sliceDisabled : State := { State.reset with checkers := [(0x200, 1)] }.checkersTested [(2, 0)]

/-- Refutes O39: a slice that failed its checker's test is disabled and its scrubber rests (R337), where the statement has every scrub read
of a powered, thawed and awake memory move the scrubber's position. -/
theorem not_coherenceResponses : ¬ Obligations.CoherenceResponses := by
  rintro ⟨-, upkeep⟩
  have rests : exec (.scrubRead 1 0) sliceDisabled = .next sliceDisabled := exec_scrubRead_of_disabled (by decide)
  obtain ⟨P, entry, moves⟩ := upkeepRule_scrubRead_slice (s := sliceDisabled) 0 rfl rfl (by decide) rfl rfl
  obtain ⟨s', ran, after⟩ := upkeep _ _ P entry rfl
  rw [rests, Host.Outcome.next.injEq] at ran
  rw [← ran] at after
  exact absurd (moves _ after) (by decide)

end Sys2Proof.Proofs

/-! PROOFS. Which commands complete: all but PATTERN_MICRO_WORD at a vendor-only micro-word (R238, R239, R242). -/

namespace Sys2Proof.Proofs

open Sys2Proof.Machine

/-! ## Outcomes that are a next state -/

/-- An outcome that is neither a fault nor a refusal. -/
def Completes (o : Out) : Prop := ∃ s', o = .next s'

theorem completes_next (s : State) : Completes (.next s) := ⟨s, rfl⟩

theorem completes_ite {c : Prop} [Decidable c] {o o' : Out} (h : Completes o) (h' : Completes o') :
    Completes (if c then o else o') := by
  split
  · exact h
  · exact h'

/-- R66: a syllable that the bundle does not hold next still completes. -/
theorem completes_ask (s : State) (i : Instr) {o : Out} (h : Completes o) : Completes (s.ask i o) :=
  completes_ite h (completes_next s)

/-! ## Commands that ask what kind of work the state holds for them

Each of these matches on a part of the state before it answers; every branch of its definition answers a next state. -/

section

variable (s : State)

theorem execBundleBoundary_completes (t : Gtn) : Completes (execBundleBoundary t s) := by
  fun_cases execBundleBoundary <;> exact completes_next _

theorem execInterruptAccept_completes (t : Gtn) : Completes (execInterruptAccept t s) := by
  fun_cases execInterruptAccept <;> exact completes_next _

theorem execThreadHoldArrival_completes (t : Gtn) : Completes (execThreadHoldArrival t s) := by
  fun_cases execThreadHoldArrival <;> exact completes_next _

theorem execThreadContextResetDone_completes (t : Gtn) : Completes (execThreadContextResetDone t s) := by
  fun_cases execThreadContextResetDone <;> exact completes_next _

theorem execLineFillArrive_completes (t : Gtn) : Completes (execLineFillArrive t s) := by
  fun_cases execLineFillArrive <;> exact completes_next _

theorem execIflushComplete_completes (t : Gtn) : Completes (execIflushComplete t s) := by
  fun_cases execIflushComplete <;> exact completes_next _

theorem execStoreBufferDrain_completes (t : Gtn) (order : Nat) : Completes (execStoreBufferDrain t order s) := by
  fun_cases execStoreBufferDrain <;> exact completes_next _

theorem execTableWalkDone_completes (t : Gtn) : Completes (execTableWalkDone t s) := by
  fun_cases execTableWalkDone <;> exact completes_next _

theorem execTlbMaintenanceComplete_completes : Completes (execTlbMaintenanceComplete s) := by
  fun_cases execTlbMaintenanceComplete <;> exact completes_next _

theorem execRegisterAccessTimeout_completes (w : Waiter) : Completes (execRegisterAccessTimeout w s) := by
  fun_cases execRegisterAccessTimeout <;> exact completes_next _

theorem execEventRecordWrite_completes (rq : Req) (pa : Nat) (w : W32) : Completes (execEventRecordWrite rq pa w s) := by
  fun_cases execEventRecordWrite <;> exact completes_next _

theorem execReclaimComplete_completes : Completes (execReclaimComplete s) := by
  fun_cases execReclaimComplete <;> exact completes_next _

theorem execBerthResetComplete_completes (b : BerthId) : Completes (execBerthResetComplete b s) := by
  fun_cases execBerthResetComplete <;> exact completes_next _

theorem execDomainPowerLoss_completes (d : Fin 24) : Completes (execDomainPowerLoss d s) := by
  fun_cases execDomainPowerLoss <;> exact completes_next _

theorem execPmicVgoodRise_completes : Completes (execPmicVgoodRise s) := by
  fun_cases execPmicVgoodRise <;> exact completes_next _

theorem execVoltageStepTimeout_completes : Completes (execVoltageStepTimeout s) := by
  fun_cases execVoltageStepTimeout <;> exact completes_next _

theorem execSleepEntryDone_completes : Completes (execSleepEntryDone s) := by
  fun_cases execSleepEntryDone <;> exact completes_next _

theorem execSleepExitComplete_completes : Completes (execSleepExitComplete s) := by
  unfold execSleepExitComplete
  split
  · refine completes_ite ?_ (completes_next _)
    extract_lets
    split <;> exact completes_next _
  · exact completes_next _

theorem execIslandStart_completes : Completes (execIslandStart s) := by
  fun_cases execIslandStart <;> exact completes_next _

theorem execManifestCommit_completes : Completes (execManifestCommit s) := by
  fun_cases execManifestCommit <;> exact completes_next _

theorem execCanTxEnd_completes (k : Fin 24) (how : Fin 4) : Completes (execCanTxEnd k how s) := by
  fun_cases execCanTxEnd <;> exact completes_next _

theorem execGatewayFrameIn_completes : Completes (execGatewayFrameIn s) := by
  fun_cases execGatewayFrameIn <;> exact completes_next _

theorem execIslandRouteForward_completes : Completes (execIslandRouteForward s) := by
  fun_cases execIslandRouteForward <;> exact completes_next _

theorem execAcfAvtpduRx_completes (q : Fin 48) : Completes (execAcfAvtpduRx q s) := by
  fun_cases execAcfAvtpduRx <;> exact completes_next _

end

/-! ## The micro-word that is refused (R238, R239, R242) -/

/-- R238, R239, R242: the user pattern of a thread stands at a word with a vendor-only operation, destination or selector. -/
def AtVendorOnlyWord (s : State) (t : Gtn) : Prop :=
  ∃ p e, (s.th t).pat = some p ∧ p.kind = .user e ∧ vendorOnly (s.patWord (coreOf t) p.maddr) = true

/-- Of the branches of PATTERN_MICRO_WORD one refuses: a user pattern at a readable word that is vendor-only. -/
theorem execPatternMicroWord_completes_or_refuses (t : Gtn) (s : State) :
    Completes (execPatternMicroWord t s) ∨
      execPatternMicroWord t s = .refused .vendorMicroWord ∧ AtVendorOnlyWord s t := by
  fun_cases execPatternMicroWord
  case case5 _ p _ _ pat _ _ _ e kind refuses =>
    obtain ⟨-, vendor⟩ := Bool.and_eq_true_iff.1 refuses
    exact .inr ⟨rfl, p, e, pat, kind, vendor⟩
  all_goals exact .inl (completes_next _)

/-! ## Every command -/

/-- A syllable answers what its bundle asks of it; UCALL alone chooses among effects, by the fault that its entry raises (R247). -/
theorem exec_completes_of_syllable {i : Instr} (syllable : (sylCode i).isSome = true) (s : State) : Completes (exec i s) := by
  cases i
  all_goals cases syllable
  case ucall =>
    refine completes_ask _ _ ?_
    split
    · exact completes_next _
    · refine completes_ite ?_ (completes_next _)
      extract_lets
      split <;> exact completes_next _
  all_goals exact completes_ask _ _ (completes_next _)

/-- The commands that are no syllable: those with a lemma above, those that choose by conditions, and those of one effect. -/
theorem exec_completes_of_not_syllable {i : Instr} (noSyllable : (sylCode i).isSome = false)
    (notMicroWord : ∀ t, i ≠ .patternMicroWord t) (s : State) : Completes (exec i s) := by
  cases i
  all_goals cases noSyllable
  case patternMicroWord t => exact absurd rfl (notMicroWord t)
  case bundleBoundary => exact execBundleBoundary_completes ..
  case interruptAccept => exact execInterruptAccept_completes ..
  case threadHoldArrival => exact execThreadHoldArrival_completes ..
  case threadContextResetDone => exact execThreadContextResetDone_completes ..
  case lineFillArrive => exact execLineFillArrive_completes ..
  case iflushComplete => exact execIflushComplete_completes ..
  case storeBufferDrain => exact execStoreBufferDrain_completes ..
  case tableWalkDone => exact execTableWalkDone_completes ..
  case tlbMaintenanceComplete => exact execTlbMaintenanceComplete_completes s
  case registerAccessTimeout => exact execRegisterAccessTimeout_completes ..
  case eventRecordWrite => exact execEventRecordWrite_completes ..
  case reclaimComplete => exact execReclaimComplete_completes s
  case berthResetComplete => exact execBerthResetComplete_completes ..
  case domainPowerLoss => exact execDomainPowerLoss_completes ..
  case pmicVgoodRise => exact execPmicVgoodRise_completes s
  case voltageStepTimeout => exact execVoltageStepTimeout_completes s
  case sleepEntryDone => exact execSleepEntryDone_completes s
  case sleepExitComplete => exact execSleepExitComplete_completes s
  case islandStart => exact execIslandStart_completes s
  case manifestCommit => exact execManifestCommit_completes s
  case canTxEnd => exact execCanTxEnd_completes ..
  case gatewayFrameIn => exact execGatewayFrameIn_completes s
  case islandRouteForward => exact execIslandRouteForward_completes s
  case acfAvtpduRx => exact execAcfAvtpduRx_completes ..
  case dramTemperatureRead | domainReady | domainIdleOff | supplyDip | thermalSample | thermalStage2Check | wakePortMatch |
      dramTrainingDone | debugRequest | ethernetFrameRx | ethernetFrameTxDone | gateControlAdvance | tableAccessDone | fdbAgeing |
      frerResetTimer | linkChange | preemptionVerifyDone | txDescriptorDone | rxDescriptorDone | pcieLinkDown | pcieLinkUp |
      msiPendingSend | canFrameRx | canBusError | canBusoffRecovery | canBusIntegrated | linScheduleSlot | busFrameRx |
      busTransferDone | gpioEdge | pduBufferPeriod | acfWindowExpiry =>
    repeat' apply completes_ite
    all_goals exact completes_next _
  all_goals exact completes_next _

theorem exec_completes {i : Instr} (notMicroWord : ∀ t, i ≠ .patternMicroWord t) (s : State) : Completes (exec i s) := by
  cases h : (sylCode i).isSome with
  | true => exact exec_completes_of_syllable h s
  | false => exact exec_completes_of_not_syllable h notMicroWord s

theorem exec_completes_or_refuses (i : Instr) (s : State) :
    Completes (exec i s) ∨ exec i s = .refused .vendorMicroWord ∧ ∃ t, i = .patternMicroWord t := by
  by_cases h : ∃ t, i = .patternMicroWord t
  · obtain ⟨t, rfl⟩ := h
    exact (execPatternMicroWord_completes_or_refuses t s).imp_right fun ⟨refused, _⟩ => ⟨refused, t, rfl⟩
  · exact .inl (exec_completes (not_exists.1 h) s)

/-- Settles O7: a command answers a next state or the one refusal (`exec_completes_or_refuses`), which none but PATTERN_MICRO_WORD can
answer (`exec_completes`), and it only at a vendor-only word (`execPatternMicroWord_completes_or_refuses`). -/
theorem onlyMicroWordsRefuse : Obligations.OnlyMicroWordsRefuse := by
  refine ⟨fun i s => ?outcome, fun i s notMicroWord => exec_completes notMicroWord s, fun t s plain => ?microWord⟩
  case outcome =>
    obtain ⟨s', ran⟩ | ⟨refused, word⟩ := exec_completes_or_refuses i s
    · rw [ran]
      exact ⟨nofun, nofun⟩
    · rw [refused]
      exact ⟨nofun, fun r answer => ⟨(Host.Outcome.refused.inj answer).symm, word⟩⟩
  case microWord =>
    refine (execPatternMicroWord_completes_or_refuses t s).resolve_right ?_
    rintro ⟨-, p, e, pat, kind, vendor⟩
    exact absurd vendor (by simp [plain p e pat kind])

end Sys2Proof.Proofs

/-! PROOFS. A delivery to a cluster whose domain is not on (R261, R265), and why it asks for none after thermal shutdown (R416). -/

namespace Sys2Proof.Proofs

open Sys2Proof.Machine Sys2Proof.Rules

section

variable {s : State} {e : Fin 2560}
  (on : s.routeOn e = true) (unmasked : bit (s.rteCfg e) 30 = false) (pends : bit (s.rteStat e) 18 = true)
  (runs : s.frozen = false) (noFreeze : s.frzReq = false) (awake : s.pwr.sleep = .awake) (noFlip : s.routeFlip e = 0)
  (valid : s.rteValid (s.rteCfg e) = true) (notOn : s.domain (2 + bits (s.rteCfg e) 9 0 / 128) ≠ .on)
include on unmasked pends runs noFreeze awake noFlip valid notOn

/-- The rule has a delivery that finds its target's domain not on ask for that domain and do nothing else. -/
theorem routerRule_routeDelivery_notOn : routerRule (.routeDelivery e) s = some fun s' =>
    flag s'.domReq (2 + bits (s.rteCfg e) 9 0 / 128) = true ∧ { s' with domReq := s.domReq } = s := by
  simp [routerRule, given, on, unmasked, pends, runs, noFreeze, awake, noFlip, valid, notOn]

theorem exec_routeDelivery_notOn :
    exec (.routeDelivery e) s = .next (s.wakeDomain (2 + bits (s.rteCfg e) 9 0 / 128)) := by
  have used : s.routeUse e = s := if_pos noFlip
  change ok (s.routeDeliver e) = _
  simp [State.routeDeliver, used, on, rteMask, unmasked, pends, runs, noFreeze, awake, valid, rteGtn, notOn, ok]

end

/-- A signal of source 8 is pending, for a wake of the waiting thread 0, when thermal shutdown turns every cluster off: the route and its
target stay as they were. -/
def shutWithWakePending : State :=
  State.thermalShut { State.reset with
    thr := [(0, { state := .wait })], regs := [(routeAddr 8, 0x80000000), (routeAddr 8 + 4, 0x00140000)] }

/-- Refutes O40: thermal shutdown leaves the clusters off and the device does not wake them again (R416), so a delivery to a thread of one
asks for nothing, while the statement says of every domain that is not on that the delivery asks for it. -/
theorem not_eventRouter : ¬ Obligations.EventRouter := by
  intro h
  let s := shutWithWakePending
  have on : s.routeOn 8 = true := by decide
  have unmasked : bit (s.rteCfg 8) 30 = false := by decide
  have pends : bit (s.rteStat 8) 18 = true := by decide
  have valid : s.rteValid (s.rteCfg 8) = true := by decide
  have notOn : s.domain (2 + bits (s.rteCfg 8) 9 0 / 128) ≠ .on := by decide
  obtain ⟨s', ran, asked, -⟩ :=
    h _ s _ (routerRule_routeDelivery_notOn (e := 8) on unmasked pends rfl rfl rfl rfl valid notOn) rfl
  rw [exec_routeDelivery_notOn (e := 8) on unmasked pends rfl rfl rfl rfl valid notOn,
    wakeDomain_of_shut (s := s) (thermalShut_shut _), Host.Outcome.next.injEq] at ran
  rw [← ran] at asked
  exact absurd asked (by decide)

end Sys2Proof.Proofs

/-! PROOFS. What the device does by itself beside a command (R29, R255, R341, R481, R490): signals, counts and histogram units write the
STAT words of routes and the registers of the counter block, and leave every other register alone. -/

namespace Sys2Proof.Proofs

open Sys2Proof.Machine Sys2Proof.Rules Sys2Proof.Laws

/-! ## The registers that it leaves alone -/

/-- No route's STAT and no register of the counter block. -/
def Steady (a : Nat) : Prop := (∀ e, e < 2560 → a ≠ routeAddr e + 4) ∧ ¬ (0x104B000000 ≤ a ∧ a < 0x104C000000)

theorem routeAddr_lt {e : Nat} (h : e < 2560) : routeAddr e < 0x1042000000 := by
  unfold routeAddr
  split <;> omega

theorem routeAddr_mod (e : Nat) : routeAddr e % 8 = 0 := by
  unfold routeAddr
  split <;> omega

/-- The mailbox pages (R279). -/
theorem steady_of_mailbox {a : Nat} (h : 0x1080000000 ≤ a) : Steady a :=
  ⟨fun e he => by have := routeAddr_lt he; omega, by omega⟩

theorem steady_routeAddr {e : Nat} (h : e < 2560) : Steady (routeAddr e) :=
  ⟨fun d _ => by have := routeAddr_mod e; have := routeAddr_mod d; omega, by have := routeAddr_lt h; omega⟩

/-- What signals, counts and histogram units may do to a state. -/
def Background (s s' : State) : Prop := Quiet s s' ∧ ∀ a, Steady a → s'.reg a = s.reg a

theorem Background.refl (s : State) : Background s s := ⟨.refl s, fun _ _ => rfl⟩

theorem Background.trans {a b c : State} (h : Background a b) (k : Background b c) : Background a c :=
  ⟨h.1.trans k.1, fun r steady => (k.2 r steady).trans (h.2 r steady)⟩

theorem Background.ite {s u v : State} {p : Prop} [Decidable p] (hu : Background s u) (hv : Background s v) :
    Background s (if p then u else v) := by
  split
  · exact hu
  · exact hv

theorem Background.foldl {β : Type} {f : State → β → State} {l : List β} (hf : ∀ s, ∀ b ∈ l, Background s (f s b)) (s : State) :
    Background s (l.foldl f s) :=
  List.foldlRecOn l f (.refl s) fun u h b hb => h.trans (hf u b hb)

/-! ## Counts and signals -/

variable (s : State)

/-- What every added count keeps, an event keeps (R481). -/
theorem perfEvent_keeps {keeps : State → Prop} {u n : Nat} (code : Nat) (who : Option (Nat × Nat))
    (added : ∀ x i, keeps x → keeps (x.cntAdd u i n)) (h : keeps s) : keeps (s.perfEvent u code n who) := by
  unfold State.perfEvent
  split
  · refine List.foldlRecOn _ _ h fun x hx i _ => ?_
    split
    · exact added x i hx
    · exact hx
  · exact h

theorem reg_perfEvent_of_ne {a u : Nat} (other : a ≠ cntPage u + 8) (code n : Nat) (who : Option (Nat × Nat)) :
    (s.perfEvent u code n who).reg a = s.reg a := by
  refine perfEvent_keeps s (keeps := fun x => x.reg a = s.reg a) code who (fun x i h => ?_) rfl
  rw [← h, State.cntAdd]
  extract_lets
  split
  · exact reg_setReg_ne _ _ other
  · rfl

theorem background_perfEvent {u : Nat} (h : u < 128) (code n : Nat) (who : Option (Nat × Nat)) : Background s (s.perfEvent u code n who) :=
  ⟨quiet_perfEvent .., fun _ steady => reg_perfEvent_of_ne s (fun e => steady.2 (by simp only [e, cntPage]; omega)) code n who⟩

theorem background_setReg {a : Nat} (h : ¬ Steady a) (v : W32) : Background s (s.setReg a v) :=
  ⟨quiet_setReg .., fun _ steady => reg_setReg_ne _ _ fun e => h (e ▸ steady)⟩

/-- The copy of a signal that a route has the harbourmaster take (R255). -/
def copiedBy (s : State) (e n : Nat) : State := if bit (s.rteCfg e) 20 then s.setIntake n else s

theorem copiedBy_regs (e n : Nat) : (copiedBy s e n).regs = s.regs := by
  unfold copiedBy
  split <;> rfl

theorem signalEntry_eq (e n : Nat) : s.signalEntry e n =
    if s.routeOn e then ((copiedBy s e n).setReg (routeAddr e + 4) (pended (s.rteStat e))).perfEvent 65 0x404 1 none
    else copiedBy s e n := by
  have on : (copiedBy s e n).routeOn e = s.routeOn e := by
    unfold copiedBy
    split <;> rfl
  have stat : s.rteStat e = (copiedBy s e n).rteStat e := by simp only [State.rteStat, State.reg, copiedBy_regs]
  rw [← on, stat]
  unfold State.signalEntry copiedBy pended
  rfl

theorem background_signalEntry {e : Nat} (h : e < 2560) (n : Nat) : Background s (s.signalEntry e n) := by
  refine ⟨quiet_signalEntry .., fun a steady => ?_⟩
  have copied : (copiedBy s e n).reg a = s.reg a := by rw [State.reg, copiedBy_regs, State.reg]
  rw [signalEntry_eq]
  split
  · rw [(background_perfEvent _ (by decide) _ _ _).2 a steady, reg_setReg_ne _ _ (steady.1 e h), copied]
  · exact copied

theorem background_signal {n : Nat} (h : n < 2560) : Background s (s.signal n) :=
  .ite (.refl s) (background_signalEntry s h n)

theorem background_signalBerth {b i : Nat} (hb : b < 64) (hi : i < 16) : Background s (s.signalBerth b i) :=
  background_signalEntry s (by simp only [copyEntry]; omega) _

/-! ## Event records -/

theorem evtUnit_lt {pa u : Nat} (h : evtUnit pa = some u) : u < 128 := by
  unfold evtUnit at h
  split at h
  · split at h <;> simp at h <;> omega
  · split at h
    · simp at h; omega
    · simp only [List.lookup] at h
      repeat' split at h
      all_goals simp at h
      all_goals omega

theorem background_evtCount (pa : Nat) : Background s (s.evtCount pa) := by
  unfold State.evtCount
  split
  · rename_i u h
    exact background_perfEvent s (evtUnit_lt h) _ _ _
  · exact .refl s

/-- R29: a record writes its own register, and what a signal of its source does besides. -/
theorem background_setReg_record (pa flags : Nat) {src : Option Nat} (h : ∀ n, src = some n → n < 2560) :
    Background (s.setReg pa (recorded (s.reg pa) flags)) (s.record pa flags src) := by
  cases src with
  | none => exact background_evtCount _ pa
  | some n => exact (background_evtCount _ pa).trans (background_signal _ (h n rfl))

theorem background_record {pa : Nat} (own : ¬ Steady pa) (flags : Nat) {src : Option Nat} (h : ∀ n, src = some n → n < 2560) :
    Background s (s.record pa flags src) :=
  (background_setReg s own _).trans (background_setReg_record s pa flags h)

/-! ## Histograms -/

theorem not_steady_counterBlock {a : Nat} (lo : 0x104B000000 ≤ a) (hi : a < 0x104C000000) : ¬ Steady a := fun k => k.2 ⟨lo, hi⟩

/-- One unit of R490 takes the value: its bin, its total, and the record that the total may set. -/
theorem background_histUnit {h i flags : Nat} (unit : h < 8) (bin : i ≤ 31) (inc : State → Nat → State)
    (incs : ∀ u a, ∃ v, inc u a = u.setReg a v) (p : Prop) [Decidable p] :
    let pg := 0x104B002000 + h * 0x1000
    let u := inc (inc s (pg + 0x80 + 4 * i)) (pg + 0x10)
    Background s (if p then u.record (pg + 8) flags (some (1137 + h)) else u) := by
  extract_lets pg u
  have own (o : Nat) (ho : o < 0x1000) : ¬ Steady (pg + o) := not_steady_counterBlock (by omega) (by omega)
  have written (x : State) (o : Nat) (ho : o < 0x1000) : Background x (inc x (pg + o)) := by
    obtain ⟨v, e⟩ := incs x (pg + o)
    exact e ▸ background_setReg x (own o ho) v
  have hu : Background s u := by
    refine Background.trans (b := inc s (pg + 0x80 + 4 * i)) ?_ (written _ 0x10 (by omega))
    rw [Nat.add_assoc]
    exact written s _ (by omega)
  exact .ite (hu.trans (background_record _ (own 8 (by omega)) _ fun n e => by simp at e; omega)) hu

theorem background_histAdd (src sel v : Nat) : Background s (s.histAdd src sel v) := by
  unfold State.histAdd
  refine .foldl (fun u h hh => ?_) s
  extract_lets pg c base d i full inc u' thr hit
  have bin : i ≤ 31 := by
    unfold i
    split
    · split <;> omega
    · omega
  refine .ite ?_ (.refl u)
  exact background_histUnit u (List.mem_range.1 hh) bin inc (fun _ _ => ⟨_, rfl⟩) ((full || hit) = true)

/-- A register of no signal after a record: the record's own counts and holds the flags, every other is as before (R29). -/
theorem reg_record_steady {a : Nat} (steady : Steady a) (pa flags : Nat) :
    (s.record pa flags none).reg a = if a = pa then recorded (s.reg pa) flags else s.reg a := by
  rw [(background_setReg_record s pa flags (by simp)).2 a steady, reg_setReg]

end Sys2Proof.Proofs

/-! PROOFS. The buffers of a mailbox and what a posting in one leaves (R279 to R281, R284, R285). -/

namespace Sys2Proof.Proofs

open Sys2Proof.Machine Sys2Proof.Rules Sys2Proof.Laws

/-! ## Buffers -/

section

variable (s : State) (base : Nat) (ws : List W32)

theorem quiet_setBuf : Quiet s (s.setBuf base ws) := by
  unfold State.setBuf
  exact Quiet.foldl _ (fun x i => quiet_setReg x _ _) _ s

@[simp] theorem setBuf_hm : (s.setBuf base ws).hm = s.hm := (quiet_setBuf s base ws).hm
@[simp] theorem setBuf_mem : (s.setBuf base ws).mem = s.mem := (quiet_setBuf s base ws).mem
@[simp] theorem setBuf_thr : (s.setBuf base ws).thr = s.thr := (quiet_setBuf s base ws).thr

@[simp] theorem setBuf_mbx (m : Nat) : (s.setBuf base ws).mbx m = s.mbx m := by simp [State.mbx]

theorem reg_setBuf_outside {a : Nat} (h : ∀ i, i < 64 → a ≠ base + 4 * i) : (s.setBuf base ws).reg a = s.reg a :=
  List.foldlRecOn (motive := fun x : State => x.reg a = s.reg a) _ _ rfl fun x hx i hi =>
    (reg_setReg_ne x _ (h i (List.mem_range.1 hi))).trans hx

/-- The first `n` words of a buffer are written, in order. -/
theorem reg_foldl_setReg {i : Nat} : ∀ {n : Nat}, i < n →
    ((List.range n).foldl (fun (x : State) k => x.setReg (base + 4 * k) (ws.getD k 0)) s).reg (base + 4 * i) = ws.getD i 0
  | n + 1, h => by
    rw [List.range_succ, List.foldl_append, List.foldl_cons, List.foldl_nil, reg_setReg]
    split
    · rw [show i = n by omega]
    · exact reg_foldl_setReg (by omega)

theorem reg_setBuf {i : Nat} (h : i < 64) : (s.setBuf base ws).reg (base + 4 * i) = ws.getD i 0 := reg_foldl_setReg s base ws h

end

/-! ## Mailboxes -/

theorem reg_setMbx (s : State) (m a : Nat) (x : Mbox) : (s.setMbx m x).reg a = s.reg a := rfl

theorem mbx_setMbx_self (s : State) (m : Nat) (x : Mbox) : (s.setMbx m x).mbx m = x := by simp [mbx_setMbx]

theorem noThread_setMbx_setBuf (s : State) (m base : Nat) (x : Mbox) (ws : List W32) : NoThread s ((s.setMbx m x).setBuf base ws) :=
  ⟨by simp [State.setMbx], by simp [State.setMbx]⟩

/-- The address of an offset of a mailbox page (R279) is no register of a signal. -/
theorem steady_mbx (m o : Nat) : Steady (mbxBase m + o) := steady_of_mailbox (by unfold mbxBase; omega)

/-! ## Notifications (R278) -/

/-- What a posting may change: registers, the intake, counts, mailboxes, and what is sent to a host. -/
def Posts (s s' : State) : Prop :=
  { s' with regs := s.regs, intake := s.intake, perf := s.perf, hm := s.hm, pcie := s.pcie } = s ∧
  { s'.hm with mbx := s.hm.mbx, mgmtOut := s.hm.mgmtOut } = s.hm

theorem Posts.refl (s : State) : Posts s s := ⟨rfl, rfl⟩

theorem Posts.trans {a b c : State} (h : Posts a b) (k : Posts b c) : Posts a c :=
  ⟨(congrArg (fun x : State => { x with regs := a.regs, intake := a.intake, perf := a.perf, hm := a.hm, pcie := a.pcie }) k.1 :).trans h.1,
    (congrArg (fun x : Harbour => { x with mbx := a.hm.mbx, mgmtOut := a.hm.mgmtOut }) k.2 :).trans h.2⟩

theorem posts_of_quiet {s s' : State} (h : Quiet s s') : Posts s s' :=
  ⟨(congrArg (fun x : State => { x with hm := s.hm, pcie := s.pcie }) h :), by rw [h.hm]⟩

theorem posts_setMbx (s : State) (m : Nat) (x : Mbox) : Posts s (s.setMbx m x) := ⟨rfl, rfl⟩

section

variable {s s' : State} (h : Posts s s')
include h

theorem Posts.noThread : NoThread s s' := ⟨(congrArg State.mem h.1 :), (congrArg State.thr h.1 :)⟩
theorem Posts.tlbs : s'.tlbs = s.tlbs := (congrArg State.tlbs h.1 :)
theorem Posts.pwr : s'.pwr = s.pwr := (congrArg State.pwr h.1 :)
theorem Posts.acc : s'.hm.acc = s.hm.acc := (congrArg Harbour.acc h.2 :)
theorem Posts.ended : s'.hm.ended = s.hm.ended := (congrArg Harbour.ended h.2 :)

end

/-- What a notification leaves: the mailboxes, and every register but those of signals. -/
def Notifies (s s' : State) : Prop := Posts s s' ∧ s'.hm.mbx = s.hm.mbx ∧ ∀ a, Steady a → s'.reg a = s.reg a

theorem Notifies.refl (s : State) : Notifies s s := ⟨.refl s, rfl, fun _ _ => rfl⟩

theorem Background.notifies {s s' : State} (h : Background s s') : Notifies s s' := ⟨posts_of_quiet h.1, by rw [h.1.hm], h.2⟩

theorem Notifies.mbx {s s' : State} (h : Notifies s s') (m : Nat) : s'.mbx m = s.mbx m := by simp only [State.mbx, h.2.1]

theorem notifies_pceVector (s : State) (f v : Nat) : Notifies s (s.pceVector f v) := by
  unfold State.pceVector State.pceSend
  extract_lets
  split <;> exact ⟨⟨rfl, rfl⟩, rfl, fun _ _ => rfl⟩

theorem notifies_mbxNotify (s : State) (m : Nat) (evt : Bool) (msg : List W32) : Notifies s (s.mbxNotify m evt msg) := by
  unfold State.mbxNotify
  split
  · split
    · exact (background_signalBerth s ‹_› (by decide)).notifies
    · exact .refl s
  · split
    · exact ⟨⟨rfl, rfl⟩, rfl, fun _ _ => rfl⟩
    · split
      · exact notifies_pceVector s 0 0
      · exact .refl s

/-! ## The flags of an event record -/

theorem bit_putBits_below {i lo : Nat} (h : i < lo) (x : W32) (w v : Nat) : bit (putBits x lo w v) i = bit x i := by
  have low (n : Nat) : (BitVec.ofNat 32 (n * 2 ^ lo)).getLsbD i = false := by
    rw [BitVec.getLsbD_ofNat, Nat.testBit_mul_two_pow]
    simp; omega
  by_cases hi : i < 32
  · simp only [bit, putBits, BitVec.getLsbD_or, BitVec.getLsbD_and, BitVec.getLsbD_not, low]
    simp [hi]
  · simp [bit, BitVec.getLsbD_of_ge _ _ (Nat.le_of_not_lt hi)]

/-- R29: the flag that an event sets stands in its record. -/
theorem bit_recorded {k : Nat} (h : k < 19) (v : W32) : bit (recorded v (2 ^ k)) k = true := by
  have flag : (BitVec.ofNat 32 (2 ^ k % 2 ^ 19)).getLsbD k = true := by
    rw [Nat.mod_eq_of_lt (Nat.pow_lt_pow_right (by decide) h), BitVec.getLsbD_ofNat]
    simp; omega
  unfold recorded putBit
  rw [bit_putBits_below (by omega), bit_putBits_below h]
  simp only [bit, BitVec.getLsbD_or, flag, Bool.or_true]

/-! ## Postings -/

/-- A message goes into the buffer of mailbox `m` at an offset, the mailbox changes, the event flag is recorded, and its transport is
told; where the request asks for no event, the last two are left out. -/
def posted (s : State) (m off : Nat) (msg : List W32) (change : Mbox → Mbox) (flag : Nat) (evt : Bool) : State :=
  let u := s.setBuf (mbxBase m + off) msg
  let u := u.setMbx m (change (u.mbx m))
  (if evt then u.record (mbxBase m + 0x308) flag none else u).mbxNotify m evt msg

theorem postResponse_eq_posted (s : State) (q : Machine.Sub) (ws : List W32) :
    s.postResponse q ws = posted (s.histAdd 7 q.m ((s.time - (s.mbx q.m).goAt) / 10)) q.m 0x100
      (message (BitVec.ofNat 32 (ws.length * 2 ^ 24 + 2 ^ 16 + q.op)) q.tag (BitVec.ofNat 32 q.b) ws)
      (fun x => { x with st := 3 }) (2 ^ 18) (!bit q.w0 18) := rfl

/-- The payload of a completion (R285): the status, and the results of a command that succeeds. -/
def completionWords (e : Ended) : List W32 := e.status :: if bits e.status 15 0 = 0 then e.words else []

theorem postCompletion_eq_posted (s : State) (e : Ended) :
    s.postCompletion e = posted s e.acc.mbx 0x200
      (message (BitVec.ofNat 32 ((completionWords e).length * 2 ^ 24 + 2 ^ 17 + 2 ^ 16 + e.acc.opcode)) e.acc.tag
        (BitVec.ofNat 32 e.acc.berth) (completionWords e))
      (fun x => { x with cpl := some e.acc.tag }) (2 ^ 17) true := by
  have words : completionWords e = if bits e.status 15 0 = 0 then e.status :: e.words else [e.status] :=
    apply_ite (List.cons e.status) _ _ _
  rw [words]
  rfl

section

variable (s : State) (m off : Nat) (msg : List W32) (change : Mbox → Mbox) (flag : Nat) (evt : Bool)

theorem posts_posted : Posts s (posted s m off msg change flag evt) := by
  refine .trans ?_ (notifies_mbxNotify _ m evt msg).1
  have changed : Posts s ((s.setBuf (mbxBase m + off) msg).setMbx m (change (s.mbx m))) :=
    (posts_of_quiet (quiet_setBuf ..)).trans (posts_setMbx ..)
  rw [← setBuf_mbx s (mbxBase m + off) msg] at changed
  split
  · exact changed.trans (posts_of_quiet (quiet_record ..))
  · exact changed

theorem posted_mbx : (posted s m off msg change flag evt).mbx m = change (s.mbx m) := by
  rw [posted, (notifies_mbxNotify _ m evt msg).mbx]
  have recorded (u : State) : (if evt then u.record (mbxBase m + 0x308) flag none else u).mbx m = u.mbx m := by
    split
    · simp [State.mbx]
    · rfl
  rw [recorded, mbx_setMbx_self, setBuf_mbx]

/-- A register of a mailbox page but the record after a posting is what the buffer holds there. -/
theorem posted_reg {o : Nat} (notRecord : o ≠ 0x308) :
    (posted s m off msg change flag evt).reg (mbxBase m + o) = (s.setBuf (mbxBase m + off) msg).reg (mbxBase m + o) := by
  have other : mbxBase m + o ≠ mbxBase m + 0x308 := by omega
  rw [posted, (notifies_mbxNotify _ m evt msg).2.2 _ (steady_mbx m o)]
  split
  · rw [reg_record_steady _ (steady_mbx m o), if_neg other, reg_setMbx]
  · rw [reg_setMbx]

theorem posted_word {i : Nat} (hi : i < 64) (inPage : off ≤ 0x200) :
    (posted s m off msg change flag evt).reg (mbxBase m + off + 4 * i) = msg.getD i 0 := by
  rw [Nat.add_assoc, posted_reg _ _ _ _ _ _ _ (by omega), ← Nat.add_assoc, reg_setBuf _ _ _ hi]

theorem posted_flag {k : Nat} (hk : k < 19) :
    bit ((posted s m off msg change (2 ^ k) true).reg (mbxBase m + 0x308)) k = true := by
  rw [posted, (notifies_mbxNotify _ m true msg).2.2 _ (steady_mbx m _), if_pos rfl, reg_record_steady _ (steady_mbx m _), if_pos rfl]
  exact bit_recorded hk _

end

/-! ## Responses (R284) -/

/-- R284: a response that is posted stands in the mailbox, whatever has happened since the request was read. -/
theorem responded_postResponse (s u : State) (m : Nat) (ws : List W32) : Responded m ws s (u.postResponse (s.request m) ws) := by
  rw [postResponse_eq_posted]
  exact ⟨congrArg Mbox.st (posted_mbx ..), fun i hi => posted_word _ _ _ _ _ _ _ hi (by decide)⟩

theorem responded_answer (s u : State) (m : Nat) (ws : List W32) : Responded m ws s (u.answer (s.request m) ws) :=
  responded_postResponse ..

theorem posts_answer (s : State) (q : Machine.Sub) (ws : List W32) : Posts s (s.answer q ws) := by
  rw [State.answer, postResponse_eq_posted]
  exact ((posts_setMbx ..).trans (posts_of_quiet (background_histAdd ..).1)).trans (posts_posted ..)

/-! ## Completions (R285) -/

/-- R285: what a completion leaves of its mailbox. -/
structure Completion (e : Ended) (s s' : State) : Prop where
  posts : Posts s s'
  cpl : (s'.mbx e.acc.mbx).cpl = some e.acc.tag
  tag : s'.reg (mbxBase e.acc.mbx + 0x204) = e.acc.tag
  status : s'.reg (mbxBase e.acc.mbx + 0x210) = e.status
  event : bit (s'.reg (mbxBase e.acc.mbx + 0x308)) 17 = true

theorem completion_postCompletion (s : State) (e : Ended) : Completion e s (s.postCompletion e) := by
  rw [postCompletion_eq_posted]
  constructor
  case posts => exact posts_posted ..
  case cpl => exact congrArg Mbox.cpl (posted_mbx ..)
  case tag => exact posted_word (i := 1) _ _ _ _ _ _ _ (by decide) (by decide)
  case status => exact posted_word (i := 4) _ _ _ _ _ _ _ (by decide) (by decide)
  case event => exact posted_flag _ _ _ _ _ (by decide)

end Sys2Proof.Proofs

/-! PROOFS. The mailbox commands (R280 to R287, R290): request buffer, GO, CACK, the checks of R282, and completions. -/

namespace Sys2Proof.Proofs

open Sys2Proof.Machine Sys2Proof.Rules Sys2Proof.Laws

variable {s : State}

/-! ## Refusals (R17, R290) -/

/-- R341: a counter of a group that is no berth's counts and signals nothing. -/
theorem count_eq_of_group {g : Nat} (h : g < 0x100) (s : State) (r : Nat) :
    s.count g r = if s.counter g r < counterMax g then
      { s with errCnt := Tbl.set (fun _ => (0 : Nat)) s.errCnt (g * 32 + r) (s.counter g r + 1) } else s := by
  simp only [State.count, if_neg (Nat.not_le.2 h)]

theorem count_regs {g : Nat} (h : g < 0x100) (s : State) (r : Nat) : (s.count g r).regs = s.regs := by
  rw [count_eq_of_group h]
  split <;> rfl

theorem counter_count {g : Nat} (h : g < 0x100) (s : State) (r : Nat) :
    (s.count g r).counter g r = counted (counterMax g) (s.counter g r) := by
  rw [count_eq_of_group h, counted]
  split
  · simp [State.counter]
  · rfl

/-- R17: only a refused peek read is not counted. -/
theorem pageRefused (s : State) (rq : Req) : PageRefused s (s.mbxRefused rq true) := by
  have counts : s.mbxRefused rq true = s.count 0x40 7 := if_neg (by simp)
  rw [counts]
  exact ⟨counter_count (by decide) s 7, count_hm .., count_regs (by decide) s 7, count_mem .., count_thr ..⟩

theorem rejected (s : State) {m : Nat} (h : m < 69) : Rejected m s (s.mbxRej m) := by
  have reg (a : Nat) (steady : Steady a) :
      (s.mbxRej m).reg a = if a = mbxBase m + 0x308 then recorded (s.reg (mbxBase m + 0x308)) (2 ^ 16) else s.reg a := by
    rw [← reg_record_steady s steady, State.mbxRej, State.reg, count_regs (by split <;> omega)]
    rfl
  refine ⟨?flag, by simp [State.mbxRej], ⟨by simp [State.mbxRej], by simp [State.mbxRej]⟩, fun i hi => ?words⟩
  case flag =>
    rw [reg _ (steady_mbx m _), if_pos rfl]
    exact bit_recorded (by decide) _
  case words => rw [reg _ (steady_mbx m _), if_neg (by omega)]

/-! ## GO and CACK (R280, R285) -/

theorem mbxGo_of_free {m : Nat} (free : (s.mbx m).st = 0 ∨ (s.mbx m).st = 3) (go : Option Req) :
    s.mbxGo m go = (s.setMbx m { s.mbx m with st := 1, go := go, goAt := s.time }).setBuf (mbxBase m + 0x100) [] := if_pos free

theorem mbxGo_of_taken {m : Nat} (taken : ¬ ((s.mbx m).st = 0 ∨ (s.mbx m).st = 3)) (go : Option Req) : s.mbxGo m go = s.mbxRej m :=
  if_neg taken

theorem mbxReqWr_of_free {m : Nat} (free : (s.mbx m).st = 0 ∨ (s.mbx m).st = 3) (i : Nat) (w : W32) :
    s.mbxReqWr m i w = s.setReg (mbxBase m + 4 * i) w := if_pos free

theorem mbxReqWr_of_taken {m : Nat} (taken : ¬ ((s.mbx m).st = 0 ∨ (s.mbx m).st = 3)) (i : Nat) (w : W32) :
    s.mbxReqWr m i w = s.mbxRej m := if_neg taken

section

variable (s : State) (m off : Nat) (x : Mbox)

theorem emptied_mbx : ((s.setMbx m x).setBuf (mbxBase m + off) []).mbx m = x := by rw [setBuf_mbx, mbx_setMbx_self]

theorem emptied_word {i : Nat} (h : i < 64) : ((s.setMbx m x).setBuf (mbxBase m + off) []).reg (mbxBase m + off + 4 * i) = 0 :=
  reg_setBuf _ _ _ h

theorem emptied_request {i : Nat} (h : i < 64) (apart : 0x100 ≤ off) :
    ((s.setMbx m x).setBuf (mbxBase m + off) []).reg (mbxBase m + 4 * i) = s.reg (mbxBase m + 4 * i) :=
  reg_setBuf_outside _ _ _ fun _ _ => by omega

end

/-! ## The checks of R282 -/

/-- What the checks read is in none of the fields that signals and counts write. -/
theorem checkRequest_of_quiet {s' : State} (h : Quiet s s') (q : Machine.Sub) : s'.checkRequest q = s.checkRequest q :=
  (congrArg (fun x : State => x.checkRequest q) h :)

/-- What the taking of a request leaves, by the outcome of its checks (R282, R283). -/
def TakenAs (m : Nat) (s : State) : Checked → State → Prop
  | .early status => Responded m [r0 status 0] s
  | .fail status detail => Responded m [r0 status detail] s
  | .replay => Responded m (s.mbx m).lastRsp s
  | .pass _ => fun s' => s'.mbx m = { s.mbx m with st := 2 } ∧ NoThread s s'

/-- R286, R287: the harbourmaster is ready to take the request that waits in a mailbox. -/
def takes (s : State) (m : Nat) : Bool :=
  s.hm.ready && s.pwr.sleep == .awake && (s.mbx m).st == 1 && !(s.hm.mbx.any (fun e => e.2.st == 2))

/-- The order of the rule is that of the model's checks. -/
theorem mailboxRule_requestTaken (m : Fin 69) :
    mailboxRule (.requestTaken m) s =
      some (if takes s m then TakenAs m s (s.checkRequest (s.request m)) else fun s' => s' = s) := by
  simp only [mailboxRule, takes, State.checkRequest, State.checkLate, apply_ite (TakenAs m s)]
  cases opInfo (s.request m).op <;> simp only [← apply_ite some, apply_ite (TakenAs m s)] <;> rfl

theorem takenAs_mbxTake {m : Nat} (ready : takes s m = true) : TakenAs m s (s.checkRequest (s.request m)) (s.mbxTake m) := by
  have quiet := quiet_perfEvent s 73 0x401 1 none
  rw [State.mbxTake, if_pos (by exact ready)]
  simp only [checkRequest_of_quiet quiet]
  split
  case h_1 found => rw [found]; exact responded_postResponse ..
  case h_2 found => rw [found]; exact responded_answer ..
  case h_3 found =>
    rw [found, show (s.perfEvent 73 0x401 1 none).mbx m = s.mbx m by simp [State.mbx]]
    exact responded_postResponse ..
  case h_4 found =>
    rw [found, show (s.perfEvent 73 0x401 1 none).mbx m = s.mbx m by simp [State.mbx]]
    exact ⟨mbx_setMbx_self .., quiet.mem, quiet.thr⟩

/-! ## Completions (R285) -/

section

variable {m : Nat} {e : Ended}

/-- The oldest completion of a mailbox with a free buffer is posted. -/
theorem postNext_of_found (free : (s.mbx m).cpl.isNone = true) (found : s.hm.ended.find? (fun e => e.acc.mbx == m) = some e) :
    s.postNext m = (s.modHm fun h => { h with ended := h.ended.erase e }).postCompletion e := by
  have full : (s.mbx m).cpl.isSome = false := by simpa using free
  simp only [State.postNext, full, found]
  rfl

theorem mbx_of_found {l : List Ended} (found : l.find? (fun e => e.acc.mbx == m) = some e) : e.acc.mbx = m := by
  simpa using List.find?_some found

/-- Where no other completion of its mailbox waits, a command that ends with success is completed at once. -/
theorem completion_workEnds {u : State} {a : Accepted} (free : (u.mbx a.mbx).cpl.isNone = true)
    (noOther : u.hm.ended.find? (fun e => e.acc.mbx == a.mbx) = none) (loud : a.quiet = false) :
    ∃ v, Completion { acc := a, status := r0 0 0, words := [] } v ((u.workEnds a (r0 stOk 0) []).postNext a.mbx) ∧
      v.hm.acc = u.hm.acc.erase a ∧ v.tlbs = u.tlbs := by
  have free' : ((u.workEnds a (r0 stOk 0) []).mbx a.mbx).cpl.isNone = true := free
  have found : (u.workEnds a (r0 stOk 0) []).hm.ended.find? (fun e => e.acc.mbx == a.mbx) =
      some { acc := a, status := r0 0 0, words := [] } := by
    simp [State.workEnds, State.modHm, loud, List.find?_append, noOther, stOk]
  rw [postNext_of_found free' found]
  exact ⟨_, completion_postCompletion .., rfl, rfl⟩

end

/-! ## The work of MEM_MAP and MEM_UNMAP (R302, R303) -/

/-- The state in which the work of a MEM_MAP or a MEM_UNMAP ends: the TLBs have lost the pages of a MEM_UNMAP. -/
def mappingDone (s : State) (a : Accepted) : State :=
  if a.opcode = 0x0602 then s.invalidatePages a.berth (bits (a.pay.getD 0 0) 27 0) (a.pay.getD 1 0).toNat else s

theorem mappingDone_hm (s : State) (a : Accepted) : (mappingDone s a).hm = s.hm := by
  unfold mappingDone
  split <;> rfl

theorem endFirst_mapping {a : Accepted} (op : a.opcode = 0x0601 ∨ a.opcode = 0x0602) :
    State.endFirst [a] s = (mappingDone s a).workEnds a (r0 stOk 0) [] := by
  obtain op | op := op <;> simp [State.endFirst, State.workStep, mappingDone, op]

/-- R182, R303: no entry of the berth in a TLB meets the pages that a MEM_UNMAP has taken away. -/
theorem tlbs_mappingDone {a : Accepted} (op : a.opcode = 0x0602) {e : TlbEntry} (kept : e ∈ (mappingDone s a).tlbs)
    (own : e.berth = a.berth) :
    (e.ipa + 1) * 2 ^ e.size ≤ bits (a.pay.getD 0 0) 27 0 * 4096 ∨
      (bits (a.pay.getD 0 0) 27 0 + (a.pay.getD 1 0).toNat) * 4096 ≤ e.ipa * 2 ^ e.size := by
  rw [mappingDone, if_pos op] at kept
  have apart := (List.mem_filter.1 kept).2
  simp only [own, beq_self_eq_true, Bool.true_and, Bool.not_eq_true', Bool.and_eq_false_iff, decide_eq_false_iff_not] at apart
  omega

/-! ## The commands -/

section

variable {rq : Req} {m : Fin 69} {u : State} {P Q : State → Prop} {rest : Option (State → Prop)}

/-- R17: a page that does not serve the requester refuses; what follows is about one that does. -/
theorem meets_of_served (entry : (if !s.mbxServes rq m then some (PageRefused s) else rest) = some P)
    (served : rest = some P → P u) : P (if s.mbxServes rq m then u else s.mbxRefused rq true) := by
  cases serves : s.mbxServes rq m
  · obtain rfl : PageRefused s = P := by simpa [serves] using entry
    exact pageRefused s rq
  · exact served (by simpa [serves] using entry)

/-- R280, R290: a mailbox in IDLE or DONE takes a word or a GO, another refuses it. -/
theorem meets_of_free (entry : (if (s.mbx m).st = 0 ∨ (s.mbx m).st = 3 then some Q else some (Rejected m s)) = some P)
    (free : (s.mbx m).st = 0 ∨ (s.mbx m).st = 3 → Q u) (taken : ¬ ((s.mbx m).st = 0 ∨ (s.mbx m).st = 3) → u = s.mbxRej m) : P u := by
  split at entry
  case isTrue h =>
    obtain rfl := Option.some.inj entry
    exact free h
  case isFalse h =>
    obtain rfl := Option.some.inj entry
    exact taken h ▸ rejected s m.isLt

theorem cack_gives (entry : mailboxRule (.cack rq m) s = some P) : Gives (.cack rq m) s P := by
  refine ⟨_, rfl, meets_of_served entry fun entry => ?_⟩
  cases full : (s.mbx m).cpl with
  | none =>
    obtain rfl : (fun s' => s' = s) = P := by simpa [full] using entry
    simp [State.mbxCack, full]
  | some tag =>
    simp only [full, Option.some.injEq] at entry
    simp only [State.mbxCack, full, ← entry]
    exact ⟨emptied_mbx .., fun i hi => emptied_word _ _ _ _ hi, noThread_setMbx_setBuf ..⟩

theorem completionPost_gives (entry : mailboxRule (.completionPost m) s = some P) : Gives (.completionPost m) s P := by
  refine ⟨_, rfl, ?_⟩
  simp only [mailboxRule] at entry
  split at entry
  case h_1 e noWork found =>
    obtain ⟨holds, rfl⟩ := given_eq_some.1 entry
    obtain ⟨runs, free⟩ : s.frozen = false ∧ (s.mbx m).cpl.isNone = true := by simpa using holds
    obtain ⟨posts, cpl, tag, status, event⟩ :=
      completion_postCompletion (s.modHm fun h => { h with ended := h.ended.erase e }) e
    rw [mbx_of_found found] at cpl tag status event
    rw [runs, noWork, State.endFirst, if_pos (by rfl), postNext_of_found free found]
    exact ⟨posts.ended, cpl, tag, status, event, posts.noThread⟩
  case h_2 a work noOther =>
    obtain ⟨holds, rfl⟩ := given_eq_some.1 entry
    obtain ⟨⟨⟨runs, free⟩, op⟩, loud⟩ :
        ((s.frozen = false ∧ (s.mbx m).cpl.isNone = true) ∧ (a.opcode = 0x0601 ∨ a.opcode = 0x0602)) ∧ a.quiet = false := by
      simpa using holds
    have listed : a ∈ s.hm.acc.filter (fun a => a.mbx == m.val) := work ▸ List.mem_singleton_self a
    have own : a.mbx = m := by simpa using (List.mem_filter.1 listed).2
    have hm := mappingDone_hm s a
    rw [← own] at free noOther
    obtain ⟨v, ⟨posts, cpl, tag, status, -⟩, acc, tlbs⟩ :=
      completion_workEnds (u := mappingDone s a) (by rwa [State.mbx, hm]) (by rwa [hm]) loud
    rw [runs, work, endFirst_mapping op, if_pos (by rfl), ← own]
    refine ⟨by rw [posts.acc, acc, hm], cpl, tag, status, fun unmap e kept => ?_⟩
    rw [posts.tlbs, tlbs] at kept
    exact tlbs_mappingDone unmap kept
  case h_3 => cases entry

end

/-- Settles O42: a page that serves another counts (`pageRefused`), a mailbox in use rejects (`rejected`); the checks are those of the
model in the order of the rule (`mailboxRule_requestTaken`, `takenAs_mbxTake`); a completion is what `completion_postCompletion` says. -/
theorem mailboxes : Obligations.Mailboxes := by
  rintro i s P entry -
  cases i
  case mbxReqWrite rq m i w =>
    refine ⟨_, rfl, meets_of_served entry fun entry => meets_of_free entry ?_ (mbxReqWr_of_taken · i w)⟩
    exact fun free => mbxReqWr_of_free free i w
  case go rq m =>
    refine ⟨_, rfl, meets_of_served entry fun entry => meets_of_free entry (fun free => ?_) (mbxGo_of_taken · (some rq))⟩
    rw [mbxGo_of_free free]
    exact ⟨emptied_mbx .., fun i hi => ⟨emptied_word _ _ _ _ hi, emptied_request _ _ _ _ hi (by decide)⟩, noThread_setMbx_setBuf ..⟩
  case cack rq m => exact cack_gives entry
  case requestTaken m =>
    rw [mailboxRule_requestTaken, Option.some.injEq] at entry
    refine ⟨_, rfl, entry ▸ ?_⟩
    split
    case isTrue ready => exact takenAs_mbxTake ready
    case isFalse busy => exact if_neg busy
  case completionPost m => exact completionPost_gives entry
  all_goals cases entry

end Sys2Proof.Proofs

/-! PROOFS. A PWR_LEVEL of a cluster that a failed voltage step kept from a level (R298, R402). -/

namespace Sys2Proof.Proofs

open Sys2Proof.Machine Sys2Proof.Rules Sys2Proof.Laws

/-! ## A harbour command that is accepted -/

variable {s : State}

theorem quiet_hostCmd (s : State) (q : Machine.Sub) : Quiet s (s.hostCmd q) := by
  unfold State.hostCmd
  split
  · split
    · exact quiet_signal ..
    · exact .refl s
  · exact .refl s

/-- R294: the harbourmaster does the command of a request in hand, whose berth exists. -/
theorem harbour_of_inHand {m op : Nat} (hand : inHand s m op = true) {f : State → Machine.Sub → Reply} {s' : State} {data : List Byte}
    (accepts : f s (s.request m) = .accept s' data) :
    s.harbour m op f = ((s'.hostCmd (s.request m)).modHm fun h => { h with acc := h.acc ++ [acceptance s m data] }).answer
      (s.request m) [r0 stAccepted 0] := by
  simp only [inHand, Bool.and_eq_true] at hand
  obtain ⟨⟨⟨ready, busy⟩, opcode⟩, berth⟩ := hand
  simp only [State.harbour, ready, busy, opcode, Bool.and_self, if_true]
  rw [if_neg, accepts]
  · rfl
  · cases row : opInfo op with
    | none => simp
    | some o =>
      simp only [row, Bool.or_eq_true, Bool.not_eq_true', beq_iff_eq] at berth
      obtain (noBerth | create) | there := berth
      · simp [noBerth]
      · simp [create]
      · simp [there]

theorem harbour_pwr_of_accepts {m op : Nat} (hand : inHand s m op = true) {f : State → Machine.Sub → Reply} {s' : State} {data : List Byte}
    (accepts : f s (s.request m) = .accept s' data) : (s.harbour m op f).pwr = s'.pwr := by
  rw [harbour_of_inHand hand accepts, (posts_answer ..).pwr, modHm_pwr, (quiet_hostCmd ..).pwr]

/-! ## PWR_LEVEL (R298) -/

/-- The power state once level `l` is asked for of cluster `n`: the level that a failed voltage step kept it from is forgotten (R402). -/
def levelAsked (p : Power) (n l : Nat) : Power :=
  { p with req := Tbl.set (fun _ => (6 : Nat)) p.req n l, gaveUp := Tbl.set (fun _ => (0 : Nat)) p.gaveUp n 0 }

section

variable {m : Fin 69} {n l : Nat} (hand : inHand s m 0x0201 = true) (wellFormed : ((s.request m).q 0 &&& 0xFFFFF8F8#32) = 0#32)
  (present : s.clusterFused n = false) (cluster : bits ((s.request m).q 0) 2 0 = n) (level : bits ((s.request m).q 0) 10 8 = l)
include hand wellFormed present cluster level

theorem exec_pwrLevel_accepted : ∃ s', exec (.pwrLevel m) s = .next s' ∧ s'.pwr = levelAsked s.pwr n l := by
  refine ⟨_, rfl, harbour_pwr_of_accepts hand (s' := s.modPwr (levelAsked · n l)) (data := []) ?_⟩
  simp [wellFormed, present, cluster, level, levelAsked]

/-- The rule has the requested level alone change. -/
theorem systemRule_pwrLevel_accepted : systemRule (.pwrLevel m) s = some fun s' =>
    Replied m [r0 1 0] s s' ∧ s'.hm.acc.getLast? = some (acceptance s m []) ∧
    s'.pwr = { s.pwr with req := Tbl.set (fun _ => (6 : Nat)) s.pwr.req n l } ∧ NoThread s s' := by
  simp [systemRule, accept, given, hand, wellFormed, present, cluster, level]

end

/-- Mailbox 0 holds a request in hand for level 2 of cluster 0, which a failed voltage step has kept from that level. -/
def levelAskedAgain : State :=
  { State.reset with
    regs := [(mbxBase 0, 0x01000201), (mbxBase 0 + 0x10, 0x00000200)]
    hm := { State.reset.hm with ready := true, mbx := [(0, { st := 2 })] }
    pwr := { State.reset.pwr with gaveUp := [(0, 3)] } }

/-- Refutes O43: a PWR_LEVEL forgets that a failed voltage step kept its cluster from a level (R402), where the statement has nothing of the
power state change but the requested level. -/
theorem not_systemCommands : ¬ Obligations.SystemCommands := by
  intro h
  let s := levelAskedAgain
  have hand : inHand s 0 0x0201 = true := by decide
  have wellFormed : ((s.request 0).q 0 &&& 0xFFFFF8F8) = 0 := by decide
  have cluster : bits ((s.request 0).q 0) 2 0 = 0 := by decide
  have level : bits ((s.request 0).q 0) 10 8 = 2 := by decide
  obtain ⟨s', ran, -, -, keeps, -⟩ :=
    h _ s _ (systemRule_pwrLevel_accepted (m := 0) hand wellFormed rfl cluster level) rfl
  obtain ⟨s'', ran', forgets⟩ := exec_pwrLevel_accepted (m := 0) hand wellFormed rfl cluster level
  obtain rfl : s'' = s' := Host.Outcome.next.inj (ran'.symm.trans ran)
  have gaveUp := congrArg Power.gaveUp (forgets.symm.trans keeps)
  exact absurd gaveUp (by decide)

end Sys2Proof.Proofs

/-! PROOFS. The transports of the host mailboxes and the time base (R278, R357, R308, R356, R361). -/

namespace Sys2Proof.Proofs

open Sys2Proof.Machine Sys2Proof.Rules Sys2Proof.Laws

variable {s : State}

/-! ## Signals of plain sources (R253, R255, R257) -/

theorem intake_perfEvent (s : State) (u code n : Nat) (who : Option (Nat × Nat)) : (s.perfEvent u code n who).intake = s.intake := by
  refine perfEvent_keeps s (keeps := fun x => x.intake = s.intake) code who (fun x i h => ?_) rfl
  rw [← h, State.cntAdd]
  extract_lets
  split <;> rfl

/-- R255, R257: a signal pends in the entry that it reaches and is copied to the harbourmaster. -/
theorem signalled_signalEntry (s : State) {e : Nat} (h : e < 2560) (n : Nat) : Signalled e n s (s.signalEntry e n) := by
  have own : routeAddr e + 4 ≠ cntPage 65 + 8 := by
    have := routeAddr_lt h
    unfold cntPage
    omega
  refine ⟨(background_signalEntry s h n).2 _ (steady_routeAddr h), ?stat, fun copied => ?intake⟩
  case stat =>
    rw [signalEntry_eq]
    split
    · rw [State.rteStat, reg_perfEvent_of_ne _ own, reg_setReg_self]
    · rw [State.rteStat, State.reg, copiedBy_regs]
      rfl
  case intake =>
    have taken : flag (copiedBy s e n).intake n = true := by simp [copiedBy, copied, flag, State.setIntake]
    rw [signalEntry_eq]
    split
    · rw [intake_perfEvent]
      exact taken
    · exact taken

/-- R253, R254: a source of no cluster, channel, port or CAN controller asserts, unless its number never does. -/
theorem srcOut_eq_srcNever (s : State) {n : Nat} (lo : 280 ≤ n) (notCan : n < 384 ∨ 480 ≤ n) : s.srcOut n = srcNever n := by
  have present : s.srcFused n = false := by
    unfold State.srcFused
    rw [if_neg (by omega), if_neg (by omega), if_neg (by omega), if_neg (by omega)]
  simp [State.srcOut, present]
  omega

theorem signal_of_asserts {n : Nat} (asserts : s.srcOut n = false) : s.signal n = s.signalEntry n n := by simp [State.signal, asserts]

theorem signalled_signal {n : Nat} (h : n < 2560) (asserts : s.srcOut n = false) : Signalled n n s (s.signal n) :=
  signal_of_asserts asserts ▸ signalled_signalEntry s h n

/-- R254, R318: the event numbers of DMA channel sets, gateway queues, host queue sets, CAN shares and PCI Express functions. -/
def InstanceEvent (n : Nat) : Prop :=
  288 ≤ n ∧ n < 384 ∨ 560 ≤ n ∧ n < 624 ∨ 632 ≤ n ∧ n < 696 ∨ 704 ≤ n ∧ n < 768 ∨ 784 ≤ n ∧ n < 816

theorem InstanceEvent.asserts {n : Nat} (h : InstanceEvent n) (s : State) : n < 2560 ∧ s.srcOut n = false := by
  unfold InstanceEvent at h
  refine ⟨by omega, ?_⟩
  rw [srcOut_eq_srcNever s (by omega) (by omega)]
  simp [srcNever]
  omega

theorem instanceEvent_instEvent {i : Nat} (type : 1 ≤ i / 256) (index : i % 256 < instCount (i / 256)) : InstanceEvent (instEvent i) := by
  unfold InstanceEvent instEvent
  generalize i % 256 = j at index ⊢
  generalize i / 256 = k at type index ⊢
  match k, type, index with
  | 1, _, index | 2, _, index | 3, _, index | 4, _, index | 5, _, index =>
    simp only [instCount, List.getD_cons_succ, List.getD_cons_zero] at index ⊢
    omega
  | k + 6, _, index =>
    simp only [instCount, List.getD_cons_succ, List.getD_nil] at index
    omega

/-! ## The SPI service port (R278) -/

theorem wake_of_awake (awake : s.pwr.sleep = .awake) (force : Bool) (code arg : Nat) : s.wake force code arg = s := by
  simp [State.wake, awake]

theorem sspWrites_eq_some {m : Nat} : sspWrites s = some m ↔ s.pwr.sleep = .awake ∧ s.sspMbx = some m := by
  simp [sspWrites]

theorem sspReaches_eq_some {m : Nat} : sspReaches s = some m ↔ s.hm.ready = true ∧ s.pwr.sleep = .awake ∧ s.sspMbx = some m := by
  simp [sspReaches, sspWrites_eq_some]

section

variable {m : Nat} {u : State} (awake : s.pwr.sleep = .awake) (reaches : s.sspMbx = some m)
include awake reaches

/-- A transaction of one word is one write to the page. -/
theorem execSspWriteWords_singleton {off : Nat} {w : W32} (writes : s.mbxWrite m (4 * (off % 256)) none w = u) (still : u.pwr = s.pwr) :
    execSspWriteWords off [w] s = .next u := by
  simp only [execSspWriteWords, reaches, State.sspPowered, awake, sspOff, if_true, List.zipIdx_cons, List.zipIdx_nil, List.foldl_cons,
    List.foldl_nil, Nat.add_zero, writes, State.sspOpen, wake_of_awake (still ▸ awake), ok]

theorem sspWord_of_ready (ready : s.hm.ready = true) (o : Nat) :
    s.sspWord o = if o = 0x304 then s.mbxStat m else if o = 0x30C then s.mbxVer
      else if o = 0x300 ∨ 0x30C < o then 0 else s.reg (mbxBase m + o) := by
  have served : s.sspServed = true := by simp [State.sspServed, State.sspPowered, ready, awake]
  simp only [State.sspWord, reaches, served, if_true, State.mbxRead]
  grind

end

theorem mbxWrite_request {m o : Nat} (inside : o < 64) (free : (s.mbx m).st = 0 ∨ (s.mbx m).st = 3) (go : Option Req) (w : W32) :
    s.mbxWrite m (4 * o) go w = s.setReg (mbxBase m + 4 * o) w := by
  rw [State.mbxWrite, if_pos (by omega), mbxReqWr_of_free free, Nat.mul_div_cancel_left o (by decide)]

theorem mbxWrite_go (m : Nat) (go : Option Req) : s.mbxWrite m 0x300 go 1 = s.mbxGo m go := rfl

/-- R280: a GO that a free mailbox takes, whatever the transport. -/
theorem queued_mbxGo {m : Nat} (free : (s.mbx m).st = 0 ∨ (s.mbx m).st = 3) (go : Option Req) :
    (s.mbxGo m go).mbx m = { s.mbx m with st := 1, go := go, goAt := s.time } ∧ NoThread s (s.mbxGo m go) ∧
      (s.mbxGo m go).pwr = s.pwr := by
  rw [mbxGo_of_free free]
  exact ⟨emptied_mbx .., noThread_setMbx_setBuf .., (quiet_setBuf ..).pwr⟩

theorem sspWriteWords_gives {off : Nat} {ws : List W32} {P : State → Prop} (entry : transportRule (.sspWriteWords off ws) s = some P) :
    Gives (.sspWriteWords off ws) s P := by
  simp only [transportRule] at entry
  split at entry
  case h_2 => cases entry
  case h_1 m w reaches =>
    obtain ⟨awake, reaches⟩ := sspWrites_eq_some.1 reaches
    split at entry
    case isTrue request =>
      obtain rfl := Option.some.inj entry
      exact ⟨_, execSspWriteWords_singleton awake reaches (mbxWrite_request request.1 request.2 ..) rfl, rfl⟩
    case isFalse =>
      split at entry
      case isFalse => cases entry
      case isTrue go =>
        obtain ⟨control, rfl, free⟩ := go
        obtain rfl := Option.some.inj entry
        obtain ⟨queued, noThread, pwr⟩ := queued_mbxGo free none
        refine ⟨_, execSspWriteWords_singleton awake reaches ?_ pwr, queued, noThread⟩
        rw [control, mbxWrite_go]

theorem sspReadWords_gives {off n : Nat} {P : State → Prop} (entry : transportRule (.sspReadWords off n) s = some P) :
    Gives (.sspReadWords off n) s P := by
  simp only [transportRule] at entry
  split at entry
  case h_2 => cases entry
  case h_1 m reaches =>
    obtain ⟨ready, awake, reaches⟩ := sspReaches_eq_some.1 reaches
    obtain rfl := Option.some.inj entry
    refine ⟨_, rfl, ?_⟩
    rw [State.sspOpen, wake_of_awake (by exact awake)]
    simp only [sspWord_of_ready awake reaches ready]
    rfl

theorem sspReadStat_gives {P : State → Prop} (entry : transportRule .sspReadStat s = some P) : Gives .sspReadStat s P := by
  simp only [transportRule] at entry
  split at entry
  case h_2 => cases entry
  case h_1 m reaches =>
    obtain ⟨awake, rfl⟩ := given_eq_some.1 entry
    refine ⟨_, rfl, ?_⟩
    rw [State.sspOpen, wake_of_awake (by exact eq_of_beq awake), reaches]

/-! ## Management frames (R357) -/

theorem bits_putBits_low {v : Nat} (h : v < 2 ^ 16) (x : W32) : bits (putBits x 0 16 v) 15 0 = v := by
  refine Nat.eq_of_testBit_eq fun i => ?_
  simp only [bits, putBits, Nat.mod_eq_of_lt h, Nat.pow_zero, Nat.div_one, Nat.mul_one, Nat.testBit_mod_two_pow, BitVec.testBit_toNat,
    BitVec.getLsbD_or, BitVec.getLsbD_and, BitVec.getLsbD_not, BitVec.getLsbD_ofNat, Nat.testBit_two_pow_sub_one]
  by_cases low : i < 16
  · simp [low, show i < 32 by omega]
  · simp [low, Nat.testBit_lt_two_pow (Nat.lt_of_lt_of_le h (Nat.pow_le_pow_right (by decide) (Nat.le_of_not_lt low)))]

theorem counted_satReg16 (s : State) (pa : Nat) : bits ((s.satReg16 pa).reg pa) 15 0 = counted 0xFFFF (bits (s.reg pa) 15 0) := by
  have bound : bits (s.reg pa) 15 0 < 2 ^ 16 := Nat.mod_lt _ (by decide)
  rw [State.satReg16, reg_setReg_self, bits_putBits_low (by unfold satInc; split <;> omega), satInc, counted]
  split <;> omega

/-- R357: a whole message that a free mailbox gets stands in its buffer, and the mailbox keeps where it came from. -/
theorem mgmtRx_queued {port h : Nat} {src : List Byte} {msg : List W32}
    (host : (List.range 4).find? (fun h => (s.hostOf h).1 == 2) = some h) (whole : 5 + bits (msg.getD 0 0) 31 24 ≤ msg.length)
    (free : (s.mbx (64 + h)).st = 0 ∨ (s.mbx (64 + h)).st = 3) :
    let n := 5 + bits (msg.getD 0 0) 31 24
    let s' := s.mgmtRx port src msg
    (s'.mbx (64 + h)).st = 1 ∧ (s'.mbx (64 + h)).dst = src ∧ (s'.mbx (64 + h)).port = port ∧
      (n ≤ 64 → ∀ i, i < n → s'.reg (mbxBase (64 + h) + 4 * i) = msg.getD i 0) ∧ NoThread s s' := by
  intro n s'
  let u := s.setBuf (mbxBase (64 + h)) (msg.take n)
  let v := u.setMbx (64 + h) { u.mbx (64 + h) with dst := src, port := port }
  have taken : s' = v.mbxGo (64 + h) none := by
    have kept : ¬ (msg.length < n ∨ msg = [] ∨ (!s.mbxFree (64 + h)) = true) := by
      rintro (short | rfl | busy)
      · omega
      · simp at whole
      · simp only [State.mbxFree, Bool.not_eq_true', Bool.or_eq_false_iff, beq_eq_false_iff_ne] at busy
        omega
    unfold s' State.mgmtRx
    rw [host]
    exact if_neg kept
  have same : v.mbx (64 + h) = { s.mbx (64 + h) with dst := src, port := port } := by
    rw [mbx_setMbx_self, setBuf_mbx]
  have free' : (v.mbx (64 + h)).st = 0 ∨ (v.mbx (64 + h)).st = 3 := by rwa [same]
  rw [taken, mbxGo_of_free free', emptied_mbx, same]
  refine ⟨rfl, rfl, rfl, fun short i hi => ?words, ?noThread⟩
  case words =>
    rw [emptied_request _ _ _ _ (by omega) (by decide), reg_setMbx, reg_setBuf _ _ _ (by omega)]
    simp [List.getD_eq_getElem?_getD, hi]
  case noThread =>
    exact ⟨by simp [v, u, State.setMbx], by simp [v, u, State.setMbx]⟩

theorem managementFrameRx_gives {port : Fin 20} {vid : BitVec 12} {src : List Byte} {msg : List W32} {P : State → Prop}
    (entry : transportRule (.managementFrameRx port vid src msg) s = some P) : Gives (.managementFrameRx port vid src msg) s P := by
  refine ⟨_, rfl, ?_⟩
  simp only [transportRule] at entry
  split at entry
  case isFalse other =>
    obtain rfl := Option.some.inj entry
    exact if_neg other
  case isTrue management =>
    rw [if_pos management]
    split at entry
    case h_1 noHost =>
      obtain rfl := Option.some.inj entry
      have dropped : s.mgmtRx port src msg = s.satReg16 0x1044001038 := by rw [State.mgmtRx, noHost]
      rw [dropped]
      exact ⟨counted_satReg16 .., rfl, rfl⟩
    case h_2 h host =>
      split at entry
      case isFalse => cases entry
      case isTrue fits =>
        obtain ⟨whole, short, free⟩ := fits
        obtain rfl := Option.some.inj entry
        obtain ⟨queued, dst, from_, words, noThread⟩ := mgmtRx_queued (port := port) (src := src) host whole free
        exact ⟨queued, dst, from_, words short, noThread⟩

theorem transportRule_holds : transportRule.Holds := by
  rintro i s P entry -
  cases i
  case sspWriteWords => exact sspWriteWords_gives entry
  case sspReadWords => exact sspReadWords_gives entry
  case sspReadStat => exact sspReadStat_gives entry
  case managementFrameRx => exact managementFrameRx_gives entry
  all_goals cases entry

/-! ## Time (R308, R356, R361) -/

theorem access_of_served {rq : Req} {pa : Nat} (present : s.addrFused pa = false) (on : s.domain (domainOf pa) = .on)
    (guard : s.guardOk rq = true) (w : Option W32) (f : State → State) : s.access rq pa true w f = f s := by
  simp [State.access, present, on, guard]

theorem timeStepTo_fields (s : State) (t : Nat) :
    (s.timeStepTo t).gtb = t % 2 ^ 64 ∧ (s.timeStepTo t).eth = s.eth ∧ NoThread s (s.timeStepTo t) := by
  simp [State.timeStepTo, NoThread]

/-- R361: a write to ESW_TD_OFFS slews the time of a source by a small offset and steps it by a large one. -/
theorem tdOffs_meets {w : W32} {P : State → Prop}
    (entry : (if s.eth.source = 0 then some (fun s' => s' = s)
      else if w.toInt ≤ 1000000 ∧ -1000000 ≤ w.toInt then
        some (fun s' => s' = { s with eth := { s.eth with slew := -w.toInt * 2 ^ 32, slewing := w.toInt != 0 } })
      else some (fun s' => s'.gtb = ((s.gtb : Int) - w.toInt).toNat % 2 ^ 64 ∧ s'.eth.slewing = false ∧ NoThread s s')) = some P) :
    P (s.tdOffs w) := by
  unfold State.tdOffs
  split at entry
  case isTrue noSource =>
    obtain rfl := Option.some.inj entry
    exact if_pos noSource
  case isFalse source =>
    rw [if_neg source]
    split at entry
    case isTrue small =>
      obtain rfl := Option.some.inj entry
      exact if_pos small
    case isFalse large =>
      obtain rfl := Option.some.inj entry
      rw [if_neg large]
      obtain ⟨gtb, eth, noThread⟩ :=
        timeStepTo_fields (s.modEth fun e => { e with slew := 0, slewing := false }) ((s.gtb : Int) - w.toInt).toNat
      exact ⟨gtb, congrArg Eth.slewing eth, noThread⟩

/-- The state in which no completion of set `i` waits for its signal (R356). -/
def noneUnsignalled (s : State) (i : Nat) : State :=
  { s with eth := { s.eth with unsig := Tbl.set (fun _ => (0 : Nat)) s.eth.unsig i 0 } }

theorem num_noneUnsignalled (s : State) (i : Nat) : num (noneUnsignalled s i).eth.unsig i = 0 := by simp [num, noneUnsignalled]

theorem coalesceTimerExpiry_gives {i : Fin 2048} {P : State → Prop} (entry : timeRule (.coalesceTimerExpiry i) s = some P) :
    Gives (.coalesceTimerExpiry i) s P := by
  obtain ⟨holds, rfl⟩ := given_eq_some.1 entry
  simp only [Bool.and_eq_true, decide_eq_true_eq] at holds
  obtain ⟨⟨⟨type, index⟩, pending⟩, timed⟩ := holds
  obtain ⟨inRange, asserts⟩ := (instanceEvent_instEvent type index).asserts (noneUnsignalled s i)
  have runs : exec (.coalesceTimerExpiry i) s = .next ((noneUnsignalled s i).signal (instEvent i)) :=
    congrArg ok (if_pos (by simpa using ⟨pending, timed⟩))
  have quiet := quiet_signal (noneUnsignalled s i) (instEvent i)
  refine ⟨_, runs, ?_, signalled_signal inRange asserts, quiet.mem, quiet.thr⟩
  rw [quiet.eth, num_noneUnsignalled]

theorem timeRule_holds : timeRule.Holds := by
  rintro i s P entry -
  cases i
  case nonceLapse =>
    obtain rfl := Option.some.inj entry
    exact ⟨_, rfl, rfl⟩
  case gtbAlarmMatch a =>
    obtain rfl := Option.some.inj entry
    have asserts : s.srcOut (1176 + a.val) = false := by
      rw [srcOut_eq_srcNever s (by omega) (by omega)]
      exact (by decide : ∀ a : Fin 8, srcNever (1176 + a.val) = false) a
    exact ⟨_, rfl, signalled_signal (by omega) asserts, signal_mem .., signal_thr ..⟩
  case gtbPps =>
    obtain rfl := Option.some.inj entry
    have asserts : s.srcOut 1185 = false := srcOut_eq_srcNever s (by decide) (by decide)
    exact ⟨_, rfl, signalled_signal (by decide) asserts, signal_mem .., signal_thr ..⟩
  case slewComplete =>
    obtain ⟨slews, rfl⟩ := given_eq_some.1 entry
    exact ⟨_, rfl, if_pos slews⟩
  case eswTdOffsWrite rq w =>
    simp only [timeRule] at entry
    split at entry
    case isFalse => cases entry
    case isTrue served =>
      have runs : exec (.eswTdOffsWrite rq w) s = .next (s.tdOffs w) := congrArg ok (access_of_served rfl served.1 served.2 _ _)
      exact ⟨_, runs, tdOffs_meets entry⟩
  case coalesceTimerExpiry => exact coalesceTimerExpiry_gives entry
  all_goals cases entry

/-- Settles O49, by the commands of the transports (`transportRule_holds`) and those of the time base and the timers (`timeRule_holds`). -/
theorem transportsAndTime : Obligations.TransportsAndTime := ⟨transportRule_holds, timeRule_holds⟩

end Sys2Proof.Proofs
